-- ==== Sys2Proof/Word.lean ====
section
/-!
DEFINITION. The words the KH-M20's formats are made of, and the shape of a sparse table.
Every field of an Azeidor format is little-endian (R5); bit 0 is the least significant bit (R4).
-/

namespace Sys2Proof

/-- One octet. -/
abbrev Byte := BitVec 8

/-- A 32-bit register or field (R59: registers are 32 bits wide). -/
abbrev Word := BitVec 32

/-- A 64-bit register or field. -/
abbrev DWord := BitVec 64

/-- A byte string, first octet first. -/
abbrev Bytes := List Byte

/-- A 256-bit hash value (R197). -/
abbrev Hash := BitVec 256

/-- A sparse table: pairs of a key and a value, keys strictly rising. -/
abbrev Tbl (α : Type) := List (Nat × α)

end Sys2Proof
end

