-- ==== Sys2Proof/Syntax.lean ====
section
/-!
DEFINITION. What may happen to the device: the operand records and the ONE inductive of commands, one constructor per
row of spec/opcode_table.json, in the table's order.
An event carries what the world outside the model decides (what a receiver decoded, what a sensor read, whether a
supply held); nothing the device itself works out stands in an operand.
-/

namespace Sys2Proof

/-- What the board fits and the part's fuses hold (R22, R263, R264, R428); fixed while the supplies are down. -/
structure Fitting where
  /-- Silicon stepping of the die (identity block). -/
  stepping : Byte := 0#8
  /-- SERIAL, fused. -/
  serial : DWord := 0#64
  /-- DRAM found at training, MiB. -/
  dramMib : Nat := 2048
  /-- Dies fitted on each channel, NC0 upward (R264). -/
  onChan : List Nat := [1, 1, 1, 1]
  /-- Capacity of a die, GiB. -/
  dieGib : Nat := 64
  /-- Capacity of a block in TLC, MiB. -/
  blockMib : Nat := 16
  /-- Blocks whose factory mark says bad, by number counted over the whole device. -/
  bad : List Nat := []
  /-- Every die matches the qualified-die table (R263). -/
  qualified : Bool := true
  /-- Tmax as fused, in units of 0.5 °C (R428): 220 or 250. -/
  tmax : Int := 220
  /-- Set point of VDD_CORE, fused, in mV (R421). -/
  setPoint : Nat := 750
  deriving DecidableEq, Repr

/-- What a start finds outside the model's own state (R378, R379, R387, R227). -/
structure BootIn where
  /-- The link between the dies trains within its tries. -/
  dieLink : Bool
  /-- Holly passes its self-test. -/
  holly : Bool
  /-- The image in slot A passes steps 3 and 5. -/
  slotA : Bool
  /-- The image in slot B passes steps 3 and 5. -/
  slotB : Bool
  /-- At least one copy of the boot record is valid. -/
  record : Bool
  /-- Ildin reaches MBOX_READY within 2 s of being started. -/
  ildin : Bool
  /-- Each of the two sealed copies of the vault store authenticates (R244). -/
  vault : Bool × Bool
  /-- The stage loader image that the ROM measures (R257). -/
  loader : Bytes
  /-- The Ildin image and its signature block that the stage loader measures, where the slot booted holds none loaded here (R257). -/
  image : Bytes × Bytes
  /-- How long the AO island counted through the outage, ns; none when it did not run (R227). -/
  outage : Option Nat
  /-- Time from the reference to the end of step 12, in 10 ms units. -/
  took : Nat
  /-- How long the rebuild of the map took, ms (R276, R290). -/
  rebuilt : Nat := 0
  /-- The newer anchor record fails its CRC (R275). -/
  anchorBad : Bool := false
  /-- Dies whose parameter page cannot be read (R283). -/
  unread : List Nat := []
  deriving DecidableEq, Repr

/-- A descriptor as fetched (table Descriptor) with the payload the device read. -/
structure Desc where
  /-- Submission ring it was fetched from. -/
  ring : Fin 16
  /-- [0] PAYLOAD_BAR2, [1] FENCE, [2] NO_IRQ. -/
  flags : BitVec 16
  /-- Tag. -/
  tag : Word
  /-- Session ID, 0 for none. -/
  session : Word
  /-- Payload length. -/
  plen : Word
  /-- Payload address. -/
  paddr : DWord
  /-- The 40 inline bytes. -/
  inline : Bytes
  /-- The payload bytes when they come from host memory; a payload in BAR2 is read from the state. -/
  payload : Bytes
  deriving DecidableEq, Repr

/-- What makes an MSI-X message leave (R73): a write of the capability's enable and function mask, or of a table entry. -/
inductive MsixOp where
  /-- The capability's control: MSI-X enable, function mask. -/
  | control (enable mask : Bool)
  /-- The vector control word of a table entry: vector, mask bit. -/
  | vector (n : Fin 64) (mask : Bool)
  deriving DecidableEq, Repr

/-- A Hedgerow frame as a link channel decoded it (R106, R109). -/
structure HrRx where
  /-- Link channel. -/
  lc : Nat
  /-- The frame from its first header byte through the FCS, route extension included. -/
  bytes : Bytes
  /-- Share of the frame's samples blanking dropped, in 1/1024. -/
  blanked : Nat
  /-- RSSI, 0.1 dB. -/
  rssi : Int
  /-- SNR of the 24 groups, 0.25 dB. -/
  snr : List Int
  /-- TB4 at the channel samples that carry the frame's start and end, ns. -/
  span : Nat × Nat
  /-- TB4 at the channel sample that carries its start-of-frame delimiter, ns (R88). -/
  sfd : Nat
  deriving DecidableEq, Repr

/-- A Bramble frame as a link channel decoded it (R125). -/
structure BrRx where
  /-- Link channel. -/
  lc : Nat
  /-- Plan index on which it was received. -/
  index : Nat
  /-- The frame from its first header byte through the FCS. -/
  bytes : Bytes
  /-- Share of the frame's samples blanking dropped, in 1/1024. -/
  blanked : Nat
  /-- RSSI, 0.1 dB. -/
  rssi : Int
  /-- TB5 at the channel samples that carry the frame's start and end, ns. -/
  span : Nat × Nat
  /-- TB5 at the channel sample that carries its start-of-frame delimiter, ns (R88). -/
  sfd : Nat
  deriving DecidableEq, Repr

/-- The link parameters a JESD204B initial lane alignment sequence carries (R83). -/
structure LinkParams where
  l : Nat := 1
  m : Nat := 1
  n : Nat := 16
  nn : Nat := 16
  f : Nat := 2
  k : Nat := 32
  scramble : Bool := false
  deriving DecidableEq, Repr

/-- A port that locks, and what its alignment sequence carried (R83, R85). -/
structure LaneLock where
  port : Nat
  ilas : LinkParams := {}
  deriving DecidableEq, Repr

/-- A read of one word of BAR0 or BAR2: its offset and the bytes it enables (R58, R59). -/
structure BarRead where
  bar2 : Bool := false
  off : Nat
  be : BitVec 4 := 15#4
  deriving DecidableEq, Repr

/-- What a port calibration measures (R93). -/
structure CalIn where
  /-- DC offset of I and Q, as the correction takes it. -/
  dc : Int × Int := (0, 0)
  /-- I/Q gain imbalance. -/
  gain : Int := 0
  /-- I/Q phase imbalance. -/
  phase : Int := 0
  /-- Image rejection, 0.1 dB. -/
  image : Nat
  /-- Eye margin, % UI. -/
  eye : Nat
  /-- Noise floor per link channel bound to the port, 0.1 dB. -/
  floors : List (Nat × Int)
  deriving DecidableEq, Repr

/-- The data set of an Announce message (R229). -/
structure Announce where
  prio1 : Nat
  cls : Nat
  acc : Nat
  var : Nat
  prio2 : Nat
  gm : DWord
  steps : Nat
  source : DWord
  portNo : Nat
  deriving DecidableEq, Repr

/-- A PTP message as the port took it (R228). -/
structure PtpRx where
  /-- Port: 0 ETH-A, 1 ETH-B. -/
  port : Nat
  /-- The message, from the first byte of its PTP header. -/
  bytes : Bytes
  /-- Ingress timestamp, TB of the port's domain, ps. -/
  ingress : Int
  /-- EtherType of the frame that carried the message; 0x88F7 is PTP on Layer 2 (R228). -/
  ether : Nat := 0x88F7
  deriving DecidableEq, Repr

/-- A Zoryen frame as the port took it (R296). -/
structure ZorRx where
  /-- Port: 0 ETH-A, 1 ETH-B. -/
  port : Nat
  /-- The frame, from the first byte after the Ethernet header. -/
  bytes : Bytes
  deriving DecidableEq, Repr

/-- A page a die reports on (R269). -/
structure PageIn where
  /-- Stream whose next page it is (R269): 0 to 3 DATA, 4 to 7 GC of a group; 9 a page of another region. -/
  stream : Nat
  /-- LSNs of its sectors. -/
  lsns : List Nat
  /-- Bit errors of its sectors when it is read back (R279). -/
  errors : List Nat := []
  deriving DecidableEq, Repr

/-- What reading one sector finds: its raw bit errors, and whether soft decoding recovers it where hard decoding does not (R266). -/
structure SectorRead where
  /-- Sector within the block. -/
  idx : Nat
  /-- Bit errors. -/
  errors : Nat
  /-- Soft decoding, after read-retry, recovers it. -/
  soft : Bool := true
  deriving DecidableEq, Repr

/-- What reading a block back finds (R272, R282). -/
structure VerifyIn where
  /-- Block. -/
  block : Nat
  /-- Its sectors as read. -/
  sectors : List SectorRead
  deriving DecidableEq, Repr

/-- An uncorrectable DRAM error (R288). -/
structure DramErr where
  /-- Device. -/
  device : Nat
  /-- Line. -/
  line : Nat
  /-- Slot whose hot state it lies in; none for another region. -/
  slot : Option Nat
  /-- Byte of BAR2 whose line it lies in; none for another region. -/
  bar2 : Option Nat := none
  /-- Token whose staged result it lies in; none for another region. -/
  token : Option Word := none
  deriving DecidableEq, Repr

/-- A request to Hawthorn (R359, R360). -/
structure HwReq where
  /-- Requester. -/
  who : Nat
  /-- Resources it may take. -/
  wants : List Nat
  /-- Declared length. -/
  length : Nat
  /-- Locked sequence. -/
  locked : Bool
  deriving DecidableEq, Repr

/-- A command of the block: a row of spec/opcode_table.json. -/
inductive Instr where
  /-- POWER_ON (R374). Supplies come up from nothing and the device starts with only what the last flush made durable. -/
  | powerOn (f : Fitting)
  /-- RESET_N_ASSERT (R426). RESET_N is recognised low after 1 µs; the reset is deferred until the flush seal if a hold-up flush is running. -/
  | resetNAssert
  /-- RESET_N_RELEASE (R378). Release of RESET_N samples ROLE_SEL and runs the start-up sequence toward DEV_READY. -/
  | resetNRelease (roleSel : Bool) (b : BootIn)
  /-- INTERNAL_RESET (R375). An internal reset acts as RESET_N without sampling ROLE_SEL and then runs the start-up sequence. -/
  | internalReset (b : BootIn)
  /-- RESTORE_MARKS_CREATE (R187). Once TB3 is valid after the map rebuild, boundary marks missed during the outage are created with CREATED_ON_RESTORE. -/
  | restoreMarksCreate
  /-- PFAIL_N_ASSERT (R41). PFAIL_N recognised low stops acknowledgements, taking and host writes and starts the hold-up sequence. -/
  | pfailNAssert
  /-- FLUSH_COMPLETE (R43). The flush seal is programmed and the device idles at no more than 10 W, acting on any deferred reset. -/
  | flushComplete
  /-- PFAIL_GLITCH_RESTART (R45). PFAIL_N high for 10 ms after assertion writes PFAIL_GLITCH and restarts by internal reset. -/
  | pfailGlitchRestart (b : BootIn)
  /-- RAIL_OUT_OF_RANGE (R423). A supply rail leaving its range stops the logic die at once, leaving the flush incomplete. -/
  | railOutOfRange (durable : Nat)
  /-- THERMAL_WARN (R428). Junction above Tmax − 5 °C holds every quad at operating point 2 or slower and posts a warning. -/
  | thermalWarn (temp : Int)
  /-- THERMAL_WARN_RELEASE (R428). Junction below Tmax − 10 °C releases the thermal operating-point hold. -/
  | thermalWarnRelease (temp : Int)
  /-- THERMAL_TRIP (R428). Junction above Tmax + 10 °C acts as PFAIL_N assertion and then holds the device in internal reset. -/
  | thermalTrip (temp : Int)
  /-- THERMAL_TRIP_RESTART (R428). After a trip, the junction falling below Tmax − 10 °C restarts the device with CAUSE 7. -/
  | thermalTripRestart (temp : Int) (b : BootIn)
  /-- WATCHDOG_EXPIRY (R375). Ildin's CP code has not served the watchdog for 2 s and an internal reset is raised. -/
  | watchdogExpiry (b : BootIn)
  /-- FUNCTION_LEVEL_RESET (R57). FLR resets HOST island state only, keeping sessions, tokens, exports and running commands. -/
  | functionLevelReset
  /-- PERST_N_ASSERT (R426). PERST_N resets the PCIe endpoint only, with the effects of R57. -/
  | perstNAssert
  /-- PCIE_LINK_DOWN (R57). A hot reset or link-down event resets HOST island state only. -/
  | pcieLinkDown
  /-- JTAG_DEBUG_UNLOCK (R261). JTAG debug access is authenticated under slot 3, sets DEBUG_UNLOCKED and wakes deep domains. -/
  | jtagDebugUnlock (sig : Bytes)
  /-- DESCRIPTOR_UNDEFINED_OPCODE (R389). A fetched descriptor with an undefined opcode completes with IGNORED. -/
  | descriptorUndefinedOpcode (d : Desc) (opcode : Nat)
  /-- SESSION_OPEN (R67). Opens an OPERATOR, SECURITY or MAINTENANCE session after checking its credential. -/
  | sessionOpen (d : Desc)
  /-- SESSION_CLOSE (R67). Closes the session that issues it. -/
  | sessionClose (d : Desc)
  /-- SESSION_STATUS (R398). Returns a session's role, highest tag seen, next nonce and expiry. -/
  | sessionStatus (d : Desc)
  /-- MAINT_CHALLENGE (R399). Returns a fresh 32 B challenge for a MAINTENANCE session open. -/
  | maintChallenge (d : Desc)
  /-- MAINT_UNLOCK (R70). Unlocks the maintenance block for the issuing MAINTENANCE session. -/
  | maintUnlock (d : Desc)
  /-- DEVICE_ID_SET (R20). Assigns the device ID and draws the directory secret into slot 6. -/
  | deviceIdSet (d : Desc)
  /-- SHARE_SET (R23). Sets the background share of each engine from 2 % to 25 %. -/
  | shareSet (d : Desc)
  /-- TELEMETRY_READ (R398). Returns the share in force, background use per quad, late activities and junction temperature. -/
  | telemetryRead (d : Desc)
  /-- COUNTERS_READ (R398). Returns the device counters through a result token. -/
  | countersRead (d : Desc)
  /-- SOFT_RESET (R376). Commits, completes and then restarts the CP, engines, lane sequencers and security processor from the running copy. -/
  | softReset (d : Desc)
  /-- INGEST (R400). Takes every RAW_FRAME record of its payload or none. -/
  | ingest (d : Desc)
  /-- SESSION_LIST (R68). Returns the open OPERATOR sessions and the counts of the other roles. -/
  | sessionList (d : Desc)
  /-- METER_ENTER (R402). Enters a meter into an EMPTY slot and the directory, making it ACTIVE. -/
  | meterEnter (d : Desc)
  /-- METER_REMOVE (R143). Rolls the slot, opens its taken frames, removes it from the directory and returns it to EMPTY. -/
  | meterRemove (d : Desc)
  /-- METER_UPDATE (R402). Changes a slot's tariff plan, rule set, layout, key plan or GENERATING flag. -/
  | meterUpdate (d : Desc)
  /-- SLOT_READ (R146). Returns bytes of a slot's hot state. -/
  | slotRead (d : Desc)
  /-- COMMISSIONING_SET (R151). Puts a slot in COMMISSIONING until an end at most 24 h ahead, or returns it to ACTIVE. -/
  | commissioningSet (d : Desc)
  /-- LAYOUT_LOAD (R153). Loads a capture layout. -/
  | layoutLoad (d : Desc)
  /-- RULE_SET_LOAD (R157). Loads a validation rule set. -/
  | ruleSetLoad (d : Desc)
  /-- SHARD_CREATE (R403). Makes an UNHELD shard HELD at its next epoch. -/
  | shardCreate (d : Desc)
  /-- SHARD_DELETE (R401). Returns an empty HELD shard to UNHELD, keeping its epoch. -/
  | shardDelete (d : Desc)
  /-- SHARD_MODE_SET (R161). Sets a field shard's forward-and-open or transparent mode and its EXPORT_OPENED bit. -/
  | shardModeSet (d : Desc)
  /-- SHARD_RING_SET (R50). Maps a shard to an export ring, holding back records until the old ring's cursor passes. -/
  | shardRingSet (d : Desc)
  /-- SHARD_STATUS (R309). Returns a shard's state, owner, ring, mode, epoch and slots in use. -/
  | shardStatus (d : Desc)
  /-- DIRECTORY_LOOKUP (R145). Returns the slot holding an EUI-64 or system title. -/
  | directoryLookup (d : Desc)
  /-- PORT_CONFIG (R85). Loads a sample port configuration, moving the port through OFF and TRAINING as ENABLE says. -/
  | portConfig (d : Desc)
  /-- PORT_STATUS (R404). Returns a sample port's state and quality figures. -/
  | portStatus (d : Desc)
  /-- BRAMBLE_DEFAULTS (R128). Loads a Bramble network's default connection record. -/
  | brambleDefaults (d : Desc)
  /-- BRAMBLE_OVERRIDE (R128). Loads or removes a per-slot Bramble connection override. -/
  | brambleOverride (d : Desc)
  /-- CONNECTION_UPDATE (R137). Queues a parameter or map update for a running Bramble connection. -/
  | connectionUpdate (d : Desc)
  /-- CONNECTION_TERMINATE (R404). Terminates a slot's Bramble connection. -/
  | connectionTerminate (d : Desc)
  /-- ROUTE_READ (R404). Returns the route tree of a Hedgerow network. -/
  | routeRead (d : Desc)
  /-- PLAN_LOAD (R167). Loads a tariff plan record. -/
  | planLoad (d : Desc)
  /-- SWITCH_LIST_LOAD (R169). Loads a signed switch list as the plan's passive list. -/
  | switchListLoad (d : Desc)
  /-- CALENDAR_LOAD (R172). Loads a signed rule calendar to become the plan's calendar at its activation. -/
  | calendarLoad (d : Desc)
  /-- PASSIVE_DISCARD (R405). Discards a plan's passive list or calendar. -/
  | passiveDiscard (d : Desc)
  /-- SCHEDULE_STATUS (R405). Returns a plan's active and passive schedules, source and tariff in force. -/
  | scheduleStatus (d : Desc)
  /-- DETERMINANT_READ (R405). Returns a slot's closed, unsealed determinant. -/
  | determinantRead (d : Desc)
  /-- MARKS_READ (R405). Returns retained boundary marks in rising index. -/
  | marksRead (d : Desc)
  /-- LEDGER_KEY_CREATE (R200). Generates the ledger key in slot 1 and lets waiting sealings proceed. -/
  | ledgerKeyCreate (d : Desc)
  /-- LEDGER_KEY_ROTATE (R200). Generates a new ledger key for every later entry, recording LEDGER_KEY_ROTATED. -/
  | ledgerKeyRotate (d : Desc)
  /-- LEDGER_PROOF (R205). Returns an inclusion proof for a slot in a sealed period. -/
  | ledgerProof (d : Desc)
  /-- LEDGER_ENTRY_READ (R406). Returns a retained ledger entry. -/
  | ledgerEntryRead (d : Desc)
  /-- LEDGER_RETENTION_SET (R206). Sets the ledger retention from 62 to 1,100 days. -/
  | ledgerRetentionSet (d : Desc)
  /-- LEDGER_STATUS (R406). Returns the last entry, sealings in progress, retention and ledger ring. -/
  | ledgerStatus (d : Desc)
  /-- LEDGER_RING_SET (R203). Names the export ring for LEDGER_ENTRY records. -/
  | ledgerRingSet (d : Desc)
  /-- GROUP_LOAD (R207). Loads or replaces a balance group with fresh detector state. -/
  | groupLoad (d : Desc)
  /-- GROUP_REMOVE (R407). Removes a balance group. -/
  | groupRemove (d : Desc)
  /-- LT_PARAMS_LOAD (R215). Loads the device-wide loss and theft parameters. -/
  | ltParamsLoad (d : Desc)
  /-- PARTIAL_SUM (R213). Supplies a foreign partial sum for a group interval, revising an evaluated interval where needed. -/
  | partialSum (d : Desc)
  /-- DETECTOR_RESET (R214). Resets a group's CUSUM statistics and clears its alarms. -/
  | detectorReset (d : Desc)
  /-- TAMPER_MAP_LOAD (R218). Loads the tamper map of meter event codes. -/
  | tamperMapLoad (d : Desc)
  /-- TAMPER_CLEAR (R218). Sets a slot's meter-reported tamper scores of the named kinds to 0. -/
  | tamperClear (d : Desc)
  /-- GROUP_STATUS (R407). Returns a group's flags, last result, alarms and statistics. -/
  | groupStatus (d : Desc)
  /-- ZONE_LOAD (R236). Loads the zone record, possibly stepping TB3, and extends MEAS4. -/
  | zoneLoad (d : Desc)
  /-- TIME_STEP (R234). Steps TB2 and TB3 by an amount or to a named LOCKED domain. -/
  | timeStep (d : Desc)
  /-- ZONE_READ (R408). Returns the zone record in force. -/
  | zoneRead (d : Desc)
  /-- ATTEST (R258). Returns a signed statement of identity, status and measurements for a nonce. -/
  | attest (d : Desc)
  /-- KEY_ATTEST (R256). Returns a signed key statement for a slot. -/
  | keyAttest (d : Desc)
  /-- CERTIFICATE_READ (R255). Returns the intermediate or device identity certificate. -/
  | certificateRead (d : Desc)
  /-- PUBLIC_KEY_READ (R409). Returns the public key of an asymmetric slot. -/
  | publicKeyRead (d : Desc)
  /-- KEY_LIST (R409). Returns the key record of every occupied slot. -/
  | keyList (d : Desc)
  /-- KEY_GENERATE (R409). Generates a P-384 DERIVE private key in a host slot. -/
  | keyGenerate (d : Desc)
  /-- TRANSPORT_ESTABLISH (R251). Computes an ECDH transport key into a host UNWRAP slot and deletes the private key. -/
  | transportEstablish (d : Desc)
  /-- KEY_IMPORT (R252). Unwraps and places a derivation master or WRAP key. -/
  | keyImport (d : Desc)
  /-- KEY_DELETE (R243). Empties a host key slot. -/
  | keyDelete (d : Desc)
  /-- GENERATION_STAGE (R249). Stages the next key generation for a slot. -/
  | generationStage (d : Desc)
  /-- GENERATION_STAGE_PLAN (R249). Stages the next generation for every derived slot of a key plan. -/
  | generationStagePlan (d : Desc)
  /-- AUTHORITY_ENROL (R259). Enrols or replaces the security authority key, closing every SECURITY session on replacement. -/
  | authorityEnrol (d : Desc)
  /-- COSIGN_ENROL (R259). Enrols the utility firmware co-signature key in slot 5. -/
  | cosignEnrol (d : Desc)
  /-- MEASURE_EXTEND (R257). Extends MEAS6 or MEAS7 with host data. -/
  | measureExtend (d : Desc)
  /-- BROADCAST_GENERATION_SET (R341). Sets the broadcast key generation of a key plan. -/
  | broadcastGenerationSet (d : Desc)
  /-- HEALTH_READ (R289). Returns the latest health snapshot. -/
  | healthRead (d : Desc)
  /-- STORAGE_PARAMS_LOAD (R285). Loads the storage parameters record. -/
  | storageParamsLoad (d : Desc)
  /-- FORMAT (R386). Formats foreign NAND, emptying every store. -/
  | formatNand (d : Desc)
  /-- UNREADABLE_LIST (R281). Returns the list of unreadable slot and ASN ranges. -/
  | unreadableList (d : Desc)
  /-- YEW_FREEZE (R323). Stops Yew appends and stages new events. -/
  | yewFreeze (d : Desc)
  /-- YEW_UNFREEZE (R323). Appends the staged records and resumes appends. -/
  | yewUnfreeze (d : Desc)
  /-- YEW_HOLD_SET (R321). Sets the Yew hold period. -/
  | yewHoldSet (d : Desc)
  /-- YEW_CLEAR (R327). Erases every Yew record and appends RECORDER_CLEARED. -/
  | yewClear (d : Desc)
  /-- IMAGE_BEGIN (R331). Makes the inactive slot LOADING for an image of the given length. -/
  | imageBegin (d : Desc)
  /-- IMAGE_BLOCK (R331). Programs and reads back one image block at its offset. -/
  | imageBlock (d : Desc)
  /-- IMAGE_STATUS (R331). Returns the slot states, floor and blocks received. -/
  | imageStatus (d : Desc)
  /-- IMAGE_VERIFY (R332). Checks a LOADED image in full and makes it VERIFIED with a staged copy. -/
  | imageVerify (d : Desc)
  /-- ACTIVATE (R333). Activates the verified image in TRIAL through a pause of at most 30 ms. -/
  | activate (d : Desc)
  /-- CONFIRM (R336). Confirms the trial image, raises the floor and clears FW_TRIAL. -/
  | confirm (d : Desc)
  /-- IMAGE_ABORT (R330). Returns a LOADING slot to EMPTY. -/
  | imageAbort (d : Desc)
  /-- PAIR_CONFIGURE (R291). Loads a pair record and moves the device to PAIRING. -/
  | pairConfigure (d : Desc)
  /-- PAIR_DISSOLVE (R291). Returns the device to ALONE. -/
  | pairDissolve (d : Desc)
  /-- PAIR_STATUS (R413). Returns the pair state, holder, term and partner. -/
  | pairStatus (d : Desc)
  /-- WITNESS_TABLE_LOAD (R303). Replaces the table of pairs this device witnesses. -/
  | witnessTableLoad (d : Desc)
  /-- MIGRATE_PREPARE (R310). Makes a target shard INCOMING. -/
  | migratePrepare (d : Desc)
  /-- MIGRATE_FREEZE (R310). Freezes a source shard, opens its taken frames, rolls its slots and readies the parts. -/
  | migrateFreeze (d : Desc)
  /-- MIGRATE_SNAPSHOT (R311). Writes one shard part to a host address. -/
  | migrateSnapshot (d : Desc)
  /-- MIGRATE_LOAD (R313). Checks and loads one shard part into an INCOMING shard. -/
  | migrateLoad (d : Desc)
  /-- MIGRATE_COMMIT (R314). Makes the loaded shard HELD at the next epoch with its handover ASNs. -/
  | migrateCommit (d : Desc)
  /-- MIGRATE_RELEASE (R315). Moves a frozen source shard to DRAINING and starts its drain window. -/
  | migrateRelease (d : Desc)
  /-- MIGRATE_ABORT (R310). Returns the source to HELD and the target to UNHELD without changing the epoch. -/
  | migrateAbort (d : Desc)
  /-- DRAIN_WINDOW_SET (R315). Sets the drain window from 1 to 60 min. -/
  | drainWindowSet (d : Desc)
  /-- HOLDUP_BUDGET_SET (R40). Declares the hold-up budget and puts the new ceiling in force. -/
  | holdupBudgetSet (d : Desc)
  /-- HOLDUP_STATUS (R414). Returns the budget, LOWERING, ceiling, dirty bytes and refusals. -/
  | holdupStatus (d : Desc)
  /-- DISPLAY_RECOVER (R372). Runs the recovery waveform on the named segments as an update. -/
  | displayRecover (d : Desc)
  /-- DISPLAY_BOOK_RESET (R414). Sets the named segments' books to 0 and their states to CLEAR. -/
  | displayBookReset (d : Desc)
  /-- METER_GET (R416). Reads a COSEM attribute from a meter and completes when the outcome is known. -/
  | meterGet (d : Desc)
  /-- METER_SET (R416). Writes a COSEM attribute to a meter and completes when the outcome is known. -/
  | meterSet (d : Desc)
  /-- METER_ACTION (R416). Invokes a COSEM method on a meter and completes when the outcome is known. -/
  | meterAction (d : Desc)
  /-- METER_CLOCK_SET (R416). Sets a meter's clock and completes when the outcome is known. -/
  | meterClockSet (d : Desc)
  /-- KEY_TRANSFER (R250). Carries the staged generation's keys to the meter wrapped under its KEK. -/
  | keyTransfer (d : Desc)
  /-- CALENDAR_PUSH (R417). Starts a campaign pushing a plan's schedule to its meters. -/
  | calendarPush (d : Desc)
  /-- METER_IMAGE_BEGIN (R339). Begins loading a meter image. -/
  | meterImageBegin (d : Desc)
  /-- METER_IMAGE_BLOCK (R339). Loads one block of a meter image. -/
  | meterImageBlock (d : Desc)
  /-- METER_IMAGE_VERIFY (R339). Checks a meter image's signature and marks it usable. -/
  | meterImageVerify (d : Desc)
  /-- CAMPAIGN_START (R340). Starts a meter firmware campaign over a list of slots. -/
  | campaignStart (d : Desc)
  /-- CAMPAIGN_STATUS (R340). Returns per-slot campaign progress. -/
  | campaignStatus (d : Desc)
  /-- CAMPAIGN_ACTIVATE (R415). Sets the activation instant of an image campaign. -/
  | campaignActivate (d : Desc)
  /-- CAMPAIGN_ABORT (R397). Ends a running campaign, mirrored to the token holder in a pair. -/
  | campaignAbort (d : Desc)
  /-- DOWNLINK_CANCEL (R416). Cancels a pending downlink command whose first request is not yet sent. -/
  | downlinkCancel (d : Desc)
  /-- DOWNLINK_FETCH (R418). Returns queued downlink APDUs above a sequence for the host to carry. -/
  | downlinkFetch (d : Desc)
  /-- DOWNLINK_ADOPTED_READ (R307). Returns the table of adopted downlink commands. -/
  | downlinkAdoptedRead (d : Desc)
  /-- SQ_TAIL (R62). A doorbell write makes the device fetch descriptors up to the new tail. -/
  | sqTail (ring : Nat) (v : Word)
  /-- CQ_HEAD (R63). A doorbell write frees completion entries so held completions are written and fetching resumes. -/
  | cqHead (ring : Nat) (v : Word)
  /-- CQ_ENABLE (R63). Setting CQ_ENABLE writes the held completions in finishing order. -/
  | cqEnable (ring : Nat) (v : Word)
  /-- SUBMISSION_ENABLE (R64). Setting or clearing a ring's submission enable starts or stops fetching. -/
  | submissionEnable (ring : Nat) (v : Word)
  /-- EXPORT_ENABLE (R75). Enabling an export ring makes the device write from the durable cursor + 1 with RESENT. -/
  | exportEnable (ring : Nat) (ringCtrl : Bool) (v : Word)
  /-- ER_CREDIT (R75). A write adds credit to an export ring, capped at ER_SIZE. -/
  | erCredit (ring : Nat) (v : Word)
  /-- ER_CURSOR (R52). A write advances the consumer cursor, releasing retained records and held-back shards. -/
  | erCursor (ring : Nat) (upper : Bool) (v : Word)
  /-- RESULT_SELECT (R71). Selects the token shown in the result window. -/
  | resultSelect (v : Word)
  /-- RESULT_PAGE (R71). Selects the page of the token shown in the result window. -/
  | resultPage (v : Word)
  /-- RESULT_RELEASE (R71). Releases a result token. -/
  | resultRelease (v : Word)
  /-- NOTICE_POP (R77). A read of word 0 pops the next notice into the latch, stalling while the queue is empty: here the one read of
  all 32 B; a read of a single word of NOTICE_POP is an RC_READ. -/
  | noticePop
  /-- NOTICE_POP_STALL_TIMEOUT (R77). A stalled pop reaches the stall limit and returns an all-zero entry. -/
  | noticePopStallTimeout
  /-- RC_READ (R97). A read of an RC counter returns the count and clears it. -/
  | rcRead (r : BarRead)
  /-- BROADCAST_WRITE (R78). A write to a group or all-channels block is applied in every target channel. -/
  | broadcastWrite (off : Nat) (v : Word)
  /-- APPLY (R80). A broadcast write of APPLY schedules the shadow copies of the target channels to take effect. -/
  | applyWrite (off : Nat) (v : Word)
  /-- APPLY_TAKES_EFFECT (R90). At the first LANE cycle with no acknowledgement owed, the target channels are checked and applied together. -/
  | applyTakesEffect
  /-- MSIX_UNMASK (R73). Enabling or unmasking MSI-X sends a pending vector's message and clears its bit. -/
  | msixUnmask (op : MsixOp)
  /-- INTERRUPT_COALESCE_TIMEOUT (R73). The coalescing time of a completion or export ring passes and its vector is signalled. -/
  | interruptCoalesceTimeout (vector : Nat)
  /-- TB_LATCH_READ (R239). A read of word 0 of a time base block latches all 96 bits of that base. -/
  | tbLatchRead (n : Nat)
  /-- SELECT (R233). A write of SELECT chooses the domain TB2 follows or holdover. -/
  | selectWrite (v : Word)
  /-- DOM_CFG (R232). A change of ENABLE, PROFILE, PRIMARY or DOMAIN_NUMBER starts, stops or restarts a PTP domain. -/
  | domCfg (domB : Bool) (v : Word)
  /-- PWR_LIMIT (R353). A write of floor, ceiling or DVFS_MAX changes what states a power domain may take. -/
  | pwrLimit (dom : Nat) (v : Word)
  /-- YEW_CURSOR (R326). A valid cursor write clears WINDOW_READY and refills the recorder window. -/
  | yewCursor (upper : Bool) (v : Word)
  /-- YEW_WINDOW_LAST_WORD_READ (R326). With AUTO_ADVANCE set, reading the window's last word moves the cursor and starts a refill. -/
  | yewWindowLastWordRead
  /-- YEW_WINDOW_READY (R326). A window refill completes and WINDOW_READY is set. -/
  | yewWindowReady
  /-- LAUREL_UPDATE (R368). A write of UPDATE checks the waveforms and requests an update at the next frame boundary, or sets PENDING. -/
  | laurelUpdate (v : Word)
  /-- REGISTER_WRITE (R60). A write to a register without behaviour of its own is applied or ignored as a whole. -/
  | registerWrite (bar2 : Bool) (off : Nat) (be : BitVec 4) (v : Word)
  /-- HR_DATA_RX (R109). A Hedgerow DATA frame is checked, classified by its sequence and taken, acknowledged or NACKed. -/
  | hrDataRx (r : HrRx)
  /-- HR_ACK_RX (R114). A meter's ACK to a device frame ends the exchange and may demand a tone map refresh. -/
  | hrAckRx (r : HrRx)
  /-- HR_NACK_RX (R114). A meter's NACK counts a failed attempt and may demand a ROBO retry with TM_REQ. -/
  | hrNackRx (r : HrRx)
  /-- HR_TONE_MAP_RESP_RX (R113). A neighbour's TONE_MAP_RESP sets the device's transmit map to it. -/
  | hrToneMapRespRx (r : HrRx)
  /-- HR_JOIN_REQ_RX (R118). A JOIN_REQ is looked up in the directory and answered with JOIN_RESP. -/
  | hrJoinReqRx (r : HrRx)
  /-- HR_NEIGHBOUR_REPORT_RX (R115). A NEIGHBOUR_REPORT updates link delivery estimates for routing. -/
  | hrNeighbourReportRx (r : HrRx)
  /-- HR_BEACON_RX (R118). A received beacon with this NETWORK_ID but disagreeing time is recorded as NETWORK_ID_CONFLICT. -/
  | hrBeaconRx (r : HrRx)
  /-- HR_BEACON_TX (R102). At each beacon instant the device launches the beacon on every transmitting channel of the network. -/
  | hrBeaconTx (net : Nat)
  /-- HR_CSMA_ATTEMPT (R105). A backoff ends and the device assesses the channel before a CAP transmission. -/
  | hrCsmaAttempt (net : Nat) (busy : Bool)
  /-- HR_ACK_WAIT_TIMEOUT (R105). A device unicast frame draws no acknowledgement and is retried up to MAX_RETRY. -/
  | hrAckWaitTimeout (net : Nat) (dest : Nat)
  /-- TONE_MAP_AGE_EXPIRY (R112). A transmit tone map passes TM_MAX_AGE and the next frame to that neighbour carries TM_REQ. -/
  | toneMapAgeExpiry (net : Nat) (addr : Nat)
  /-- ROUTE_RECOMPUTE (R116). At most every ROUTE_INTERVAL after a changed report, routes are recomputed and ROUTE frames sent. -/
  | routeRecompute (net : Nat)
  /-- TIMED_LAUNCH (R95). A queued frame's launch time is reached and its samples start on the lane. -/
  | timedLaunch (port : Nat)
  /-- BR_DATA_RX (R134). A Bramble DATA or EMPTY frame is matched to its connection, checked against hop and counter, taken and answered. -/
  | brDataRx (r : BrRx)
  /-- BR_CONNECT_REQ_RX (R127). A CONNECT_REQ on a rendezvous channel is answered with CONNECT_RESP. -/
  | brConnectReqRx (r : BrRx)
  /-- BR_ACK_RX (R131). A meter's ACK to device downlink completes its delivery or acknowledges an update. -/
  | brAckRx (r : BrRx)
  /-- BR_NACK_RX (R131). A meter's NACK to device downlink leaves it for a resend at a later event. -/
  | brNackRx (r : BrRx)
  /-- BR_RENDEZVOUS_TX (R127). At every whole TB5 second a RENDEZVOUS is launched on the rendezvous channels. -/
  | brRendezvousTx (net : Nat)
  /-- BR_SUPERVISION_TIMEOUT (R135). A connection's supervision timer passes and the connection is dropped. -/
  | brSupervisionTimeout (slot : Nat)
  /-- BR_CONNECTION_FORGET (R135). A LOST connection is forgotten after one further supervision timeout. -/
  | brConnectionForget (aw : Word)
  /-- BR_UPDATE_INSTANT_PASSED (R137). An update instant passes without acknowledgement and both versions are tried. -/
  | brUpdateInstantPassed (slot : Nat)
  /-- BR_CHANNEL_QUALITY (R138). Every 60 s indices above PER_LIMIT are removed from connection maps. -/
  | brChannelQuality
  /-- BR_CHANNEL_RESTORE (R138). A removed plan index is restored after 1 h. -/
  | brChannelRestore (net : Nat) (index : Nat)
  /-- WATCH_BURST_START (R139). A WATCH capture burst starts at a whole TB5 multiple of WATCH_PERIOD. -/
  | watchBurstStart (group : Nat)
  /-- WATCH_BURST_END (R139). A WATCH capture burst ends after WATCH_ON. -/
  | watchBurstEnd (group : Nat)
  /-- ETHERNET_INGEST (R294). A RAW frame arrives over Ethernet in core role and is taken when its CRC is correct. -/
  | ethernetIngest (record : Bytes)
  /-- SYSREF_EDGE (R84). A SYSREF edge aligns ALIGNED ports or is counted as a slip on UP ports. -/
  | sysrefEdge (phases : List (Nat × Bool))
  /-- PORT_LANE_LOCK (R85). A training port achieves lane lock and alignment and moves to ALIGNED. -/
  | portLaneLock (lock : LaneLock)
  /-- PORT_LOCK_LOST (R85). An UP port loses lane lock and goes DOWN. -/
  | portLockLost (port : Nat)
  /-- PORT_RETRAIN (R85). 1 ms after DOWN the port returns to TRAINING. -/
  | portRetrain (port : Nat)
  /-- PORT_CALIBRATION (R93). Every 10 s per UP port the lane sequencer measures offsets, noise floors and eye margin. -/
  | portCalibration (port : Nat) (m : CalIn)
  /-- CALIBRATION_SWAP (R93). New coefficients are swapped in at a quiet block boundary or forced after three searches. -/
  | calibrationSwap (port : Nat) (quiet : Bool)
  /-- FRAME_OPEN (R142). The owning engine opens a taken frame through routing, key, authentication, parsing, validation, booking, commit and export. -/
  | frameOpen
  /-- EXPORT_RECORD_WRITE (R74). A committed record is written to its enabled ring once credit covers it. -/
  | exportRecordWrite (ring : Nat)
  /-- SHARD_OWNER_REASSIGN (R16). The CP moves a shard to another engine when its owner has no frame of it in progress. -/
  | shardOwnerReassign (shard : Nat) (engine : Nat)
  /-- COMMISSIONING_END (R151). A slot's commissioning end passes and it returns to ACTIVE. -/
  | commissioningEnd (slot : Nat)
  /-- GAP_ESTIMATE (R159). An interval still missing the ESTIMATE wait after its end is estimated. -/
  | gapEstimate (slot : Nat)
  /-- SHAPE_TABLE_UPDATE (R159). Each day the shape table is updated from measured intervals. -/
  | shapeTableUpdate
  /-- BOUNDARY_MARK_CREATE (R175). TB3 reaches a scheduled DEMAND_END, PERIOD_END or TARIFF_SWITCH instant and its mark is created. -/
  | boundaryMarkCreate
  /-- LIST_ACTIVATION (R170). TB3 reaches a passive list's activation and it becomes active with a TARIFF_SWITCH mark. -/
  | listActivation (plan : Nat)
  /-- CALENDAR_ACTIVATION (R172). A loaded rule calendar becomes the plan's calendar at its activation instant. -/
  | calendarActivation (plan : Nat)
  /-- CALENDAR_FALLBACK (R171). The active list's coverage ends with no successor and the plan falls back to its calendar. -/
  | calendarFallback (plan : Nat)
  /-- LEAP_SECOND (R235). An announced leap second is applied to TB3. -/
  | leapSecond
  /-- BOUNDARY_SWEEP (R177). A background slice rolls slots past outstanding marks. -/
  | boundarySweep (slots : List Nat)
  /-- BACKGROUND_ACTIVITY_LATE (R25). A background activity passes its bound and gets first claim with a notice and Yew record. -/
  | backgroundActivityLate (row : Nat) (late : Bool)
  /-- SEAL_MARK_CREATE (R183). TB7 passes the grace since a PERIOD_END and the SEAL mark is created, rolling the plan's remaining slots. -/
  | sealMarkCreate (plan : Nat)
  /-- SEALING (R201). A period's leaves are hashed, the root signed, committed and exported as a ledger entry. -/
  | sealing
  /-- CUTOFF_WAIT_TIMEOUT (R185). 600 s pass without reaching the partner's cutoff and the device seals with what it has accepted. -/
  | cutoffWaitTimeout
  /-- PARTNER_ROOT_TIMEOUT (R204). No partner root arrives within 600 s and the entry is flagged PARTNER_ABSENT. -/
  | partnerRootTimeout
  /-- LEDGER_PREBUILD (R202). A background slice encodes and hashes closed, unsealed leaves. -/
  | ledgerPrebuild (slots : List Nat)
  /-- BALANCE_EVALUATE (R210). A group interval is complete or BAL_WAIT has passed and it is evaluated in order. -/
  | balanceEvaluate (group : Nat)
  /-- DAILY_ATTRIBUTION (R216). Once per legal day at TOPO_MINUTE a standing alarm is attributed again. -/
  | dailyAttribution (group : Nat)
  /-- TOPOLOGY_RUN (R220). Once a day at TOPO_MINUTE member voltage profiles are correlated with reference phases. -/
  | topologyRun
  /-- PTP_SYNC (R231). A Sync is taken and the domain's servo forms its offset and steers or steps its base. -/
  | ptpSync (r : PtpRx)
  /-- PTP_FOLLOW_UP (R231). A Follow_Up completes a two-step Sync for the servo. -/
  | ptpFollowUp (r : PtpRx)
  /-- PTP_ANNOUNCE (R229). An Announce feeds master selection for its domain. -/
  | ptpAnnounce (r : PtpRx)
  /-- PTP_DELAY_REQ_TX (R228). The device sends its Delay_Req at the delay interval. -/
  | ptpDelayReqTx (domB : Bool)
  /-- PTP_DELAY_RESP (R228). A Delay_Resp updates the E2E mean path delay. -/
  | ptpDelayResp (r : PtpRx)
  /-- PTP_PDELAY_REQ_TX (R228). The device sends its Pdelay_Req at the delay interval. -/
  | ptpPdelayReqTx (port : Nat)
  /-- PTP_PDELAY_REQ (R228). A peer's Pdelay_Req is answered with Pdelay_Resp. -/
  | ptpPdelayReq (r : PtpRx)
  /-- PTP_PDELAY_RESP (R228). A Pdelay_Resp updates the P2P mean path delay. -/
  | ptpPdelayResp (r : PtpRx)
  /-- PTP_PDELAY_RESP_FOLLOW_UP (R228). A Pdelay_Resp_Follow_Up completes a two-step peer delay measurement. -/
  | ptpPdelayRespFollowUp (r : PtpRx)
  /-- ANNOUNCE_TIMEOUT (R229). No Announce on the primary for three intervals moves the domain to its alternate port. -/
  | announceTimeout (domB : Bool)
  /-- PRIMARY_RETURN (R229). The primary has carried Announce messages for 60 s and the domain returns to it. -/
  | primaryReturn (domB : Bool)
  /-- DOMAIN_SYNC_TIMEOUT (R232). No Sync for 3 sync intervals puts a LOCKED domain in HOLDOVER. -/
  | domainSyncTimeout (domB : Bool)
  /-- DOMAIN_HOLDOVER_TIMEOUT (R232). No master for 600 s in HOLDOVER returns the domain to LISTENING. -/
  | domainHoldoverTimeout (domB : Bool)
  /-- TB2_HOLDOVER_LIMIT (R233). TB2 holdover uncertainty exceeds HOLD_LIMIT and notice 0x0B04 is posted. -/
  | tb2HoldoverLimit
  /-- ETH_LINK_DOWN (R229). An Ethernet link goes down and PTP, Zoryen and ingest move to the other port. -/
  | ethLinkDown (port : Nat)
  /-- ETH_LINK_UP (R229). An Ethernet link comes up. -/
  | ethLinkUp (port : Nat)
  /-- ZORYEN_HEARTBEAT_TX (R299). Every 1 ms of TB6 a HEARTBEAT is sent to each other party on both ports. -/
  | zoryenHeartbeatTx
  /-- ZORYEN_HEARTBEAT (R299). A partner's or witness's HEARTBEAT is authenticated and updates pair state and fencing. -/
  | zoryenHeartbeat (z : ZorRx)
  /-- TOKEN_GRANT (R302). A TOKEN_GRANT naming this device at a higher term is received. -/
  | tokenGrant (z : ZorRx)
  /-- TOKEN_TAKE (R302). The grantee, having heard no holder heartbeat for 20 ms, takes the token and announces the term. -/
  | tokenTake
  /-- TOKEN_HOLD_END (R302). The 5 ms hold after taking the token ends and the device transmits as holder. -/
  | tokenHoldEnd
  /-- HOLDER_FENCE (R301). The holder hears no heartbeat naming it holder for 10 ms and stops transmitting. -/
  | holderFence
  /-- WITNESS_GRANT (R302). As witness, the holder is silent for 20 ms and a grant at term + 1 is issued to the other device. -/
  | witnessGrant (pair : Nat)
  /-- PARTNER_LOST (R292). No partner heartbeat for 20 ms moves the pair to PARTNER_LOST. -/
  | partnerLost
  /-- WITNESS_SILENT (R303). The witness falls silent and notice 0x0E03 is posted; the token stays put. -/
  | witnessSilent
  /-- ZORYEN_MIRROR (R304). A mirrored item is applied when all fragments have arrived and acknowledged. -/
  | zoryenMirror (z : ZorRx)
  /-- ZORYEN_MIRROR_ACK (R304). A MIRROR_ACK lets the holder use the mirrored item or complete its command. -/
  | zoryenMirrorAck (z : ZorRx)
  /-- ZORYEN_CUTOFF (R185). CUTOFF messages deliver the holder's cutoff vector for sealing. -/
  | zoryenCutoff (z : ZorRx)
  /-- ZORYEN_ROOT (R204). A partner's ROOT is compared with this device's root, leaf and adjustment counts. -/
  | zoryenRoot (z : ZorRx)
  /-- ZORYEN_SHARD_ROOTS (R298). A partner's shard roots locate the shards whose roots differ. -/
  | zoryenShardRoots (z : ZorRx)
  /-- ZORYEN_LEAF_HASHES (R204). A partner's leaf hashes locate differing slots, each recorded as LEDGER_LEAF_MISMATCH. -/
  | zoryenLeafHashes (z : ZorRx)
  /-- ZORYEN_RESYNC_REQ (R308). A partner's shard high-water hash is compared and the shard sent when it differs. -/
  | zoryenResyncReq (z : ZorRx)
  /-- ZORYEN_RESYNC_DATA (R308). A shard part fragment is received and, once complete, loaded under R313. -/
  | zoryenResyncData (z : ZorRx)
  /-- DRAIN_WINDOW_END (R315). A DRAINING shard's drain window ends and it becomes UNHELD. -/
  | drainWindowEnd (shard : Nat)
  /-- SESSION_EXPIRY (R67). A SECURITY or MAINTENANCE session reaches its expiry and closes. -/
  | sessionExpiry (id : Word)
  /-- MAINT_CHALLENGE_EXPIRY (R399). A maintenance challenge passes 60 s and is no longer valid. -/
  | maintChallengeExpiry
  /-- FW_TRIAL_EXPIRED (R337). 600 s pass without CONFIRM; the trial image keeps running until reset. -/
  | fwTrialExpired
  /-- LANE_MICROCODE_SWAP (R335). New lane microcode is swapped on a port at its first quiet LANE cycle after the pause. -/
  | laneMicrocodeSwap (port : Nat)
  /-- SECURITY_PROCESSOR_SWAP (R335). New security processor code is swapped at a point where Holly holds no locked sequence. -/
  | securityProcessorSwap
  /-- MULTICAST_ROUND (R341). Once every Hedgerow meter of a campaign has passed INITIATE, each block is broadcast once. -/
  | multicastRound (c : Nat)
  /-- CAMPAIGN_ACTIVATION_INSTANT (R340). A campaign's activation instant on TB3 is reached and READY meters are activated. -/
  | campaignActivationInstant (c : Nat)
  /-- DOWNLINK_EXPIRY (R416). A downlink command's expiry passes before delivery and it completes with outcome 3. -/
  | downlinkExpiry (index : Nat)
  /-- YEW_FREEZE_TIMEOUT (R323). 60 s after a freeze the staged records are appended. -/
  | yewFreezeTimeout
  /-- YEW_RECLAIM (R321). The oldest Yew erase block is reclaimed, with YEW_OVERFLOW if it still held records within hold. -/
  | yewReclaim (records : Nat)
  /-- JOURNAL_TAIL_WRITE (R273). Every 1 s or at 16,384 waiting entries the journal tail is written to the journal ring. -/
  | journalTailWrite
  /-- CHECKPOINT (R274). After 64 GiB programmed or 3,600 s a checkpoint and anchor record are written. -/
  | checkpoint
  /-- NAND_PROGRAM_COMPLETE (R269). A page reports program success, its sectors leave the write buffer and the map is journaled. -/
  | nandProgramComplete (p : PageIn)
  /-- NAND_PROGRAM_FAIL (R280). A page fails to program, its block is retired and writing resumes in the next free block. -/
  | nandProgramFail (p : PageIn)
  /-- NAND_ERASE_COMPLETE (R270). An erased block joins the free ring's tail. -/
  | nandEraseComplete (block : Nat)
  /-- NAND_ERASE_FAIL (R270). An erase fails and the block is retired. -/
  | nandEraseFail (block : Nat)
  /-- BLOCK_VERIFY (R272). A closed block is read back and becomes VERIFIED, relocated or rebuilt and retired. -/
  | blockVerify (v : VerifyIn)
  /-- GC_BLOCK_COLLECT (R278). With the free ring below FREE_TARGET, the oldest VERIFIED block's valid sectors are copied forward. -/
  | gcBlockCollect
  /-- NAND_PATROL_READ (R282). The patrol reads a VERIFIED block and relocates it or marks sectors UNREADABLE as needed. -/
  | nandPatrolRead (v : VerifyIn)
  /-- NAND_READY_TIMEOUT (R283). A die misses its ready timeout, and on the third within 60 s it is declared failed. -/
  | nandReadyTimeout (die : Nat)
  /-- DIE_REBUILT (R283). Every recoverable page of a failed die has been rebuilt and DIE_REBUILT is recorded. -/
  | dieRebuilt (die : Nat)
  /-- DRAM_UNCORRECTABLE (R288). An uncorrectable DRAM error is handled by region and recorded. -/
  | dramUncorrectable (e : DramErr)
  /-- DRAM_SCRUB (R287). The scrub reads DRAM lines and writes back corrected data. -/
  | dramScrub (lines : Nat)
  /-- VAULT_REMASK (R253). Every 60 s of TB6 Holly re-masks every slot and cache entry and inverts polarity. -/
  | vaultRemask
  /-- TRNG_HEALTH_FAIL (R254). A TRNG health test fails and every operation drawing random values stops. -/
  | trngHealthFail
  /-- TRNG_RETEST (R254). Every 1 s the TRNG tests are retried, resuming after 16 consecutive passes. -/
  | trngRetest (pass : Bool)
  /-- HEALTH_SNAPSHOT (R289). Every 60 s a health snapshot is taken and kept durably. -/
  | healthSnapshot
  /-- DOMAIN_ENTRY (R352). A power domain's idle timer passes and it enters the deepest allowed state. -/
  | domainEntry (dom : Nat) (refusers : List Nat)
  /-- DOMAIN_WAKE (R351). A wake cause reaches a domain, which abandons its entry or wakes through its steps. -/
  | domainWake (dom : Nat)
  /-- WAKE_FAULT (R351). A wake ready signal is not asserted within 100 µs; the wake is repeated and then the domain is failed. -/
  | wakeFault (dom : Nat)
  /-- DVFS_WINDOW (R354). Every 10 ms the CP raises or lowers each quad's operating point. -/
  | dvfsWindow (busy : List Nat)
  /-- HAWTHORN_REQUEST (R360). A request reaches Hawthorn, is stamped with its age and arbitrated. -/
  | hawthornRequest (r : HwReq)
  /-- HAWTHORN_RELEASE (R360). An owner releases a resource and the next winner is granted. -/
  | hawthornRelease (res : Nat)
  /-- ARBITER_CUTOFF (R364). A grant or lock is over bound; its owner is cut off and disabled. -/
  | arbiterCutoff (res : Nat)
  /-- ARBITER_READMIT (R364). The CP re-admits a cut-off requester after its item is abandoned. -/
  | arbiterReadmit (who : Nat)
  /-- DISPLAY_FRAME (R368). Each 20 ms frame applies owed segment levels, charges the books and starts or ends updates. -/
  | displayFrame
  /-- DISPLAY_PUMP_TIMEOUT (R369). PUMP_OK stays clear 20 ms after the pump start and the update is refused with reason 4. -/
  | displayPumpTimeout
  /-- STRIP_REFRESH_BURST (R373). Every 100 ms while the strip is active all 24 lines are rewritten. -/
  | stripRefreshBurst
  /-- STRIP_POLARITY_BURST (R373). Every 250 ms between refresh bursts a polarity burst sets VCOM. -/
  | stripPolarityBurst
  /-- BR_TERMINATE_TIMEOUT (R135). Three events after TERMINATE was sent without an acknowledgement, the connection is dropped. -/
  | brTerminateTimeout (slot : Nat)
  /-- SLEW_END (R233). TB2, TB4 or TB5 closes the difference it was slewing, clears SLEWING and signals MSI-X vector 37. -/
  | slewEnd (n : Nat)
  /-- RETENTION_EXPIRY (R273). Profiles, boundary marks and ledger material pass their retention and are released by TRIM. -/
  | retentionExpiry
  deriving DecidableEq, Repr

end Sys2Proof
end

