-- ==== Sys2Proof/Machine/Operands.lean ====
section
/-!
DEFINITION. How fields stand in bytes and words: little- and big-endian fields, slices, bit fields of a register,
the two checksums, and the inline and payload fields of a descriptor.
-/

namespace Sys2Proof.Machine

/-- The number a little-endian byte string spells (R5). -/
def ofLe : Bytes → Nat
  | [] => 0
  | b :: bs => b.toNat + 256 * ofLe bs

/-- The `n` little-endian bytes of a number, higher bytes dropped (R5). -/
def le : Nat → Nat → Bytes
  | 0, _ => []
  | n + 1, x => BitVec.ofNat 8 x :: le n (x / 256)

/-- The number a big-endian byte string spells. -/
def ofBe (bs : Bytes) : Nat := ofLe bs.reverse

/-- The `n` big-endian bytes of a number. -/
def be (n x : Nat) : Bytes := (le n x).reverse

/-- A two's complement value of `n` bytes as an integer. -/
def signed (n x : Nat) : Int := if x < 2 ^ (8 * n - 1) then (x : Int) else (x : Int) - (2 : Int) ^ (8 * n)

/-- An integer as the number of its `n`-byte two's complement. -/
def unsigned (n : Nat) (i : Int) : Nat := (i % ((2 : Int) ^ (8 * n))).toNat

/-- An integer held into the range of `n` signed bytes. -/
def saturate (n : Nat) (i : Int) : Int :=
  max (-(2 : Int) ^ (8 * n - 1)) (min ((2 : Int) ^ (8 * n - 1) - 1) i)

/-- The `n` bytes at an offset; bytes beyond the end read zero. -/
def slice (bs : Bytes) (off n : Nat) : Bytes :=
  let t := (bs.drop off).take n
  t ++ List.replicate (n - t.length) 0#8

/-- The unsigned field of `n` bytes at an offset. -/
def field (bs : Bytes) (off n : Nat) : Nat := ofLe (slice bs off n)

/-- The signed field of `n` bytes at an offset. -/
def fieldS (bs : Bytes) (off n : Nat) : Int := signed n (field bs off n)

/-- The bytes with a run put in place at an offset; the string keeps its length where the run lies inside it. -/
def patch (bs : Bytes) (off : Nat) (x : Bytes) : Bytes :=
  bs.take off ++ List.replicate (off - bs.length) 0#8 ++ x ++ bs.drop (off + x.length)

/-- `n` zero bytes. -/
def zeros (n : Nat) : Bytes := List.replicate n 0#8

/-- Zero bytes after a string up to a multiple of `m`. -/
def padTo (m : Nat) (bs : Bytes) : Bytes := bs ++ zeros ((m - bs.length % m) % m)

/-- Every byte is zero. -/
def allZero (bs : Bytes) : Bool := bs.all fun b => b == 0#8

/-- The bits `lo` upward, `n` of them, of a word as a number. -/
def bits {w : Nat} (x : BitVec w) (lo n : Nat) : Nat := (x >>> lo).toNat % 2 ^ n

/-- A word with the bits `lo` upward, `n` of them, set to a number. -/
def setBits (x : Word) (lo n v : Nat) : Word :=
  let m : Word := BitVec.ofNat 32 ((2 ^ n - 1) * 2 ^ lo)
  (x &&& ~~~ m) ||| (BitVec.ofNat 32 (v * 2 ^ lo) &&& m)

/-- Bit `n` as a number: the weight of a flag. -/
def flag (n : Nat) (b : Bool) : Nat := if b then 2 ^ n else 0

/-- The bytes of a byte string written in ASCII. -/
def ascii (s : String) : Bytes := s.toList.map fun c => BitVec.ofNat 8 c.toNat

/-! ### Checksums (PRESUMED from their names, assumption log 8) -/

/-- One bit of the reflected CRC-32C register. -/
def crc32cBit (c : Word) : Word := if c.getLsbD 0 then (c >>> 1) ^^^ 0x82F63B78#32 else c >>> 1

/-- One byte of CRC-32C. -/
def crc32cByte (c : Word) (b : Byte) : Word :=
  let x := c ^^^ b.zeroExtend 32
  crc32cBit (crc32cBit (crc32cBit (crc32cBit (crc32cBit (crc32cBit (crc32cBit (crc32cBit x)))))))

/-- CRC-32C of a byte string. -/
def crc32c (bs : Bytes) : Word := ~~~ (bs.foldl crc32cByte 0xFFFFFFFF#32)

/-- One bit of the unreflected CRC-16 with polynomial 0x1021. -/
def crc16Bit (c : BitVec 16) : BitVec 16 := if c.getLsbD 15 then (c <<< 1) ^^^ 0x1021#16 else c <<< 1

/-- One byte of CRC-16. -/
def crc16Byte (c : BitVec 16) (b : Byte) : BitVec 16 :=
  let x := c ^^^ (b.zeroExtend 16 <<< 8)
  crc16Bit (crc16Bit (crc16Bit (crc16Bit (crc16Bit (crc16Bit (crc16Bit (crc16Bit x)))))))

/-- CRC-16/CCITT-FALSE of a byte string: initial value 0xFFFF, no final inversion. -/
def crc16 (bs : Bytes) : BitVec 16 := bs.foldl crc16Byte 0xFFFF#16

/-! ### Fields of a descriptor (R391) -/

/-- The unsigned inline field of `n` bytes at an offset from byte 24 of the descriptor. -/
def inl (d : Desc) (off n : Nat) : Nat := field d.inline off n

/-- FENCE (table Descriptor). -/
def Desc.fence (d : Desc) : Bool := d.flags.getLsbD 1

/-- NO_IRQ (table Descriptor). -/
def Desc.noIrq (d : Desc) : Bool := d.flags.getLsbD 2

/-- PAYLOAD_BAR2 (table Descriptor). -/
def Desc.inBar2 (d : Desc) : Bool := d.flags.getLsbD 0

/-! ### Serial numbers -/

/-- `a` follows `b` in serial arithmetic of 32 bits (R48). -/
def serialAfter32 (a b : Word) : Bool := decide (a ≠ b) && decide ((a - b).toNat < 2 ^ 31)

/-- `a` follows `b` in serial arithmetic of 16 bits. -/
def serialAfter16 (a b : BitVec 16) : Bool := decide (a ≠ b) && decide ((a - b).toNat < 2 ^ 15)

/-- Ceiling of a quotient. -/
def ceilDiv (a b : Nat) : Nat := (a + b - 1) / b

/-- An integer quotient rounded to the nearest, halves away from zero. -/
def roundDiv (a : Int) (b : Nat) : Int :=
  if 0 ≤ a then (2 * a + b) / (2 * b) else -((2 * (-a) + b) / (2 * b))

end Sys2Proof.Machine
end

