-- ==== Sys2Proof/Config.lean ====
section
/-!
DEFINITION. The constants an implementation fixes and the values the manual leaves open.
An `opaque` constant has no body: no proof can see a value of it (assumption log 2).
The cryptographic functions are those of the standards the manual names and does not define (assumption log 4).
-/

namespace Sys2Proof.Config

/-- H: the first 32 B of SHAKE256 output over the byte string (R197). Uninterpreted, log 4. -/
opaque hash : Bytes → Hash

/-- The first `n` B of SHAKE256 output over the byte string (R246, R248, R251, R292). Uninterpreted, log 4. -/
opaque shake : Nat → Bytes → Bytes

/-- Falcon-1024 verification: public key, message, signature (R69, R329). Uninterpreted, log 4. -/
opaque falconVerify : Bytes → Bytes → Bytes → Bool

/-- Falcon-1024 signature under a private key named by its key ID: key ID, message, draw. Uninterpreted, log 4. -/
opaque falconSign : DWord → Bytes → Nat → Bytes

/-- AES-GCM authentication and decryption: key, IV, additional data, ciphertext, tag (R147). Uninterpreted, log 4. -/
opaque gcmOpen : Bytes → Bytes → Bytes → Bytes → Bytes → Option Bytes

/-- AES-GCM authenticated encryption: key, IV, additional data, plaintext; ciphertext then tag (R242). Uninterpreted, log 4. -/
opaque gcmSeal : Bytes → Bytes → Bytes → Bytes → Bytes

/-- RFC 3394 unwrap with the given initial value: key, initial value, wrapped bytes (R248). Uninterpreted, log 4. -/
opaque keyUnwrap : Bytes → Bytes → Bytes → Option Bytes

/-- DLMS key wrap of key material under a KEK (R250). Uninterpreted, log 4. -/
opaque keyWrap : Bytes → Bytes → Bytes

/-- P-384 point validity of a 97 B uncompressed public key (R251). Uninterpreted, log 4. -/
opaque p384Valid : Bytes → Bool

/-- The x-coordinate of the ECDH shared secret: private key, public key (R251). Uninterpreted, log 4. -/
opaque ecdh : Bytes → Bytes → Bytes

/-- The public key of a generated private key. Uninterpreted, log 4. -/
opaque publicOf : Bytes → Bytes

/-- The `n`-th draw of the TRNG, as a byte string of the length asked for: draw number, length. Free, log 2. -/
opaque trng : Nat → Nat → Bytes

/-- The value the device gives the `n`-th result token (the manual fixes no numbering). Free, log 2. -/
opaque tokenValue : Nat → Word

/-- The logical sector the store of the `n`-th commit writes (R47 names no sector). Free, log 2. -/
opaque commitLsn : Nat → Nat

/-- Buckets the directory of a role has, true core, beyond those its capacity needs (R143, R145). Free, log 2. -/
opaque dirBuckets : Bool → Nat

/-- The first (0) or second (1) hash of a name under the secret: true a system title (R145). Free, log 2. -/
opaque dirHash : Nat → Nat → Bool → DWord → Nat

/-- The entry a relocation moves, among those of the two full buckets: secret, name entered, relocations left (R145). Free,
log 2. -/
opaque dirVictim : Nat → DWord → Nat → Nat

/-- The slot and the first and last ASN a logical sector holds, as its store names them; none for other content (R281; R47
names no sector). Free, log 2. -/
opaque lsnOwner : Nat → Option (Nat × Nat × Nat)

/-- A random number of CSMA backoff units (R105), reduced by its user. Free, log 2. -/
opaque backoffDraw : Nat → Nat

/-- Public keys of the factory slots 0, 3 and 4, fused at manufacture (R243). Free, log 2. -/
opaque factoryPublic : Nat → Bytes

/-- The digests of components 2 to 4 of the image slot A holds from manufacture, by kind (R328). Free, log 2. -/
opaque factoryDigest : Nat → Bytes

/-- A certificate as Azeidor issued it, by kind (R255); its known fields are written over it. Free, log 2. -/
opaque certificate : Nat → Bytes

/-- Whether the log holds a profile retention of so many days on a raw capacity (R285 gives no figure). Free, log 2. -/
opaque logHolds : Nat → Nat → Bool

/-- Whether the log holds a ledger retention of so many days on a raw capacity (R206 gives no figure). Free, log 2. -/
opaque ledgerHolds : Nat → Nat → Bool

/-- Whether a sum of high-water ASNs is greater than the one behind a partner's shard hash (R308): no function computes it
from the hash alone. Free, log 2. -/
opaque sumGreater : Nat → Hash → Bool

/-- The event code of the record that names a background activity fallen behind or back in time (R25 gives none). Free, log 2. -/
opaque lateYew : Nat

/-- The code of the notice beside it (R25 gives none). Free, log 2. -/
opaque lateNotice : Nat

/-- The lane's minimum eye margin in % UI (R93 gives none). Free, log 2. -/
opaque eyeMinimum : Nat

/-- The airtime in ns of a Hedgerow frame the tables of the manual do not list: plan, modulation code, usable groups, bytes.
Free, log 2. -/
opaque hrAirtime : Nat → Nat → Nat → Nat → Nat

/-- |x|² of the samples a link channel has output since it was last looked at, oldest first: no row brings samples. Free, log 36. -/
opaque channelSamples : Nat → List Nat

/-- The mean of |x|² that stands for a noise floor of so many 0.1 dB, in 2^-16 of the unit of a sample's |x|². Free, log 36. -/
opaque floorPower : Int → Nat

/-- The airtime in ns of a Bramble frame in an OFDM mode, whose data rate depends on the MCS: mode, PSDU octets. Free, log 2. -/
opaque brOfdmAirtime : Nat → Nat → Nat

/-- The system title the device uses as a DLMS client (the manual names none), by SERIAL. Free, log 2. -/
opaque clientTitle : DWord → Bytes

/-- The DLMS image_identifier a meter image's 128 B header carries (R339 gives no layout). Free, log 2. -/
opaque imageIdentifier : Bytes → Bytes

/-- The request that pushes a plan's record to a meter (R417 gives no encoding): invoke-id, content bit, record. Free, log 2. -/
opaque calendarPush : Bytes → Nat → Bytes → Bytes

/-- The code of the security class that records a frame not accepted (R31 gives none), by reason. Free, log 2. -/
opaque rejectYew : Nat → Nat

/-- What a meter event's entry says of a clock adjustment: old and new time, TAI s (R190 gives no layout). Free, log 2. -/
opaque clockShift : Bytes → Option (Nat × Nat)

/-- The event data of a meter event, from its entry (R162 names the field only). Free, log 2. -/
opaque eventData : Bytes → Bytes

/-- The value field of a CLOCK column exported in COMMISSIONING (R151, R154 state none). Free, log 2. -/
opaque clockValue : Bytes → Int

/-- The device's PTP clockIdentity (R228 names none), by SERIAL. Free, log 2. -/
opaque clockIdentity : DWord → DWord

/-- The announce interval in ns that counts before any Announce has stated one (R229). Free, log 2. -/
opaque announceInterval : Nat

/-- The content of the boot strip the device writes itself (R373 gives codes, no glyphs): code, byte index. Free, log 2. -/
opaque stripGlyph : Nat → Nat → Byte

/-- The spec states no result here: an open value indexed by a counter of the state. Free, log 2. -/
opaque openNat : Nat → Nat

/-- An open signed value indexed by a counter of the state. Free, log 2. -/
opaque openInt : Nat → Int

/-- The build of the image slot A holds from manufacture. Free, log 2. -/
opaque ildinBuild : BitVec 16

/-- ILDIN_REL of the image slot A holds from manufacture: release 4.2 in bits 15..0, its build in bits 31..16 (R1, table Identity
and capability registers). -/
def ildinRel42 : Word := ildinBuild ++ 0x0402#16

/-- Items a crossing FIFO holds (R13 gives no depth). Free, log 2. -/
opaque crossingDepth : Nat

end Sys2Proof.Config
end

