-- ==== Sys2Proof/Machine/State.lean ====
section
/-!
DEFINITION. The state of one KH-M20 as plain data: every register, queue, table and mode of the manual, grouped by
chapter, and the queue of commands that wait. Each field names its rule (R<n>) and its chapter file of spec/ (two
digits); `DC` marks a reset value the manual does not give (assumption log 3), `MODEL` a field of the model's own
(assumption log 5). The default of a field is its value in `State.reset`.
Time values of a base are counted in units of 10^-12 ns, so that a rate held to 0.001 ppb is exact over one 4 ns cycle
(R225); a stamp is a count of nanoseconds unless a field says otherwise.
-/

namespace Sys2Proof.Machine

/-- Why a step stops with a fault. No meaning of this model raises one: the manual names no operation whose outcome is
undefined, and every command it lists either has its effect, is turned away with a status, or is ignored. -/
inductive Fault where
  /-- Raised by nobody; kept because the interface asks for the type. Safe. -/
  | never
  deriving DecidableEq, Repr

/-- Why a step is refused. -/
inductive Refusal where
  /-- An arm of `exec` that has no meaning yet raises it, with the mnemonic of its row. Safe. -/
  | notModelled (mnemonic : String)
  deriving DecidableEq, Repr

/-! ### Power, reset and start-up (17, 19, 21) -/

/-- Where the device stands between power-on and full service. -/
inductive Phase where
  /-- Supplies absent, or the logic die stopped by a rail out of range (R423). -/
  | off
  /-- Supplies up and RESET_N low (R426). -/
  | inReset
  /-- Started: some or all of the start-up sequence has passed (R378). -/
  | running
  /-- The hold-up flush runs (R41, R42). -/
  | flushing
  /-- The flush seal is programmed; the device idles (R43). -/
  | flushed
  /-- Held in internal reset after a thermal trip (R428). -/
  | thermalHold
  /-- ROM recovery with the code E1 to E4 of the boot strip (R387). -/
  | romRecovery (code : Nat)
  deriving DecidableEq, Repr

/-- The fitting of the board, its start-up state, and what the pins say. -/
structure Dev where
  /-- [R378 19] phase of the device. -/
  phase : Phase := .inReset
  /-- [R22 R263 01 13] the fitting of the board and the fuses of the part. DC -/
  fit : Fitting := {}
  /-- [R2 00] role: true core, false field; DEV_STATUS ROLE. -/
  core : Bool := false
  /-- [R382 19] DEV_STATUS MBOX_READY. -/
  mboxReady : Bool := false
  /-- [R382 19] DEV_STATUS DEV_READY. -/
  devReady : Bool := false
  /-- [R276 13] DEV_STATUS REBUILD. -/
  rebuild : Bool := false
  /-- [R378 19] boot reached its last step but marks and replay still wait for TB3 (R187). -/
  waitTb3 : Bool := false
  /-- [R22 01] DEV_STATUS DRAM_SHORT. -/
  dramShort : Bool := false
  /-- [R39 R53 02] the latch of DEV_STATUS TAKING_REFUSED for the shared limit. -/
  refusedShared : Bool := false
  /-- [R53 02] taking refused for the backlog limit. -/
  refusedBacklog : Bool := false
  /-- [R284 13] taking refused because the spare pool is exhausted. -/
  refusedSpare : Bool := false
  /-- [R383 19] intake replay has ended. -/
  replayed : Bool := false
  /-- [R288 R351 13 17] acceptance stopped by a failed DRAM device or a failed wake, until reset. -/
  acceptStopped : Bool := false
  /-- [R432 03] the highest step of the start-up sequence reached, 0 to 13; registers set later read zero. -/
  bootStep : Nat := 0
  /-- [R20 01] DEVICE_ID, 0 unassigned. -/
  deviceId : Word := 0#32
  /-- [R384 19] RESET_CAUSE CAUSE. -/
  cause : Nat := 0
  /-- [R384 19] RESET_CAUSE FLUSH_FOUND. -/
  flushFound : Bool := false
  /-- [R384 19] RESET_CAUSE FLUSH_INCOMPLETE. -/
  flushIncomplete : Bool := false
  /-- [R384 19] RESET_CAUSE AO_RAN. -/
  aoRan : Bool := false
  /-- [R382 R384 19] codes of the hold reasons in force, rising. -/
  held : List Nat := []
  /-- [R384 19] RESET_CAUSE READY_TIME, in 10 ms units. -/
  readyTime : Nat := 0
  /-- [R426 21] a RESET_N assertion deferred until the flush seal. -/
  deferredReset : Bool := false
  /-- [R428 21] the running flush was started by a thermal trip. -/
  thermalTrip : Bool := false
  /-- [R428 21] a thermal trip has not been told yet. -/
  tripReport : Bool := false
  /-- [R428 21] the thermal hold of the quads at operating point 2 or slower. -/
  thermalHold : Bool := false
  /-- [R428 21] junction temperature, signed 0.5 °C. DC -/
  junction : Int := 50
  /-- [R261 12] CAPS DEBUG_UNLOCKED. -/
  debugUnlocked : Bool := false
  /-- [R387 19] consecutive failures of Ildin to reach MBOX_READY. -/
  ildinFails : Nat := 0
  /-- [R23 01] background share in force, %. -/
  share : Nat := 10
  /-- [R398 20] background share used per quad over the last 1 s window, %. -/
  shareUsed : List Nat := [0, 0, 0, 0]
  /-- [R25 01] late activities, bit n for row n of Background activities. -/
  late : BitVec 32 := 0#32
  /-- [R398 20] taken, accepted, UNROUTED, DUPLICATE, NOT_NEWER, AUTH_FAILED, NO_KEY, takes refused, since reset. -/
  counters : List Nat := [0, 0, 0, 0, 0, 0, 0, 0]
  /-- [R435 02] frames refused since the previous notice 0x0201. -/
  refusedSinceNotice : Nat := 0
  /-- [R1 03] ILDIN_REL of the running image. DC -/
  ildinRel : Word := Config.ildinRel42
  /-- [R376 R387 19] an internal reset the device itself has asked for, by its CAUSE. -/
  bootDue : Option Nat := none
  /-- [R421 21] set point of VDD_CORE last requested over AVSBus, in mV; 750, which the regulator delivers until then. -/
  avs : Nat := 750
  deriving DecidableEq, Repr

/-! ### Taken and accepted work (02) -/

/-- One entry of the intake buffer (R433). -/
structure Intake where
  /-- [R433 02] take sequence. -/
  seq : Nat
  /-- [R433 02] take timestamp, TB2 in units of 10^-12 ns. -/
  stamp : Nat
  /-- [R433 02] the frame as taken. -/
  frame : Bytes
  /-- [R433 02] origin: 0 Hedgerow, 1 Bramble, 2 host ingest, 3 Ethernet ingest. -/
  origin : Nat
  /-- [R433 02] link channel, 0xFF for ingest. -/
  lc : Nat
  /-- [R433 02] sample port, 0xFF for ingest. -/
  port : Nat
  /-- [R433 02] RSSI in 0.1 dB. -/
  rssi : Int
  /-- [R161 07] the shard's mode when the frame was taken: true transparent. -/
  transparent : Bool
  deriving DecidableEq, Repr

/-- The power-fail protected SRAM beside the Coppice write buffer, and the hold-up budget (R37 to R45). -/
structure Protect where
  /-- [R433 02] intake buffer, in taken order. -/
  intake : List Intake := []
  /-- [R433 02] the last take sequence used. -/
  takeSeq : Nat := 0
  /-- [R40 02] hold-up budget in ms. -/
  budget : Nat := 20
  /-- [R40 02] LOWERING: the ceiling the dirty bytes must still fall under, 0 for none. -/
  lowering : Bool := false
  /-- [R398 R414 20] takes refused since reset. -/
  refused : Nat := 0
  /-- [R44 02] a flush was written and not yet looked for. -/
  flushWritten : Bool := false
  /-- [R44 02] its seal is present and correct. -/
  sealOk : Bool := false
  /-- [R42 02] the flush seal programmed last: write sequence of step 1's first page, page counts of steps 1 to 5, CRC-32C. -/
  flushSeal : Bytes := []
  /-- [R41 02] intake entries the interrupted flush had made durable, when its seal is missing. -/
  flushIntake : Nat := 0
  /-- [R434 19] protected SRAM holds contents kept across the reset. -/
  kept : Bool := false
  /-- [R187 08] boundary marks created and not yet journaled. -/
  marksPending : Nat := 0
  /-- [R265 R434 13 19] which of the two flush blocks of each die holds the flush written last. -/
  flushBlock : Bool := false
  /-- [R434 19] the plan of the next flush in the seal page: the dies working when step 7 last rewrote it. -/
  planDies : List Nat := []
  /-- [R434 19] the plan of the next flush in the seal page: the next write sequence then. -/
  planSeq : Nat := 0
  deriving DecidableEq, Repr

/-! ### Host interface (03) -/

/-- A completion as the device writes it (table Completion entry), without its phase bit. -/
structure Completion where
  /-- [R48 03] tag. -/
  tag : Word
  /-- [R65 03] status code. -/
  status : Nat
  /-- [R393 20] TOKEN bit. -/
  token : Bool
  /-- [R393 20] result length. -/
  len : Nat
  /-- [R393 20] inline result, at most 20 B. -/
  result : Bytes
  deriving DecidableEq, Repr

/-- One of the 16 ring sets (table Ring control block). -/
structure Ring where
  /-- [R62 03] SQ_BASE. -/
  sqBase : DWord := 0#64
  /-- [R62 03] SQ_TAIL. -/
  sqTail : BitVec 12 := 0#12
  /-- [R62 03] SQ_HEAD. -/
  sqHead : BitVec 12 := 0#12
  /-- [R62 03] descriptors fetched and not completed. -/
  outstanding : Nat := 0
  /-- [R63 03] CQ_BASE. -/
  cqBase : DWord := 0#64
  /-- [R63 R64 03] CQ_CTRL. -/
  cqCtrl : Word := 0#32
  /-- [R63 03] CQ_HEAD. -/
  cqHead : BitVec 12 := 0#12
  /-- [R63 03] index of the next completion entry the device writes. -/
  cqTail : BitVec 12 := 0#12
  /-- [R63 03] phase of the present pass; 1 on the first. -/
  cqPhase : Bool := true
  /-- [R63 03] completions held while the ring is full or disabled, in finishing order. -/
  heldCq : List (Completion × Bool) := []
  /-- [R73 03] completion entries written and not yet signalled. -/
  cqUnsignalled : Nat := 0
  /-- [R73 03] TB6 in ns at which the coalescing time passes. -/
  cqDeadline : Option Nat := none
  /-- [R75 03] ER_BASE. -/
  erBase : DWord := 0#64
  /-- [R75 03] ER_SIZE. -/
  erSize : Word := 0#32
  /-- [R75 03] credit in bytes. -/
  erCredit : Nat := 0
  /-- [R52 02] ER_CURSOR, durable. DC -/
  erCursor : DWord := 0#64
  /-- [R74 03] ER_PRODUCER. -/
  erProducer : Word := 0#32
  /-- [R74 03] ER_CTRL. -/
  erCtrl : Word := 0#32
  /-- [R50 02] ER_LAST_SEQ, durable. DC -/
  erLastSeq : DWord := 0#64
  /-- [R52 R75 02 03] highest export sequence already written to this ring since it was last enabled. -/
  erWritten : Nat := 0
  /-- [R49 02] highest export sequence ever written to host memory; a record at or below it is RESENT. DC -/
  erEver : Nat := 0
  /-- [R73 03] export records written and not yet signalled. -/
  erUnsignalled : Nat := 0
  /-- [R73 03] TB6 in ns at which the export coalescing time passes. -/
  erDeadline : Option Nat := none
  /-- [R64 03] RING_CTRL. -/
  ringCtrl : Word := 0#32
  /-- [R59 03] lower words last written of the ring's 64-bit registers, by offset in the block. -/
  low : Tbl Word := []
  deriving DecidableEq, Repr

/-- A recorded command of a session (R47, R48). -/
structure CmdRecord where
  /-- [R48 02] the tag. -/
  tag : Word
  /-- [R48 02] its completion; none while the original runs. -/
  completion : Option Completion
  deriving DecidableEq, Repr

/-- A command whose completion comes later (R48, R304, R416). -/
structure Running where
  /-- [R48 02] its session. -/
  session : Word
  /-- [R48 02] its tag. -/
  tag : Word
  /-- [R48 02] rings that hold a descriptor with the tag, with the NO_IRQ flag of each. -/
  rings : List (Nat × Bool)
  /-- [R396 20] the objects it holds: kind and number. -/
  objects : List (Nat × Nat)
  deriving DecidableEq, Repr

/-- A command fetched that has not started (R62, R396). -/
structure Waiting where
  /-- [R62 03] its ring. -/
  ring : Nat
  /-- [R396 20] the objects it changes. -/
  objects : List (Nat × Nat)
  /-- [R62 03] the command. -/
  cmd : Instr
  /-- [R57 03] the HOST island has been reset since it was fetched: it answers no ring. -/
  quiet : Bool := false
  deriving DecidableEq, Repr

/-- An open session (R67). -/
structure Session where
  /-- [R67 03] session ID. -/
  id : Word
  /-- [R67 03] role: 1 OPERATOR, 2 SECURITY, 3 MAINTENANCE. -/
  role : Nat
  /-- [R399 20] client nonce of its open. -/
  clientNonce : Bytes
  /-- [R399 20] the completion of its open. -/
  opened : Completion
  /-- [R48 02] highest tag seen; none before the first. -/
  highest : Option Word
  /-- [R48 02] recorded commands in the window. -/
  records : List CmdRecord
  /-- [R69 03] next nonce. -/
  nextNonce : DWord
  /-- [R260 12] Not after of the token, TAI seconds; 0 none. -/
  notAfter : Nat
  /-- [R398 20] the expiry its open reported, TAI seconds; 0 none. -/
  expiry : Nat
  /-- [R67 03] TB7 in ns at which it expires; none for OPERATOR. -/
  expiryTb7 : Option Nat
  /-- [R68 03] time of last use, TB2 in s. -/
  lastUse : Nat
  /-- [R68 03] order of last use (a count). -/
  useOrder : Nat
  deriving DecidableEq, Repr

/-- An unreleased result token (R71, R72). -/
structure Token where
  /-- [R71 03] token value. -/
  id : Word
  /-- [R71 03] final status. -/
  status : Nat
  /-- [R71 03] result bytes. -/
  result : Bytes
  /-- [R71 03] TB6 in ns from which the result is ready; until then the window shows PENDING. MODEL -/
  readyAt : Nat := 0
  deriving DecidableEq, Repr

/-- One notice (table Notice entry). -/
structure Notice where
  /-- [R76 03] code. -/
  code : Nat
  /-- [R76 03] priority 0 to 3. -/
  prio : Nat
  /-- [R76 03] sequence, modulo 2^32. -/
  seq : Nat
  /-- [R76 03] TB2, in units of 10^-12 ns. -/
  stamp : Nat
  /-- [R76 03] source. -/
  source : Nat
  /-- [R76 03] data, 8 B. -/
  data : Bytes
  deriving DecidableEq, Repr

/-- One MSI-X table entry (R73). -/
structure MsixEntry where
  /-- [R73 03] message address. -/
  addr : DWord := 0#64
  /-- [R73 03] message data. -/
  data : Word := 0#32
  /-- [R73 03] vector mask; set at reset as the PCIe standard has it. PRESUMED log 6 -/
  masked : Bool := true
  deriving DecidableEq, Repr

/-- What the device emits to the outside, in order: PCIe writes, read values, transmissions, Ethernet frames, strip bursts. -/
inductive Out where
  /-- A completion entry written to a completion ring: ring, index, phase, entry (R63). -/
  | completion (ring : Nat) (index : Nat) (phase : Bool) (c : Completion)
  /-- An export record or filler written at an offset of an export ring (R74). -/
  | export_ (ring : Nat) (offset : Nat) (bytes : Bytes)
  /-- An MSI-X message: vector, address, data (R73). -/
  | msix (vector : Nat) (addr : DWord) (data : Word)
  /-- A block written to host memory (MIGRATE_SNAPSHOT, R413). -/
  | hostWrite (addr : DWord) (bytes : Bytes)
  /-- The value a register read returns, in bytes. -/
  | read (bytes : Bytes)
  /-- A transmission whose samples start on a lane: port, link channel, launch instant, level below full scale in 0.25 dB,
  frame (R94, R95). -/
  | tx (port : Nat) (lc : Nat) (launch : Nat) (level : Nat) (frame : Bytes)
  /-- A transmission cut short on a link channel (R90). -/
  | txAbort (lc : Nat)
  /-- An Ethernet frame sent on a port, 0 ETH-A, 1 ETH-B: destination address, EtherType and what follows the header; the
  manual gives the device no address of its own (R228, R291, R296). -/
  | eth (port : Nat) (dst : Bytes) (etherType : Nat) (body : Bytes)
  /-- A boot strip burst, bit string in sending order (R373). -/
  | strip (bits : List Bool)
  /-- A set point of VDD_CORE requested of the regulator over AVSBus, in mV (R421). -/
  | avs (mv : Nat)
  deriving DecidableEq, Repr

/-- HOST island state beside the rings (03). -/
structure HostIf where
  /-- [R62 03] ring sets that differ from their reset state, by number. -/
  rings : Tbl Ring := []
  /-- [R67 02] open sessions. -/
  sessions : List Session := []
  /-- [R68 03] count that orders session uses. MODEL -/
  useCount : Nat := 0
  /-- [R62 R396 03 20] commands fetched that wait for an earlier one, in fetch order. MODEL log 9 -/
  waiting : List Waiting := []
  /-- [R57 03] the command being started was fetched before a reset of the HOST island. MODEL log 9 -/
  quiet : Bool := false
  /-- [R62 R396 03 20] commands that run and complete later. -/
  running : List Running := []
  /-- [R71 03] unreleased tokens. -/
  tokens : List Token := []
  /-- [R71 03] tokens handed out so far (which number comes next is open). MODEL -/
  tokenCount : Nat := 0
  /-- [R71 03] RESULT_SELECT. -/
  select : Word := 0#32
  /-- [R71 03] RESULT_PAGE. -/
  page : BitVec 16 := 0#16
  /-- [R73 03] MSI-X enable of the PCIe capability. -/
  msixEnable : Bool := false
  /-- [R73 03] MSI-X function mask. -/
  msixMask : Bool := false
  /-- [R73 03] MSI-X table entries that differ from their reset state. -/
  msix : Tbl MsixEntry := []
  /-- [R73 03] pending bit array. -/
  pba : DWord := 0#64
  /-- [R76 03] Privet, oldest first. -/
  notices : List Notice := []
  /-- [R76 03] notices posted so far. -/
  noticeSeq : Nat := 0
  /-- [R77 03] the pop latch, 32 B; empty stands for all zero. -/
  latch : Bytes := []
  /-- [R59 R77 03] the pops that stall, the longest first: TB6 in ns at which each began, and the bytes of word 0 it enables, none
  for a read of the whole entry. -/
  stalled : List (Nat × Option (BitVec 4)) := []
  /-- [R77 03] NOTICE_STALL. -/
  stallLimit : Word := 2000#32
  /-- [R76 03] NOTICE_LOST0 to 3. -/
  lost : List Nat := [0, 0, 0, 0]
  /-- [R76 03] NOTICE_IRQ. -/
  noticeIrq : Word := 1#32
  /-- [R65 03] BAR2, 256 MiB of payload memory; an unlisted byte reads as zero. DC log 7 -/
  bar2 : List Host.Cell := []
  /-- [R288 13] lines of 128 B of BAR2 lost to an uncorrectable error and not written since. -/
  badLines : List Nat := []
  /-- [R58 03] what the device emitted, latest first. MODEL log 5 -/
  out : List Out := []
  deriving DecidableEq, Repr

/-! ### Sample ports and link channels (04) -/

/-- State of a sample port (table Port states). -/
inductive PortState where
  | off | training | aligned | up | down
  deriving DecidableEq, Repr

/-- A frame waiting for its launch, or being sent (R94, R95, R240). -/
structure Launch where
  /-- [R95 04] link channel. -/
  lc : Nat
  /-- [R95 04] launch instant T at the antenna or coupler, ns of TB4 (Hedgerow) or TB5 (Bramble). -/
  launch : Nat
  /-- [R95 04] airtime in ns. -/
  airtime : Nat
  /-- [R95 04] the frame. -/
  frame : Bytes
  /-- [R90 04] it is the link acknowledgement of a frame taken. -/
  isAck : Bool
  /-- [R90 05 06] length of its symbols in ns, as a quotient; 0 over 1 where the manual states none. -/
  symbol : Nat × Nat
  deriving DecidableEq, Repr

/-- One sample port (R81 to R96). -/
structure Port where
  /-- [R81 04] format code, 0xFF not configured; durable (R377). -/
  format : Byte := 0xFF#8
  /-- [R85 04] flags of the port configuration record. DC -/
  flags : Byte := 0#8
  /-- [R85 04] RF_REF in Hz. DC -/
  rfRef : DWord := 0#64
  /-- [R85 04] RX latency in ns. DC -/
  rxLat : Word := 0#32
  /-- [R85 04] TX latency in ns. DC -/
  txLat : Word := 0#32
  /-- [R83 04] K. DC -/
  k : BitVec 16 := 0#16
  /-- [R84 04] RBD. DC -/
  rbd : BitVec 16 := 0#16
  /-- [R85 04] state. -/
  state : PortState := .off
  /-- [R84 04] SYSREF_SLIP. -/
  sysrefSlip : Nat := 0
  /-- [R85 04] DOWN cycles. -/
  downCycles : Nat := 0
  /-- [R94 04] saturation events. -/
  saturation : Nat := 0
  /-- [R93 04] image rejection, 0.1 dB. DC -/
  imageRejection : Nat := 0
  /-- [R93 04] eye margin, % UI. DC -/
  eyeMargin : Nat := 0
  /-- [R85 04] TB6 in ns at which a DOWN port returns to TRAINING. -/
  retrainAt : Nat := 0
  /-- [R85 04] the port was UP before its last DOWN. -/
  wasDown : Bool := false
  /-- [R93 04] coefficients in force: DC offset of I and Q, I/Q gain and phase. DC -/
  coeffs : Int × Int × Int × Int := (0, 0, 0, 0)
  /-- [R93 04] coefficients last measured. DC -/
  measured : Int × Int × Int × Int := (0, 0, 0, 0)
  /-- [R93 04] coefficients measured and not yet swapped in. -/
  swapDue : Bool := false
  /-- [R93 04] consecutive searches for a quiet block boundary that found none. -/
  swapMisses : Nat := 0
  /-- [R93 04] TB6 in ns of the last calibration. -/
  calibrated : Nat := 0
  /-- [R240 11] launches queued, in time order, at most 32. -/
  queue : List Launch := []
  /-- [R94 04] transmissions in progress, at most 16. -/
  active : List Launch := []
  /-- [R96 04] end of the erasure span of a HALF_DUPLEX port, ns. -/
  eraseUntil : Nat := 0
  deriving DecidableEq, Repr

/-- The configuration fields of a link channel: BIND, MAC, BLANK, TX_BACKOFF and the two banks of MAC parameters. -/
structure ChanCfg where
  /-- [R87 04] BIND. -/
  bind : Word := 0#32
  /-- [R87 04] MAC. -/
  mac : Word := 0#32
  /-- [R91 04] BLANK. -/
  blank : Word := 0x00010A40#32
  /-- [R94 04] TX_BACKOFF. -/
  txBackoff : Word := 0#32
  /-- [R100 05] HR_NET. -/
  hrNet : Word := 0x00080000#32
  /-- [R102 05] HR_BEACON. -/
  hrBeacon : Word := 0x00000004#32
  /-- [R102 05] HR_CFP. -/
  hrCfp : Word := 0x0000640C#32
  /-- [R105 05] HR_CSMA. -/
  hrCsma : Word := 0x00004583#32
  /-- [R112 05] HR_TONEMAP. -/
  hrTonemap : Word := 0x31830258#32
  /-- [R110 05] HR_BLANK_DROP. -/
  hrBlankDrop : Word := 0x00000040#32
  /-- [R116 05] HR_ROUTE. -/
  hrRoute : Word := 0x00000A3C#32
  /-- [R123 06] BR_NET. -/
  brNet : Word := 0x0A000000#32
  /-- [R124 06] BR_RDV. -/
  brRdv : Word := 0x00804000#32
  /-- [R132 06] BR_DWELL. -/
  brDwell : Word := 0x00C80190#32
  /-- [R131 06] BR_TIMING. -/
  brTiming : Word := 0x40081404#32
  /-- [R139 06] BR_WATCH. -/
  brWatch : Word := 0x03E80014#32
  /-- [R138 06] BR_QUALITY. -/
  brQuality : Word := 0x00001440#32
  deriving DecidableEq, Repr

/-- Impulse blanking of a link channel (R91). -/
structure Blanker where
  /-- [R91 04] ms, the running mean of |x|², in 2^-16 of its unit. DC -/
  ms : Nat := 0
  /-- [R91 04] |x|² of the last 8 samples, latest first, and whether each is erased. -/
  line : List (Nat × Bool) := []
  /-- [R91 04] how many of the samples to come a crossing already erases. -/
  guard : Nat := 0
  deriving DecidableEq, Repr

/-- One link channel block (R78 to R97, R120, R141). -/
structure Chan where
  /-- [R80 03] shadow copy. -/
  shadow : ChanCfg := {}
  /-- [R80 03] configuration in force. -/
  act : ChanCfg := {}
  /-- [R79 03] GROUP_MASK. -/
  groupMask : BitVec 16 := 0#16
  /-- [R89 04] APPLY_STATUS REFUSED. -/
  refused : Bool := false
  /-- [R89 04] APPLY_STATUS REASON. -/
  reason : Nat := 0
  /-- [R89 04] APPLY_STATUS APPLY_COUNT. -/
  applyCount : BitVec 16 := 0#16
  /-- [R97 R120 R141 04 05 06] statistics words 0x80 to 0xFC, by offset; an unlisted one is zero. -/
  stats : Tbl Word := []
  /-- [R91 04] blanking: the running mean ms, the samples of the look-ahead and how many more are erased. -/
  blanker : Blanker := {}
  /-- [R85 R90 04] TB6 ns since which the channel produces samples without a break: its APPLY, or its port's UP. -/
  since : Nat := 0
  deriving DecidableEq, Repr

/-- The LANE island's channels and ports. -/
structure Lane where
  /-- [R81 04] ports that differ from their reset state. -/
  ports : Tbl Port := []
  /-- [R58 03] link channels that differ from their reset state. -/
  chans : Tbl Chan := []
  /-- [R90 04] channels an APPLY waits to take effect on, with TB6 of the write; at most 1 ms. -/
  applyPending : List (Nat × List Nat) := []
  /-- [R335 16] ports whose lane microcode swap is due. -/
  microcodeDue : List Nat := []
  /-- [R139 06] lane groups in a WATCH capture burst. -/
  watchBurst : List Nat := []
  deriving DecidableEq, Repr

/-! ### Hedgerow (05) -/

/-- A tone map: modulation code, group bits, mean SNR (0.25 dB, offset -10 dB), gain reduction and ID. -/
structure ToneMap where
  /-- [R111 05] modulation code. -/
  modn : Nat := 0
  /-- [R111 05] group bits. -/
  groups : BitVec 24 := 0xFFFFFF#24
  /-- [R111 05] mean SNR as coded. -/
  snr : Nat := 0
  /-- [R111 05] transmit gain reduction in dB. -/
  gain : Nat := 0
  /-- [R111 05] tone map ID, 0 for ROBO. -/
  id : Nat := 0
  /-- [R112 05] TB6 in ns at which it was issued. -/
  issued : Nat := 0
  deriving DecidableEq, Repr

/-- A sequence window (R109): the highest sequence taken and the map of the 64 at and below it. -/
structure SeqWin where
  /-- [R109 05] highest sequence taken. -/
  h : BitVec 16
  /-- [R109 05] bit d set when h - d was taken. -/
  bits : BitVec 64
  deriving DecidableEq, Repr

/-- A Hedgerow neighbour (R100, R109 to R113). -/
structure Neigh where
  /-- [R109 05] window; none before its first frame. -/
  win : Option SeqWin := none
  /-- [R109 05] per-channel end of the last copy taken: channel, sequence, end in ns. -/
  lastCopy : Option (Nat × BitVec 16 × Nat) := none
  /-- [R100 05] link channel on which its last frame was taken. -/
  lc : Nat := 0
  /-- [R100 05] last SNR per channel, 0.25 dB. -/
  snrBy : List (Nat × Int) := []
  /-- [R111 05] the map this device issued to it. -/
  rx : ToneMap := {}
  /-- [R113 05] the map it issued to this device; none means ROBO. -/
  tx : Option ToneMap := none
  /-- [R113 R114 05] the map of a TONE_MAP_RESP taken whose ACK has not been sent. -/
  txNext : Option ToneMap := none
  /-- [R112 05] consecutive frames failing FCS or blanking. -/
  fails : Nat := 0
  /-- [R112 R114 05] a refresh is due: the next frame to it carries TM_REQ and goes in ROBO. -/
  refresh : Bool := false
  /-- [R106 05] next sequence the device sends to it. -/
  txSeq : BitVec 16 := 0#16
  /-- [R118 05] level. -/
  level : Nat := 1
  /-- [R118 05] parent address; none when the parent is the device. -/
  parent : Option Nat := none
  /-- [R117 05] it relays. -/
  relay : Bool := false
  /-- [R115 05] TB6 in ns of its last report. -/
  reported : Nat := 0
  /-- [R106 05] capability word of its JOIN_REQ; none before one. -/
  caps : Option Nat := none
  /-- [R114 05] TB4 ns at which the ACK of the TONE_MAP_RESP that ends a refresh ends; ROBO until then. -/
  roboUntil : Nat := 0
  deriving DecidableEq, Repr

/-- A device frame to a neighbour that is not yet acknowledged (R105, R114). -/
structure HrTx where
  /-- [R105 05] hop destination. -/
  dest : Nat
  /-- [R105 05] frame type of Frame control. -/
  type : Nat
  /-- [R106 05] sequence. -/
  seq : BitVec 16
  /-- [R106 05] end address. -/
  endAddr : Nat
  /-- [R106 05] payload. -/
  payload : Bytes
  /-- [R105 05] attempts made so far. -/
  attempts : Nat := 0
  /-- [R105 05] BE of the running CSMA attempt. -/
  be : Nat := 0
  /-- [R105 05] assessments made in the running attempt. -/
  assessed : Nat := 0
  /-- [R105 05] sent and waiting for its acknowledgement. -/
  sent : Bool := false
  /-- [R416 20] downlink command it belongs to, by its index of Downlink; none for MAC frames. -/
  owner : Option Nat := none
  /-- [R106 05] relay addresses of the route extension. -/
  via : List Nat := []
  /-- [R341 16] broadcast: sent once on every channel, never acknowledged. -/
  bcast : Bool := false
  /-- [R105 05] TB4 ns at which the wait for its acknowledgement passes. -/
  wait : Nat := 0
  /-- [R105 05] TB4 ns at which its running backoff began. -/
  since : Nat := 0
  /-- [R105 05] the draw of its running backoff. MODEL -/
  draw : Nat := 0
  /-- [R100 R120 05] channel on which it left last, or is to answer. -/
  lc : Option Nat := none
  /-- [R99 R114 05] its next transmission is a retry under R114: ROBO, with TM_REQ. -/
  robo : Bool := false
  deriving DecidableEq, Repr

/-- A grant of contention-free slots (R104). -/
structure SlotGrant where
  /-- [R104 05] address of the meter read. -/
  meter : Nat
  /-- [R104 R106 05] first slot. -/
  first : Nat
  /-- [R104 05] relays that forward, the meter's parent first: one slot each after the meter's. -/
  path : List Nat
  /-- [R106 05] period in superframes. -/
  period : Nat
  /-- [R106 05] first beacon number. -/
  from_ : Nat
  /-- [R106 05] its cancellation is on its way. -/
  cancelled : Bool := false
  deriving DecidableEq, Repr

/-- A meter's place in the route tree (R116). -/
structure Route where
  /-- [R116 05] parent address; none when it is the device. -/
  parent : Option Nat
  /-- [R116 05] level. -/
  level : Nat
  /-- [R116 05] relay. -/
  relay : Bool
  deriving DecidableEq, Repr

/-- A Hedgerow network: the channels that share a NETWORK_ID (R100). -/
structure HrNet where
  /-- [R106 05] beacon number of the next beacon. -/
  beacon : Nat := 0
  /-- [R102 05] TB4 in ns of the last beacon sent. -/
  lastBeacon : Nat := 0
  /-- [R118 05] neighbours by address. -/
  neigh : Tbl Neigh := []
  /-- [R106 R115 05] reported links: from, to, mean SNR in 0.25 dB with offset -10 dB, beacons heard of the last 16. -/
  links : List (Nat × Nat × Nat × Nat) := []
  /-- [R116 05] a report has changed since the last recomputation. -/
  changed : Bool := false
  /-- [R116 05] TB6 in ns of the last recomputation. -/
  recomputed : Nat := 0
  /-- [R117 05] route version in force. -/
  version : BitVec 16 := 0#16
  /-- [R116 05] routes in force by address. -/
  routes : Tbl Route := []
  /-- [R117 05] routes of the new version, and the beacon number at which it takes effect. -/
  next : Option (Tbl Route × Nat) := none
  /-- [R117 05] addresses whose ROUTE frame of the new version is not acknowledged. -/
  unacked : List Nat := []
  /-- [R105 05] device frames not yet acknowledged, oldest first. -/
  tx : List HrTx := []
  /-- [R106 05] beacon number at which the version in force took effect. -/
  since : Nat := 0
  /-- [R104 05] grants of contention-free slots. -/
  grants : List SlotGrant := []
  deriving DecidableEq, Repr

/-! ### Bramble (06) -/

/-- A connection record of the links group (R404): interval, timeout, PHY mode and channel map. -/
structure BrParams where
  /-- [R128 06] interval in 250 µs units. -/
  interval : Nat := 0
  /-- [R128 06] supervision timeout in ms. -/
  timeout : Nat := 0
  /-- [R128 06] PHY mode. -/
  phy : Nat := 0
  /-- [R128 06] channel map. -/
  map : BitVec 256 := 0#256
  deriving DecidableEq, Repr

/-- State of a connection (table Connection states). -/
inductive BrState where
  | offered | connected | unanchored
  deriving DecidableEq, Repr

/-- A pending update of a connection (R137). -/
structure BrUpdate where
  /-- [R137 06] the new parameters. -/
  params : BrParams
  /-- [R137 06] instant: the event counter from which it applies. -/
  instant : Nat
  /-- [R137 06] the meter has acknowledged it. -/
  acked : Bool
  /-- [R137 06] the instant passed without an acknowledgement: both versions are tried. -/
  both : Bool
  /-- [R125 06] CHANNEL_MAP (true) or PARAM_UPDATE. -/
  isMap : Bool
  /-- [R304 14] its record is acknowledged by the partner, or needs no mirror. -/
  ready : Bool
  /-- [R131 06] times it has been sent at its present instant. -/
  attempts : Nat := 0
  /-- [R131 06] its frame is abandoned after MAX_RETRY retries. -/
  given : Bool := false
  deriving DecidableEq, Repr

/-- A Bramble connection (R127 to R137). -/
structure Conn where
  /-- [R127 06] slot. -/
  slot : Nat
  /-- [R123 06] network ID. -/
  net : Nat
  /-- [R127 06] access word. -/
  aw : Word
  /-- [R127 06] state. -/
  state : BrState
  /-- [R128 06] parameters in force. -/
  params : BrParams
  /-- [R133 06] sleep-clock accuracy, ppm. -/
  ppm : Nat
  /-- [R133 06] event n0 of the last anchor. -/
  n0 : Nat
  /-- [R133 06] anchor A0, TB5 in ns; before event 0 the instant one interval ahead of its anchor. -/
  a0 : Int
  /-- [R130 06] the exchange of its last event goes on: one of the two sides has set MORE_DATA. -/
  open_ : Bool
  /-- [R136 06] event counter of the last parameter change, durable. -/
  stored : Nat
  /-- [R135 06] TB6 in ns at which the supervision timer passes. -/
  superviseAt : Nat
  /-- [R131 06] window of the meter's frames. -/
  win : Option SeqWin
  /-- [R109 05] last copy taken: channel, sequence, end in ns. -/
  lastCopy : Option (Nat × BitVec 16 × Nat)
  /-- [R131 06] next sequence of device frames. -/
  txSeq : BitVec 16
  /-- [R123 06] link channel of the meter's last frame; none before one is heard. -/
  lc : Option Nat
  /-- [R121 06] plan its map and mode are of; 0 while its network has none. -/
  plan : Nat := 0
  /-- [R141 06] channel on which its present frame left last. -/
  sentOn : Nat := 0
  /-- [R137 06] pending update. -/
  update : Option BrUpdate
  /-- [R135 06] reason of a TERMINATE to send and, once sent, the event in which it was first sent. -/
  terminating : Option (Nat × Option Nat)
  /-- [R131 06] downlink DATA to send: owner index, payload and attempts. -/
  down : List (Nat × Bytes × Nat)
  /-- [R131 06] the device's present frame was sent in the open event. -/
  sentNow : Bool
  /-- [R341 16] parameters to restore at the end of a campaign. -/
  restore : Option BrParams
  /-- [R304 14] CONNECT_RESP that waits for the partner's acknowledgement: channel, launch instant, frame. -/
  resp : Option (Nat × Nat × Bytes)
  /-- [R130 06] the event its last first frame opened, taken or not. -/
  event : Nat := 0
  /-- [R130 06] anchor of that event, TB5 in ns. -/
  eventAt : Nat := 0
  /-- [R138 06] indices its map has lost to quality and is to have again. -/
  gone : BitVec 256 := 0#256
  /-- [R131 06] times its TERMINATE has been sent. -/
  termSent : Nat := 0
  /-- [R131 06] its TERMINATE is abandoned. -/
  termOver : Bool := false
  deriving DecidableEq, Repr

/-- Bramble state of the device. -/
structure Bramble where
  /-- [R128 06] default connection records, by network ID. -/
  defaults : Tbl BrParams := []
  /-- [R128 06] per-slot overrides, by slot. -/
  overrides : Tbl BrParams := []
  /-- [R127 06] connections, by slot. -/
  conns : Tbl Conn := []
  /-- [R134 R135 06] connections lost within their supervision timeout: access word, slot, forget instant TB6 ns, network, PHY mode. -/
  lost : List (Word × Nat × Nat × Nat × Nat) := []
  /-- [R133 06] sleep-clock accuracy of the last CONNECT_REQ heard of a slot while the partner answers. -/
  heardPpm : Tbl Nat := []
  /-- [R127 06] rendezvous number, by network. -/
  rdvNumber : Tbl Nat := []
  /-- [R127 06] TB5 second of the last RENDEZVOUS, by network. -/
  rdvSecond : Tbl Nat := []
  /-- [R132 06] transmissions charged: centre frequency in Hz, start in ns of TB5, airtime in ns. -/
  dwell : List (Nat × Nat × Nat) := []
  /-- [R138 06] removed indices: network, index, TB6 ns at which they are restored. -/
  removed : List (Nat × Nat × Nat) := []
  /-- [R138 06] frames detected in the last 10 min: network, index, TB6 ns, failed FCS. -/
  quality : List (Nat × Nat × Nat × Bool) := []
  /-- [R138 06] TB6 ns of the last quality run. -/
  qualityAt : Nat := 0
  deriving DecidableEq, Repr

/-! ### Slots, shards and tables of readings (07) -/

/-- State of a slot (table Slot hot state). -/
inductive SlotState where
  | empty | commissioning | active
  deriving DecidableEq, Repr

/-- A maximum demand entry (R165). -/
structure MaxDemand where
  /-- [R165 08] demand in W. -/
  w : Nat := 0
  /-- [R165 08] window end, TAI s. -/
  end_ : Nat := 0
  /-- [R165 08] INCOMPLETE. -/
  incomplete : Bool := false
  /-- [R165 08] PARTIAL. -/
  partial_ : Bool := false
  /-- [R165 08] SLIDING. -/
  sliding : Bool := false
  deriving DecidableEq, Repr

/-- An adjustment entry (R184): the sealed period it names and its energies by tariff * 4 + quantity. -/
structure Adjust where
  /-- [R184 08] named period. -/
  period : Nat
  /-- [R184 08] energies in Wh or varh, by t * 4 + q. -/
  e : Tbl Int := []
  deriving DecidableEq, Repr

/-- A period's books before a booking: what a cutoff that leaves the booking out goes back to (R185). -/
structure DetUndo where
  /-- [R185 08] ASN of the booking. -/
  asn : Nat
  /-- [R194 09] energies before it. -/
  e : Tbl Nat
  /-- [R182 08] maximum demands before it. -/
  maxima : Tbl MaxDemand
  /-- [R186 08] period flags before it. -/
  flags : BitVec 16
  /-- [R182 08] first ASN before it. -/
  firstAsn : Nat
  /-- [R182 08] last ASN before it. -/
  lastAsn : Nat
  /-- [R166 08] period flags it set. -/
  fl : BitVec 16
  deriving DecidableEq, Repr

/-- The billing area of a slot (R164 to R166); energies are keyed by t * 4 + q, demands by t * 2 + d. -/
structure Billing where
  /-- [R165 08] rolled index. -/
  rolled : Nat := 0
  /-- [R165 08] open period ID. -/
  period : Nat := 0
  /-- [R165 08] tariff in force. -/
  tariff : Nat := 0
  /-- [R165 08] WINDOW_OPEN. -/
  windowOpen : Bool := false
  /-- [R165 08] sliding sub-intervals filled since the last restart. -/
  filled : Nat := 0
  /-- [R166 08] period flags. -/
  flags : BitVec 16 := 0#16
  /-- [R165 08] first ASN booked into the open period, 0 none. -/
  firstAsn : Nat := 0
  /-- [R165 08] last ASN booked. -/
  lastAsn : Nat := 0
  /-- [R165 08] booked-through, TAI s. -/
  through : Nat := 0
  /-- [R165 08] start of the open window or sub-interval, TAI s. -/
  winStart : Nat := 0
  /-- [R165 08] window energy of A+ and A-, Wh. -/
  winE : Nat × Nat := (0, 0)
  /-- [R164 08] tariff totals. -/
  totals : Tbl Nat := []
  /-- [R194 09] tariff totals at the previous PERIOD_END. -/
  lastTotals : Tbl Nat := []
  /-- [R164 08] maximum demands of the open period. -/
  maxima : Tbl MaxDemand := []
  /-- [R165 08] sliding ring, latest first: A+ and A- of each sub-interval. -/
  sliding : List (Nat × Nat) := []
  /-- [R184 08] adjustment table, at most two entries. -/
  adjust : List Adjust := []
  /-- [R182 08] start of the open period, TAI s. -/
  start : Nat := 0
  /-- [R402 20] the slot has been under its tariff plan since, TAI s; 0 from the first. -/
  joined : Nat := 0
  /-- [R402 20] the plans it was under before: last instant, TAI s, and plan, oldest first. -/
  past : List (Nat × Nat) := []
  /-- [R189 08] periods for which a CLOCK_BACK record of the slot was written. -/
  told : List Nat := []
  /-- [R185 08] what the open period was before each booking of a pleached device, in booking order. -/
  undo : List DetUndo := []
  deriving DecidableEq, Repr

/-- An interval record (R156). -/
structure Interval where
  /-- [R156 07] interval end, TAI s. -/
  end_ : Nat
  /-- [R156 07] flags. -/
  flags : BitVec 16
  /-- [R156 07] A+, A-, Q+, Q-. -/
  e : List Nat
  /-- [R156 07] voltages L1, L2, L3 and neutral displacement, 0.1 V. -/
  v : List Nat
  /-- [R156 07] ASN. -/
  asn : Nat
  /-- [R156 07] meter status. -/
  status : Nat
  /-- [R156 07] method. -/
  method : Nat
  /-- [R156 07] rule bits. -/
  rules : BitVec 16
  /-- [R155 07] capture period of its layout, s. -/
  capture : Nat
  /-- [R180 08] it takes part in demand. -/
  inDemand : Bool
  deriving DecidableEq, Repr

/-- A register cache entry, laid out as the OPENED_REGISTER entry (R146). -/
structure RegEntry where
  /-- [R146 07] OBIS A to F. -/
  obis : Bytes
  /-- [R146 07] class_id. -/
  classId : Nat
  /-- [R146 07] attribute. -/
  attr : Nat
  /-- [R162 07] target. -/
  target : Nat
  /-- [R162 07] scaler, signed. -/
  scaler : Int
  /-- [R162 07] unit. -/
  unit : Nat
  /-- [R162 07] value, signed 64-bit. -/
  value : Int
  /-- [R162 07] capture time, TAI ns. -/
  time : Nat
  deriving DecidableEq, Repr

/-- The end of an interval record a slot has had, in its ring or gone from it: what R159, R160 and R180 look back at. -/
structure EndSeen where
  /-- [R156 07] interval end, TAI s. -/
  end_ : Nat
  /-- [R155 07] the record's length, s. -/
  capture : Nat
  /-- [R160 07] it was a measured record, no estimate. -/
  measured : Bool
  /-- [R190 08] it was part of a record split at a clock shift. -/
  half : Bool
  deriving DecidableEq, Repr, Inhabited

/-- The validation area of a slot (R146, R157 to R159): rule history, kept cumulative values and the shape table. -/
structure Valid where
  /-- [R154 07] kept cumulative value of a quantity (0 to 3) with the interval end it belongs to. -/
  kept : List (Nat × Nat × Int) := []
  /-- [R157 07] last register value per quantity and the sum of interval values since (CONTINUITY, ROLLBACK). -/
  lastReg : List (Nat × Int × Int) := []
  /-- [R157 07] last measured values per quantity, each with voltage L1 of its record where supplied, latest first, at most 96. -/
  recent : Tbl (List (Int × Option Int)) := []
  /-- [R160 07] the ends of the interval records the slot has had, latest first. -/
  ends : List EndSeen := []
  /-- [R159 07] shape weights by quantity: one weight per interval of the day. -/
  shape : Tbl (List Nat) := []
  /-- [R159 07] daily mean by quantity. -/
  mean : Tbl Nat := []
  /-- [R159 07] legal day of the last shape update. -/
  shapeDay : Nat := 0
  /-- [R190 08] clock adjustments the meter has told, old and new time in TAI s, latest first. -/
  shifts : List (Nat × Nat) := []
  deriving DecidableEq, Repr, Inhabited

/-- The loss and tamper area of a slot (R219). -/
structure LossSlot where
  /-- [R219 10] member of; none for 0xFFFF. -/
  member : Option Nat := none
  /-- [R219 10] phase. -/
  phase : Nat := 0
  /-- [R219 10] EXCLUDED. -/
  excluded : Bool := false
  /-- [R219 10] the standing proposal: group, phase. -/
  proposal : Option (Nat × Nat) := none
  /-- [R219 10] reference of; none for 0xFFFF. -/
  reference : Option Nat := none
  /-- [R219 10] meter-reported scores by kind. -/
  reported : List Nat := [0, 0, 0, 0]
  /-- [R219 10] inferred scores by kind. -/
  inferred : List Nat := [0, 0, 0, 0]
  /-- [R219 10] alarms, one bit per kind. -/
  alarms : BitVec 4 := 0#4
  /-- [R218 10] neutral run c. -/
  neutral : Nat := 0
  /-- [R218 10] reverse history, bit 0 the latest record. -/
  reverse : BitVec 96 := 0#96
  /-- [R220 10] topology history, latest first: best group and phase. -/
  topology : List (Nat × Nat) := []
  deriving DecidableEq, Repr

/-- One slot: the state the device holds for one meter (R146). -/
structure Slot where
  /-- [R146 07] EUI-64. -/
  eui : DWord := 0#64
  /-- [R146 07] system title. -/
  title : DWord := 0#64
  /-- [R146 07] state. -/
  state : SlotState := .empty
  /-- [R146 07] medium. -/
  medium : Nat := 0
  /-- [R146 07] security suite. -/
  suite : Nat := 0
  /-- [R146 07] key source: true imported. -/
  imported : Bool := false
  /-- [R146 07] key plan. -/
  keyPlan : Nat := 0
  /-- [R146 07] tariff plan. -/
  plan : Nat := 0
  /-- [R402 20] tariff plan to take at the next PERIOD_END. -/
  nextPlan : Option Nat := none
  /-- [R146 07] rule set. -/
  ruleSet : Nat := 0
  /-- [R146 07] capture layout. -/
  layout : Nat := 0
  /-- [R146 07] current key generation. -/
  gen : Nat := 0
  /-- [R146 07] staged generation while STAGED is set. -/
  staged : Option Nat := none
  /-- [R146 07] high-water ASN. -/
  asn : Nat := 0
  /-- [R314 14] handover ASN of a migrated slot. -/
  handover : Nat := 0
  /-- [R146 07] last acceptance, TB2. -/
  accepted : Nat := 0
  /-- [R146 07] GENERATING. -/
  generating : Bool := false
  /-- [R150 07] COUNTER_EXHAUSTED. -/
  exhausted : Bool := false
  /-- [R151 07] commissioning end, TAI s. -/
  commEnd : Nat := 0
  /-- [R146 07] NO_KEY, AUTH_FAILED, NOT_NEWER, DUPLICATE, UNCIPHERED, NOT_PARSED, FLAGGED, ESTIMATED. -/
  counters : List Nat := [0, 0, 0, 0, 0, 0, 0, 0]
  /-- [R248 12] the key blob in force and the staged one. -/
  blob : Option Bytes := none
  /-- [R249 12] the staged blob. -/
  stagedBlob : Option Bytes := none
  /-- [R149 07] the older generation, which the last promotion replaced, with its blob; none before the first. -/
  older : Option (Nat × Option Bytes) := none
  /-- [R165 08] billing area. -/
  bill : Billing := {}
  /-- [R157 07] validation area. -/
  valid : Valid := {}
  /-- [R219 10] loss and tamper area. -/
  loss : LossSlot := {}
  /-- [R146 07] register cache, least recently updated last, at most 56. -/
  cache : List RegEntry := []
  /-- [R146 07] interval ring, latest first, at most 256. -/
  ring : List Interval := []
  /-- [R305 14] highest invocation counter block reserved by either device; none before the first. -/
  icBlock : Option Nat := none
  /-- [R305 14] next invocation counter to use. -/
  icNext : Nat := 0
  deriving DecidableEq, Repr

/-- State of a shard (table Shard states). -/
inductive ShardState where
  | unheld | held | incoming | frozen | draining
  deriving DecidableEq, Repr

/-- One shard (R17 to R19, R309). -/
structure Shard where
  /-- [R309 14] state. -/
  state : ShardState := .unheld
  /-- [R19 01] last epoch recorded, 0 never placed. -/
  epoch : Nat := 0
  /-- [R15 01] owner assigned away from the default. -/
  owner : Option Nat := none
  /-- [R50 02] export ring chosen by the host. -/
  ring : Option Nat := none
  /-- [R50 02] records held back until the old ring's cursor passes this sequence: old ring, sequence. -/
  moving : Option (Nat × Nat) := none
  /-- [R161 07] transparent mode. -/
  transparent : Bool := false
  /-- [R161 07] the transparent mode has reached the shard's slots: no frame taken before it waits to be opened. -/
  stripped : Bool := false
  /-- [R161 07] EXPORT_OPENED. -/
  exportOpened : Bool := false
  /-- [R310 14] parts loaded of an INCOMING shard. -/
  parts : List Nat := []
  /-- [R314 14] epoch of the source a loaded part named. -/
  srcEpoch : Nat := 0
  /-- [R315 14] TB7 in ns at which the drain window ends. -/
  drainEnd : Nat := 0
  deriving DecidableEq, Repr

/-- A column of a capture layout (R153). -/
structure Column where
  /-- [R153 07] class_id. -/
  classId : Nat
  /-- [R153 07] OBIS A to F. -/
  obis : Bytes
  /-- [R153 07] attribute. -/
  attr : Nat
  /-- [R153 07] data index. -/
  index : Nat
  /-- [R153 07] target. -/
  target : Nat
  /-- [R153 07] scaler, signed. -/
  scaler : Int
  /-- [R153 07] unit. -/
  unit : Nat
  deriving DecidableEq, Repr

/-- A capture layout (R153). -/
structure Layout where
  /-- [R153 07] register list (true) or profile entry. -/
  isList : Bool
  /-- [R153 07] capture period, s. -/
  capture : Nat
  /-- [R153 07] columns. -/
  cols : List Column
  deriving DecidableEq, Repr

/-- A validation rule (R157). -/
structure Rule where
  /-- [R157 07] type 1 to 11. -/
  type : Nat
  /-- [R157 07] quantity, 0xFF for the type's own. -/
  qty : Nat
  /-- [R157 07] N. -/
  n : Nat
  /-- [R157 07] A, signed. -/
  a : Int
  /-- [R157 07] B, signed. -/
  b : Int
  deriving DecidableEq, Repr

/-- An export record committed and retained until the cursor passes it (R49 to R53, R162). -/
structure Rec where
  /-- [R50 02] export sequence on its ring; 0 while held back. -/
  seq : Nat
  /-- [R50 02] ring. -/
  ring : Nat
  /-- [R49 02] type. -/
  type : Nat
  /-- [R49 02] Flags byte without RESENT. -/
  flags : Byte
  /-- [R18 01] slot. -/
  slot : Nat
  /-- [R50 02] shard it belongs to, none for a record of no shard. -/
  shard : Option Nat
  /-- [R19 01] epoch. -/
  epoch : Nat
  /-- [R28 02] ASN. -/
  asn : Nat
  /-- [R162 07] timestamp, units of 10^-12 ns. -/
  stamp : Nat
  /-- [R162 07] EUI-64. -/
  eui : DWord
  /-- [R203 09] header bytes 52 to 53. -/
  local_ : BitVec 16
  /-- [R162 07] payload before padding. -/
  payload : Bytes
  deriving DecidableEq, Repr

/-- An entry of the directory (R145). -/
structure DirEntry where
  /-- [R143 07] its name: true the system title, false the EUI-64. -/
  title : Bool
  /-- [R143 07] the name's 64 bits. -/
  key : DWord
  /-- [R143 07] the slot it leads to. -/
  slot : Nat
  /-- [R145 07] the bucket it stands in. -/
  bucket : Nat
  deriving DecidableEq, Repr

/-- Meters, shards and the export store (07). -/
structure Meters where
  /-- [R146 07] slots that are not EMPTY, by slot number. -/
  slots : Tbl Slot := []
  /-- [R145 07] the directory's entries: buckets of eight. -/
  dir : List DirEntry := []
  /-- [R244 12] the engines' hash registers: the directory secret, as a number. -/
  hashKey : Nat := 0
  /-- [R309 14] shards that differ from their reset state. -/
  shards : Tbl Shard := []
  /-- [R153 07] capture layouts. -/
  layouts : Tbl Layout := []
  /-- [R157 07] rule sets. -/
  ruleSets : Tbl (List Rule) := []
  /-- [R52 02] export records retained, in order of commit. -/
  records : List Rec := []
  /-- [R53 02] notice 0x0202 was posted and the backlog has not fallen below 80 % since. -/
  backlogNoticed : Bool := false
  /-- [R159 07] TB6 ns of the last shape table run. -/
  shapeRun : Nat := 0
  deriving DecidableEq, Repr

/-! ### Tariffs, marks and periods (08), box ledger (09) -/

/-- A tariff plan record (R167). -/
structure Plan where
  /-- [R167 08] demand length code D. -/
  d : Nat
  /-- [R167 08] sliding mode. -/
  sliding : Bool
  /-- [R167 08] sub-intervals S. -/
  s : Nat
  /-- [R167 08] period rule. -/
  rule : Nat
  /-- [R167 08] period day. -/
  day : Nat
  /-- [R167 08] period minute. -/
  minute : Nat
  /-- [R167 08] N. -/
  n : Nat
  /-- [R167 08] grace in hours. -/
  grace : Nat
  /-- [R167 08] clock-shift limit in s. -/
  shift : Nat
  /-- [R167 08] anchor, TAI s. -/
  anchor : Nat
  deriving DecidableEq, Repr

/-- A switch list (R169). -/
structure SwitchList where
  /-- [R169 08] list ID. -/
  id : Word
  /-- [R169 08] initial tariff. -/
  initial : Nat
  /-- [R169 08] activation, TAI s. -/
  activation : Nat
  /-- [R169 08] end of coverage, TAI s. -/
  cover : Nat
  /-- [R169 08] instants and tariffs. -/
  entries : List (Nat × Nat)
  /-- [R257 12] the list as loaded. -/
  bytes : Bytes
  deriving DecidableEq, Repr

/-- A rule calendar (R172): the checked record, read by offset. -/
structure Calendar where
  /-- [R172 08] calendar ID. -/
  id : Word
  /-- [R172 08] activation, TAI s. -/
  activation : Nat
  /-- [R172 08] the 4,320 B as loaded. -/
  bytes : Bytes
  deriving DecidableEq, Repr

/-- The schedule and periods of a plan (R167 to R175). -/
structure PlanState where
  /-- [R167 08] the record in force. -/
  plan : Plan
  /-- [R167 08] the record to apply from the next PERIOD_END. -/
  nextPlan : Option Plan := none
  /-- [R170 08] active switch list. -/
  active : Option SwitchList := none
  /-- [R170 08] passive switch list. -/
  passive : Option SwitchList := none
  /-- [R172 08] calendar in force. -/
  calendar : Option Calendar := none
  /-- [R172 08] calendar waiting for its activation. -/
  nextCalendar : Option Calendar := none
  /-- [R171 08] the active list's coverage has ended. -/
  fallback : Bool := false
  /-- [R168 08] tariff in force at the last switch; none before any. -/
  tariff : Option Nat := none
  /-- [R167 08] number of the open period. -/
  period : Nat := 1
  /-- [R182 08] start of the open period, TAI s. -/
  start : Nat := 0
  /-- [R167 08] the records in force before: end of the last period under each, TAI s, oldest first. -/
  rules : List (Nat × Plan) := []
  /-- [R175 08] last due instant issued by kind 1 to 3, TAI s. -/
  issued : List Nat := [0, 0, 0]
  /-- [R189 08] TAI s at which legal time, after a zone record has set it back, passes what was issued, by kind 1 to 3. -/
  floor : List Nat := [0, 0, 0]
  /-- [R179 08] DEMAND_END due instants, those of a run recorded as one mark among them, TAI s, latest first. -/
  ends : List Nat := []
  /-- [R168 08] due instant of the last TARIFF_SWITCH, TAI s. -/
  since : Nat := 0
  /-- [R183 08] periods that wait for their SEAL mark: number, TB7 ns of the PERIOD_END's creation, start and end. -/
  closing : List (Nat × Nat × Nat × Nat) := []
  /-- [R183 08] periods sealed: number, start and end, TAI s. -/
  sealed_ : List (Nat × Nat × Nat) := []
  /-- [R189 08] numbers of ended periods a set back has crossed. -/
  back : List Nat := []
  /-- [R168 08] NO_SCHEDULE has been said since the plan last had a schedule. -/
  noSchedule : Bool := false
  deriving DecidableEq, Repr

/-- A boundary mark (R174). -/
structure Mark where
  /-- [R174 08] boundary index. -/
  index : Nat
  /-- [R174 08] due instant, TAI ns. -/
  due : Nat
  /-- [R174 08] TB7 at creation, in units of 10^-12 ns. -/
  created : Nat
  /-- [R174 08] plan mask. -/
  plans : BitVec 64
  /-- [R174 08] kind. -/
  kind : Nat
  /-- [R174 08] tariff. -/
  tariff : Nat
  /-- [R174 08] flags. -/
  flags : BitVec 16
  /-- [R174 08] period ID. -/
  period : Nat
  deriving DecidableEq, Repr

/-- A closed determinant (R182, R194). -/
structure Determinant where
  /-- [R182 08] slot. -/
  slot : Nat
  /-- [R182 08] period ID. -/
  period : Nat
  /-- [R182 08] start, TAI s. -/
  start : Nat
  /-- [R182 08] end, TAI s. -/
  end_ : Nat
  /-- [R194 09] energies booked into the period, by t * 4 + q. -/
  e : Tbl Nat
  /-- [R182 08] closing totals by t * 4 + q. -/
  totals : Tbl Nat
  /-- [R182 08] maximum demands. -/
  maxima : Tbl MaxDemand
  /-- [R186 08] period flags, leaf and local. -/
  flags : BitVec 16
  /-- [R194 09] medium. -/
  medium : Nat
  /-- [R194 09] EUI-64. -/
  eui : DWord
  /-- [R182 08] first ASN. -/
  firstAsn : Nat
  /-- [R182 08] last ASN. -/
  lastAsn : Nat
  /-- [R184 08] adjustment entries carried. -/
  adjust : List Adjust
  /-- [R202 09] its leaf hash is current. -/
  hashed : Bool
  /-- [R194 09] encoding flags it came with from another device: bits 0 and 1. -/
  enc : Nat := 0
  /-- [R185 08] what it was before each booking of a pleached device, in booking order. -/
  undo : List DetUndo := []
  deriving DecidableEq, Repr

/-- Billing state of the device (08). -/
structure Tariffs where
  /-- [R167 08] tariff plans loaded. -/
  plans : Tbl PlanState := []
  /-- [R174 08] retained boundary marks, in rising index. -/
  marks : List Mark := []
  /-- [R175 08] boundary index, beside TB7. -/
  index : Nat := 0
  /-- [R182 08] closed determinant store. -/
  store : List Determinant := []
  deriving DecidableEq, Repr

/-- A ledger entry and the leaves sealed under it (R199, R206). -/
structure Entry where
  /-- [R199 09] entry number. -/
  number : Nat
  /-- [R199 09] period ID. -/
  period : Nat
  /-- [R199 09] period start, TAI s. -/
  start : Nat
  /-- [R199 09] period end, TAI s. -/
  end_ : Nat
  /-- [R199 09] sealed at, TB2 units of 10^-12 ns. -/
  sealedAt : Nat
  /-- [R199 09] leaf count. -/
  leaves : Nat
  /-- [R199 09] adjustment count. -/
  adjusts : Nat
  /-- [R199 09] root. -/
  root : Hash
  /-- [R199 09] the 1,408 B as signed. -/
  bytes : Bytes
  /-- [R206 09] leaves by slot; empty beyond the retention. -/
  leafBytes : Tbl Bytes
  deriving DecidableEq, Repr

/-- A sealing in progress (R185, R201, R204). -/
structure Sealing where
  /-- [R201 09] period ID. -/
  period : Nat
  /-- [R183 08] start and end, TAI s. -/
  span : Nat × Nat
  /-- [R185 08] cutoff vector received: slot, ASN; none until complete. -/
  cutoff : Option (List (Nat × Nat))
  /-- [R185 R204 08 09] TB7 ns at which the present 600 s wait ends; 0 when nothing is waited for. -/
  waitEnd : Nat
  /-- [R201 09] the entry is committed and the partner's root is awaited. -/
  committed : Bool
  deriving DecidableEq, Repr

/-- Box ledger (09). -/
structure Ledger where
  /-- [R199 09] entries retained, latest first. -/
  entries : List Entry := []
  /-- [R199 09] last entry number. -/
  last : Nat := 0
  /-- [R199 09] hash of the last entry. -/
  chain : Hash := 0#256
  /-- [R201 09] sealings in progress, ascending period ID. -/
  sealings : List Sealing := []
  /-- [R206 09] retention in days. -/
  retention : Nat := 400
  /-- [R203 09] ledger ring. -/
  ring : Nat := 0
  /-- [R245 12] key ID of the last entry's key, kept for a lost vault store. -/
  lastKey : DWord := 0#64
  /-- [R185 R308 08 14] cutoff vectors arriving, by period: parts in all, parts received, slots and ASNs. -/
  cutoffs : Tbl (Nat × List Nat × List (Nat × Nat)) := []
  /-- [R204 09] the partner's root, leaf and adjustment count, by period. -/
  roots : Tbl (Hash × Nat × Nat) := []
  /-- [R204 09] LEDGER_LEAF_MISMATCH records written per period. -/
  mismatches : Tbl Nat := []
  deriving DecidableEq, Repr

/-! ### Loss and theft (10) -/

/-- One interval of a group's accumulator ring (R209). -/
structure Accum where
  /-- [R209 10] interval end, TAI s. -/
  end_ : Nat
  /-- [R209 10] measured records added: slot, interval end, net energy. -/
  measured : List (Nat × Nat × Int)
  /-- [R209 10] estimated records added: slot, interval end, net energy. -/
  estimated : List (Nat × Nat × Int)
  /-- [R211 10] the reference's records: interval end, net energy, voltages L1 to L3, POWER_DOWN, estimated. -/
  reference : List (Nat × Int × List Nat × Bool × Bool)
  /-- [R212 10] a record carries PARTIAL or CLOCK_ADJUSTED. -/
  disturbed : Bool
  /-- [R213 10] foreign member sum and foreign reference sum. -/
  foreign : Option Int × Option Int
  /-- [R210 10] evaluated, with its residual. -/
  residual : Option Int
  /-- [R213 10] REVISED is due. -/
  revised : Bool
  /-- [R213 10] TB6 ns of the last REVISED result. -/
  revisedAt : Option Nat
  /-- [R210 R213 10] the interval has been evaluated. -/
  done : Bool := false
  deriving DecidableEq, Repr

/-- A balance group (R207, R208, R214). -/
structure Group where
  /-- [R208 10] flags. -/
  flags : BitVec 16
  /-- [R208 10] reference slot. -/
  reference : Nat
  /-- [R208 10] phases. -/
  phases : Nat
  /-- [R208 10] members: slot, phase, EXCLUDED. -/
  members : List (Nat × Nat × Bool)
  /-- [R208 10] no-load loss. -/
  a : Nat
  /-- [R208 10] load-loss resistance. -/
  b : Nat
  /-- [R208 10] allowance, 0 for the device default. -/
  k : Nat
  /-- [R208 10] threshold, 0 for the device default. -/
  h : Nat
  /-- [R208 10] group interval. -/
  p : Nat
  /-- [R209 10] accumulator ring, latest first, at most 128. -/
  ring : List Accum
  /-- [R210 10] end of the last interval evaluated, 0 none. -/
  evaluated : Nat
  /-- [R212 10] last result code. -/
  result : Nat
  /-- [R214 10] S+. -/
  sPos : Int
  /-- [R214 10] S-. -/
  sNeg : Int
  /-- [R214 10] positive alarm. -/
  alarmPos : Bool
  /-- [R214 10] negative alarm. -/
  alarmNeg : Bool
  /-- [R214 10] first interval after S+ was last 0. -/
  onset : Nat
  /-- [R209 10] MEMBER_LATE is due in the next result. -/
  late : Bool
  /-- [R216 10] legal day of the last daily attribution. -/
  attributed : Nat
  deriving DecidableEq, Repr

/-- Loss and theft parameters (R215). -/
structure LtParams where
  /-- [R215 10] BAL_WAIT. -/
  balWait : Nat := 16200
  /-- [R215 10] E_FLOOR. -/
  eFloor : Nat := 1000
  /-- [R215 10] k. -/
  k : Nat := 20
  /-- [R215 10] h. -/
  h : Nat := 200
  /-- [R215 10] MISSING_LIMIT. -/
  missing : Nat := 0
  /-- [R215 10] EST_LIMIT. -/
  est : Nat := 10
  /-- [R215 10] ATTRIB_MIN. -/
  attribMin : Nat := 32
  /-- [R215 10] TAMPER_SET. -/
  set : Nat := 160
  /-- [R215 10] TAMPER_CLEAR. -/
  clear : Nat := 96
  /-- [R215 10] REV_MIN. -/
  revMin : Nat := 10
  /-- [R215 10] ND_LIMIT. -/
  nd : Nat := 200
  /-- [R215 10] SPREAD_LIMIT. -/
  spread : Nat := 400
  /-- [R215 10] TOPO_RHO. -/
  rho : Nat := 29491
  /-- [R215 10] TOPO_MARGIN. -/
  margin : Nat := 3277
  /-- [R215 10] TOPO_DAYS. -/
  days : Nat := 3
  /-- [R215 10] TOPO_MINUTE. -/
  minute : Nat := 360
  deriving DecidableEq, Repr

/-- Loss and theft state of the device (10). -/
structure LossTheft where
  /-- [R207 10] balance groups. -/
  groups : Tbl Group := []
  /-- [R215 10] parameters in force. -/
  params : LtParams := {}
  /-- [R218 10] tamper map: event code, kind, score, clear code. -/
  tamperMap : List (Nat × Nat × Nat × Nat) := []
  /-- [R220 10] legal day of the last topology run. -/
  topoDay : Nat := 0
  deriving DecidableEq, Repr

/-! ### Time (11) -/

/-- TBn_STATUS and the read latch of a base (R239). -/
structure TbStat where
  /-- [R239 11] VALID. -/
  valid : Bool := false
  /-- [R239 11] FOLLOWING. -/
  following : Bool := false
  /-- [R239 11] HOLDOVER. -/
  holdover : Bool := false
  /-- [R239 11] SLEWING. -/
  slewing : Bool := false
  /-- [R239 11] LEAP_PENDING. -/
  leap : Bool := false
  /-- [R239 11] STEPS. -/
  steps : Nat := 0
  /-- [R239 11] latch, 96 bits. -/
  latch : BitVec 96 := 0#96
  deriving DecidableEq, Repr

/-- State of a PTP domain (table Domain states). -/
inductive DomState where
  | disabled | listening | acquiring | locked | holdover
  deriving DecidableEq, Repr

/-- A master heard on a port of a domain (R228, R229). -/
structure Foreign where
  /-- [R229 11] the port. -/
  port : Nat
  /-- [R229 11] its data set. -/
  a : Announce
  /-- [R229 11] TB6 ns of its last Announce. -/
  at_ : Nat
  /-- [R229 11] its announce interval, ns. -/
  interval : Nat
  /-- [R228 11] the last two Announces came within four intervals. -/
  two : Bool
  deriving DecidableEq, Repr

/-- A PTP domain (R229 to R232). -/
structure Domain where
  /-- [R232 11] the configuration in force. -/
  cfg : Word := 0#32
  /-- [R232 11] DOM_CFG as it reads: in force from the next Sync. -/
  want : Word := 0#32
  /-- [R231 11] KP. -/
  kp : Word := 0x00004CCD#32
  /-- [R231 11] KI. -/
  ki : Word := 0x00000666#32
  /-- [R232 11] LOCK_NS. -/
  lockNs : Word := 100#32
  /-- [R232 11] FREQ, 0.001 ppb. -/
  freq : Int := 0
  /-- [R232 11] OFFSET, ns. -/
  offset : Int := 0
  /-- [R228 R232 11] meanPathDelay, in 2^-16 ps; PATH_DELAY shows it in ns. -/
  pathDelay : Int := 0
  /-- [R232 11] GM_ID, clockIdentity octets as a number. -/
  gmId : DWord := 0#64
  /-- [R232 11] state. -/
  state : DomState := .disabled
  /-- [R232 11] on the alternate port. -/
  alt : Bool := false
  /-- [R232 11] SYNC_COUNT. -/
  syncCount : Word := 0#32
  /-- [R231 11] integral, in 2^-16 ps. -/
  integral : Int := 0
  /-- [R232 11] consecutive Syncs with |o| below LOCK_NS. -/
  good : Nat := 0
  /-- [R232 11] consecutive Syncs with |o| above 1 µs. -/
  bad : Nat := 0
  /-- [R232 11] TB6 ns of the last Sync. -/
  lastSync : Nat := 0
  /-- [R232 11] the sync interval the last Sync stated, ns. -/
  syncInt : Nat := 0
  /-- [R229 11] TB6 ns of the last Announce on each port. -/
  lastAnnounce : Nat × Nat := (0, 0)
  /-- [R229 11] TB6 ns from which the primary has carried Announces again. -/
  primarySince : Option Nat := none
  /-- [R228 11] the masters heard. -/
  foreign : List Foreign := []
  /-- [R229 11] the master chosen: its Announce data set and port identity. -/
  master : Option Announce := none
  /-- [R232 11] TB6 ns from which no master is chosen. -/
  noMasterSince : Nat := 0
  /-- [R231 11] two-step Sync waiting for its Follow_Up: sequence, ingress stamp in ns, correction in 2^-16 ps. -/
  twoStep : Option (Nat × Int × Int) := none
  /-- [R228 11] the last Sync's master-to-slave delay, corrected, in 2^-16 ps (for E2E). -/
  msDelay : Int := 0
  /-- [R228 11] Delay_Req outstanding: sequence, egress stamp in ns. -/
  delayReq : Option (Nat × Int) := none
  /-- [R228 11] next own sequenceId. -/
  seqId : Nat := 0
  /-- [R232 11] spans spent in LOCKED: ns, frequency applied; latest first, the last 1,000 s. -/
  history : List (Nat × Int) := []
  /-- [R232 11] TB6 ns up to which the spans are told. -/
  histAt : Nat := 0
  deriving DecidableEq, Repr

/-- Compensation and peer delay of an Ethernet port (R228, R230). -/
structure EthPort where
  /-- [R230 11] INGRESS_LAT, ps. -/
  ingress : Word := 0#32
  /-- [R230 11] EGRESS_LAT, ps. -/
  egress : Word := 0#32
  /-- [R230 11] ASYMMETRY, ps. -/
  asym : Word := 0#32
  /-- [R230 11] PORT_PTP. -/
  ptp : Word := 0#32
  /-- [R228 11] PTP_DISCARD. -/
  discard : Word := 0#32
  /-- [R229 11] link up. DC -/
  up : Bool := false
  /-- [R228 11] Pdelay_Req outstanding: sequence, t1. -/
  pdelay : Option (Nat × Int) := none
  /-- [R228 11] two-step Pdelay_Resp waiting for its follow-up: sequence, t2, t4 in ns, correction in 2^-16 ps. -/
  pdelayTwo : Option (Nat × Int × Int × Int) := none
  /-- [R228 11] next own sequenceId. -/
  seqId : Nat := 0
  deriving DecidableEq, Repr

/-- The zone record (R236). -/
structure Zone where
  /-- [R236 11] zone ID. -/
  id : Word
  /-- [R236 11] TAI-UTC. -/
  tai : Nat
  /-- [R236 11] TAI-UTC after leap. -/
  taiAfter : Nat
  /-- [R236 11] leap instant, TAI s. -/
  leap : Nat
  /-- [R236 11] standard offset, min. -/
  std : Int
  /-- [R236 11] DST delta, min. -/
  dst : Nat
  /-- [R236 11] DST start: month, week, weekday, minute. -/
  start : Nat × Nat × Nat × Nat
  /-- [R236 11] DST end. -/
  end_ : Nat × Nat × Nat × Nat
  /-- [R236 11] the 32 B as loaded. -/
  bytes : Bytes
  deriving DecidableEq, Repr

/-- The TIME island (11). -/
structure TimeUnit where
  /-- [R225 11] TB0. DC -/
  tb0 : Nat := 0
  /-- [R225 11] TB1. DC -/
  tb1 : Nat := 0
  /-- [R225 11] TB2. DC -/
  tb2 : Nat := 0
  /-- [R225 11] TB4. DC -/
  tb4 : Nat := 0
  /-- [R225 11] TB5. DC -/
  tb5 : Nat := 0
  /-- [R227 11] TB6. -/
  tb6 : Nat := 0
  /-- [R225 11] TB7. DC -/
  tb7 : Nat := 0
  /-- [R239 11] status and latch of TB0 to TB7, by number, where they differ from reset. -/
  stat : Tbl TbStat := []
  /-- [R232 11] domain A. -/
  domA : Domain := {}
  /-- [R232 11] domain B. -/
  domB : Domain := {}
  /-- [R230 11] ETH-A. -/
  ethA : EthPort := {}
  /-- [R230 11] ETH-B. -/
  ethB : EthPort := {}
  /-- [R233 11] SELECT. -/
  select : Word := 0#32
  /-- [R233 11] STEP_THRESHOLD. -/
  stepThreshold : Word := 1000#32
  /-- [R233 11] HOLD_PPB. -/
  holdPpb : Word := 10#32
  /-- [R233 11] HOLD_LIMIT. -/
  holdLimit : Word := 1000#32
  /-- [R227 11] AO_PPM. -/
  aoPpm : Word := 50#32
  /-- [R227 11] AO_TRUST. -/
  aoTrust : Word := 100#32
  /-- [R233 11] TB2's uncertainty when it last followed or started, ns. DC -/
  uncert : Nat := 0
  /-- [R233 11] TB2_UNCERT register is 0 while following; TB6 ns at which holdover began. -/
  holdSince : Nat := 0
  /-- [R233 11] domain selected: false A, true B; none in holdover. -/
  selected : Option Bool := none
  /-- [R233 11] the mean rate TB2 holds in holdover, 0.001 ppb. -/
  rate : Int := 0
  /-- [R233 11] spans spent following: ns, rate; latest first, the last 1,000 s. -/
  follow : List (Nat × Int) := []
  /-- [R233 11] TB6 ns up to which the spans are told. -/
  followAt : Nat := 0
  /-- [R234 11] the one step of case 1 has been used in this start. -/
  stepped : Bool := false
  /-- [R236 11] zone record. -/
  zone : Option Zone := none
  /-- [R235 11] the announced leap second has been applied. -/
  leapDone : Bool := false
  /-- [R227 11] TB2 and its uncertainty at the last flush. DC -/
  flushTb2 : Nat × Nat := (0, 0)
  /-- [R227 11] TB2 was valid at the flush. DC -/
  flushValid : Bool := false
  deriving DecidableEq, Repr

/-! ### Vault (12) -/

/-- A key slot (R242, table Key record). -/
structure Key where
  /-- [R242 12] use. -/
  use : Nat
  /-- [R243 12] algorithm. -/
  alg : Nat
  /-- [R243 12] origin. -/
  origin : Nat
  /-- [R243 12] FACTORY. -/
  factory : Bool
  /-- [R243 12] label. -/
  label : Nat
  /-- [R242 12] key bytes: private, secret or public. -/
  key : Bytes
  /-- [R243 12] public key of an asymmetric pair. -/
  pub : Bytes
  /-- [R243 12] created, TB2 in units of 10^-12 ns. -/
  created : Nat
  /-- [R253 12] one of the two shares; the other is the key XOR it. -/
  mask : Bytes := []
  deriving DecidableEq, Repr

/-- An entry of Holly's key cache (R247). -/
structure CacheEntry where
  /-- [R247 12] slot. -/
  slot : Nat
  /-- [R247 12] key generation. -/
  gen : Nat
  /-- [R247 12] EK and AK. -/
  keys : Bytes × Bytes
  /-- [R253 12] one of the two shares of the two keys in a row; the other is they XOR it. -/
  mask : Bytes := []
  deriving DecidableEq, Repr

/-- Holly (12). -/
structure Vault where
  /-- [R243 12] occupied key slots. Slots 0, 3 and 4 hold the factory keys of the fuses. DC -/
  keys : Tbl Key := []
  /-- [R244 12] the two sealed copies of every slot but the factory's, by what they hold. -/
  sealed : Tbl Key × Tbl Key := ([], [])
  /-- [R247 12] derived and unwrapped keys, most recently used first, at most 8,192. -/
  cache : List CacheEntry := []
  /-- [R257 12] MEAS0 to MEAS7. -/
  meas : List Hash := [0#256, 0#256, 0#256, 0#256, 0#256, 0#256, 0#256, 0#256]
  /-- [R260 12] highest token ID accepted; none before any. -/
  tokenId : Option Word := none
  /-- [R254 12] TRNG failed its health test. -/
  trngFailed : Bool := false
  /-- [R254 12] consecutive passes since the failure. -/
  trngPasses : Nat := 0
  /-- [R254 12] TB6 ns of the last test. -/
  trngTested : Nat := 0
  /-- [R254 12] TRNG draws so far. MODEL -/
  draws : Nat := 0
  /-- [R399 20] maintenance challenge: bytes and TB6 ns of issue. -/
  challenge : Option (Bytes × Nat) := none
  /-- [R70 03] session that unlocked the maintenance block. -/
  maintUnlocked : Option Word := none
  /-- [R253 12] storage polarity of the shares. -/
  inverted : Bool := false
  /-- [R253 12] TB6 ns of the last re-masking pass. -/
  remasked : Nat := 0
  /-- [R341 16] broadcast generation by key plan. DC -/
  bcastGen : Tbl Nat := []
  /-- [R250 12] dedicated keys by slot: the draw that made each. -/
  dedicated : Tbl Nat := []
  /-- [R335 16] the security processor swap is due. -/
  swapDue : Bool := false
  deriving DecidableEq, Repr

/-! ### Coppice (13) -/

/-- State of a NAND block (table Block states). -/
inductive BlockState where
  | free | open_ | closed | verified | erasing | retired
  deriving DecidableEq, Repr

/-- A row of the block table; valid sectors and the first write sequence are read off map and tags (R270). -/
structure Block where
  /-- [R270 13] state. -/
  state : BlockState := .free
  /-- [R270 13] program/erase count. -/
  pe : Nat := 0
  deriving DecidableEq, Repr

/-- The tag of a sector, its CRC computed (table Sector tag). -/
structure SectorTag where
  /-- [R266 13] sector number: LSN, segment or row. -/
  num : Nat
  /-- [R266 R267 13] write sequence. -/
  seq : Nat
  /-- [R266 13] type. -/
  type : Nat
  /-- [R266 R269 13] stream that wrote it. -/
  stream : Nat
  deriving DecidableEq, Repr

/-- An open stream of the log (R269). -/
structure Stream where
  /-- [R269 13] stripe group it writes. -/
  group : Nat
  /-- [R269 13] its open blocks, one on each working die of the group, in die order. -/
  blocks : List Nat
  /-- [R269 13] the row it writes. -/
  row : Nat := 0
  /-- [R269 13] blocks whose page of the row is programmed. -/
  done : List Nat := []
  deriving DecidableEq, Repr

/-- A PARITY page of the parity ring: the exclusive or of the data pages of a row (R271). -/
structure ParityPage where
  /-- [R271 13] die it lies on: the one that takes no data in the row. -/
  die : Nat
  /-- [R266 R271 13] row. -/
  row : Nat
  /-- [R267 13] write sequence of its first sector. -/
  seq : Nat
  /-- [R271 13] blocks whose pages of the row it covers. -/
  blocks : List Nat
  deriving DecidableEq, Repr

/-- A block that is being emptied (R272, R278, R279, R283). -/
structure Reloc where
  /-- [R279 13] the source block. -/
  block : Nat
  /-- [R272 R283 13] it is retired when empty, not erased. -/
  retire : Bool := false
  /-- [R279 R280 13] verified copies taken from it: sector within the source, physical sector of the copy. -/
  copied : List (Nat × Nat) := []
  deriving DecidableEq, Repr

/-- An anchor record, with what its locations hold (R274, R275). -/
structure Anchor where
  /-- [R275 13] checkpoint number. -/
  number : Nat
  /-- [R275 13] write sequence at the checkpoint. -/
  seq : Nat
  /-- [R275 13] physical sector of the segment table. -/
  segAt : Nat
  /-- [R275 13] physical sector of the block table. -/
  blockAt : Nat
  /-- [R275 13] journal ring position replay starts from. -/
  position : Nat
  /-- [R275 13] free ring, whose head and tail it names. -/
  free : List Nat
  /-- [R275 13] open blocks. -/
  open_ : List Nat
  /-- [R275 13] CRC-32C. -/
  crc : Word
  /-- [R386 19] role at format. -/
  core : Bool
  /-- [R386 19] SERIAL at format. -/
  serial : DWord
  /-- [R274 13] segment table: physical sector of the latest copy of each segment. -/
  segs : Tbl Nat
  /-- [R274 13] the map as the segments hold it. -/
  map : Tbl Word
  /-- [R274 13] the block table. -/
  blocks : Tbl Block
  deriving DecidableEq, Repr

/-- A dirty sector of the write buffer (R266, R269). -/
structure Sector where
  /-- [R266 13] LSN. -/
  lsn : Nat
  /-- [R266 13] tag type. -/
  type : Nat
  /-- [R37 R266 02 13] the commit that dirtied it, counted from 1; 0 for a sector written again. MODEL -/
  num : Nat := 0
  deriving DecidableEq, Repr

/-- Storage parameters (R285). -/
structure StoreParams where
  /-- [R285 13] profile retention, days. -/
  retention : Nat := 62
  /-- [R285 13] VERIFY_LIMIT. -/
  verify : Nat := 40
  /-- [R285 13] REFRESH_LIMIT. -/
  refresh : Nat := 80
  /-- [R285 13] FREE_TARGET. -/
  freeTarget : Nat := 300
  /-- [R285 13] SPARE_LOW. -/
  spareLow : Nat := 100
  /-- [R285 13] rated TLC cycles. -/
  tlc : Nat := 3000
  /-- [R285 13] rated pSLC cycles. -/
  pslc : Nat := 30000
  /-- [R53 02] export backlog limit; none for the role's default. -/
  backlog : Option Nat := none
  deriving DecidableEq, Repr

/-- The NAND's content as the start-up finds it (R385). -/
inductive NandKind where
  | blank | foreign | formatted | invalid
  deriving DecidableEq, Repr

/-- Coppice (13). -/
structure Coppice where
  /-- [R385 19] what the fitted NAND holds. DC -/
  kind : NandKind := .blank
  /-- [R386 19] role recorded in the anchor at format. -/
  fmtCore : Bool := false
  /-- [R386 19] SERIAL recorded in the anchor at format. -/
  fmtSerial : DWord := 0#64
  /-- [R285 13] storage parameters. -/
  params : StoreParams := {}
  /-- [R267 13] write sequence last used. -/
  writeSeq : Nat := 0
  /-- [R38 02] write buffer, oldest first. -/
  buffer : List Sector := []
  /-- [R273 13] journal tail. -/
  tail : List DWord := []
  /-- [R273 R276 13] write sequence when the tail took its latest entry. -/
  tailSeq : Nat := 0
  /-- [R273 13] JOURNAL sectors of the journal ring, oldest first: position, write sequence, entries. -/
  ring : List (Nat × Nat × List DWord) := []
  /-- [R273 13] position of the next JOURNAL sector. -/
  ringNext : Nat := 0
  /-- [R273 R275 13] position from which replay starts: that of the last complete checkpoint. -/
  ringFrom : Nat := 0
  /-- [R273 13] TB6 ns of the last tail write. -/
  tailAt : Nat := 0
  /-- [R268 13] the map: LSN to map entry. -/
  map : Tbl Word := []
  /-- [R268 13] map segments changed since the last checkpoint. -/
  changed : List Nat := []
  /-- [R274 13] segment table. -/
  segs : Tbl Nat := []
  /-- [R270 13] block table of the log's blocks that differ from FREE and never used. -/
  blocks : Tbl Block := []
  /-- [R266 13] what is programmed in each block, by sector within the block. -/
  media : Tbl (List (Nat × SectorTag)) := []
  /-- [R269 13] open streams: 0 to 3 DATA of a group, 4 to 7 GC of a group, 8 CHECKPOINT. -/
  streams : Tbl Stream := []
  /-- [R271 13] PARITY pages held in the parity ring. -/
  parity : List ParityPage := []
  /-- [R270 13] free ring, head first. DC -/
  free : List Nat := []
  /-- [R265 13] spare pool. -/
  spare : List Nat := []
  /-- [R274 13] checkpoint number. -/
  checkpoint : Nat := 0
  /-- [R274 13] bytes programmed to the log since the last checkpoint. -/
  programmed : Nat := 0
  /-- [R274 13] TB6 ns of the last checkpoint. -/
  checkpointAt : Nat := 0
  /-- [R275 13] the anchor records, the newer first. -/
  anchors : List Anchor := []
  /-- [R281 13] unreadable ranges: slot, first ASN, last ASN. -/
  unreadable : List (Nat × Nat × Nat) := []
  /-- [R283 13] failed dies. -/
  deadDies : List Nat := []
  /-- [R283 13] dies whose rebuild has not ended. -/
  rebuilding : List Nat := []
  /-- [R283 13] TB6 ns of ready timeouts by die, latest first. -/
  timeouts : List (Nat × Nat) := []
  /-- [R283 13] TB6 ns of program and erase failures by die and block, latest first. -/
  failures : List (Nat × Nat × Nat) := []
  /-- [R284 13] SPARE_LOW has been reported. -/
  spareLowSaid : Bool := false
  /-- [R272 R278 R279 R283 13] blocks whose valid sectors are copied elsewhere. -/
  relocating : List Reloc := []
  /-- [R289 13] blocks retired. -/
  retired : Nat := 0
  /-- [R289 13] sectors written by stores. -/
  written : Nat := 0
  /-- [R289 13] sectors programmed. -/
  progSectors : Nat := 0
  /-- [R289 13] uncorrectable sectors. -/
  uncorrectable : Nat := 0
  /-- [R289 13] program failures. -/
  progFails : Nat := 0
  /-- [R289 13] erase failures. -/
  eraseFails : Nat := 0
  /-- [R289 13] corrected-bit histogram, 17 bins. -/
  histogram : List Nat := [0, 0, 0, 0, 0, 0, 0, 0, 0, 0, 0, 0, 0, 0, 0, 0, 0]
  /-- [R289 13] minutes per temperature bin, 33 bins. -/
  temps : Tbl Nat := []
  /-- [R289 13] the latest health snapshot, 336 B. -/
  snapshot : Bytes := []
  /-- [R289 13] TB6 ns of the latest snapshot. -/
  snapshotAt : Nat := 0
  /-- [R288 13] uncorrectable DRAM lines: DRAM device, line, TB6 ns. -/
  dramErrors : List (Nat × Nat × Nat) := []
  /-- [R288 13] slots whose hot state is reloaded before their next frame. -/
  reload : List Nat := []
  /-- [R288 13] DRAM device failed. -/
  dramFailed : Bool := false
  /-- [R287 13] lines the scrub has corrected. MODEL -/
  scrubbed : Nat := 0
  /-- [R47 02] commits so far (which sector each writes is open). MODEL -/
  commits : Nat := 0
  deriving DecidableEq, Repr

/-! ### Pairs (14) -/

/-- State of the pair (table Pair states). -/
inductive PairState where
  | alone | pairing | resync | paired | partnerLost
  deriving DecidableEq, Repr

/-- A pair record (R291). -/
structure PairRec where
  /-- [R291 14] pair ID. -/
  id : Word
  /-- [R291 14] partner device ID. -/
  partner : Word
  /-- [R291 14] witness device ID. -/
  witness : Word
  /-- [R291 14] FIRST_HOLDER. -/
  first : Bool
  /-- [R292 14] key slots of this record: partner send, partner receive, witness send, witness receive. -/
  keys : Nat × Nat × Nat × Nat
  /-- [R291 14] the 240 B as loaded. -/
  bytes : Bytes
  deriving DecidableEq, Repr

/-- An entry of the witness table and the term of its pair (R303, R413). -/
structure Witnessed where
  /-- [R413 20] pair ID. -/
  id : Word
  /-- [R413 20] the two device IDs. -/
  devs : Word × Word
  /-- [R303 14] term, durable. -/
  term : Nat
  /-- [R302 14] present holder, as last granted. -/
  holder : Option Word
  /-- [R299 14] TB6 ns of the last authenticated frame of each device, 0 before the first. -/
  heard : Nat × Nat
  /-- [R292 14] key slots toward each device: send, receive. -/
  slots : (Nat × Nat) × (Nat × Nat)
  /-- [R413 20] the 232 B as loaded. -/
  bytes : Bytes
  deriving DecidableEq, Repr

/-- A mirrored item not yet acknowledged (R304). -/
structure MirrorItem where
  /-- [R304 14] mirror sequence. -/
  seq : Nat
  /-- [R304 14] kind. -/
  kind : Nat
  /-- [R304 14] item bytes. -/
  item : Bytes
  /-- [R304 14] it has been used without an acknowledgement, in PARTNER_LOST. -/
  used : Bool
  /-- [R304 14] the command that waits for the acknowledgement: ring, session, tag, result. -/
  command : Option (Nat × Word × Word × Bytes)
  deriving DecidableEq, Repr

/-- Bytes that arrive in fragments (R298, R308). -/
structure Arriving where
  /-- [R298 14] mirror sequence, or shard of a resync. -/
  seq : Nat
  /-- [R298 14] kind, or part of a resync. -/
  kind : Nat
  /-- [R298 14] total length. -/
  len : Nat
  /-- [R298 14] pieces by offset. -/
  pieces : Tbl Bytes
  deriving DecidableEq, Repr

/-- Pairs and clusters (14). -/
structure Pair where
  /-- [R291 14] pair record; none when alone. -/
  record : Option PairRec := none
  /-- [R292 14] state. -/
  state : PairState := .alone
  /-- [R300 14] highest token term known. -/
  term : Nat := 0
  /-- [R300 14] this device is the one the highest grant names and has taken the token. -/
  holder : Bool := false
  /-- [R301 14] fenced: transmits nothing until a heartbeat names it holder. -/
  fenced : Bool := false
  /-- [R302 14] TB6 ns at which the 5 ms hold ends. -/
  holdUntil : Option Nat := none
  /-- [R302 14] a grant at this term naming this device that it cannot yet take. -/
  grant : Option Nat := none
  /-- [R299 14] TB6 ns of the partner's last heartbeat. -/
  partnerHeard : Option Nat := none
  /-- [R299 14] TB6 ns of the witness's last authenticated frame. -/
  witnessHeard : Option Nat := none
  /-- [R302 14] TB6 ns of the last heartbeat that named its sender holder. -/
  holderHeard : Option Nat := none
  /-- [R301 14] TB6 ns of the last heartbeat naming this device holder at its term. -/
  namedAt : Nat := 0
  /-- [R299 14] TB6 ns of the last heartbeat sent. -/
  beat : Nat := 0
  /-- [R303 14] WITNESS_SILENT has been reported. -/
  witnessSilent : Bool := false
  /-- [R296 14] sequence of the last frame sent, by receiver. -/
  sent : Tbl Nat := []
  /-- [R297 14] sequence last accepted, by sender. -/
  accepted : Tbl Nat := []
  /-- [R297 14] ZORYEN_DISCARD. -/
  discard : Nat := 0
  /-- [R304 14] mirror sequence last used. -/
  mirrorSeq : Nat := 0
  /-- [R304 14] items not yet acknowledged, oldest first. -/
  mirror : List MirrorItem := []
  /-- [R298 14] fragments of the item arriving: sequence, kind, length, pieces (offset, bytes). -/
  incoming : Option Arriving := none
  /-- [R296 14] highest mirror sequence received. -/
  mirrorIn : Nat := 0
  /-- [R308 14] shards in step with the partner. -/
  agreed : List Nat := []
  /-- [R308 14] shard part arriving by resync: shard, part, pieces. -/
  resync : Option Arriving := none
  /-- [R308 14] parts loaded by resync: shard, part. -/
  resynced : List (Nat × Nat) := []
  /-- [R303 14] witness table. -/
  witnessed : List Witnessed := []
  /-- [R303 14] terms of pairs dropped from the table: pair ID, term. -/
  oldTerms : Tbl Nat := []
  /-- [R315 14] drain window, min. -/
  drain : Nat := 10
  deriving DecidableEq, Repr

/-! ### Yew (15) -/

/-- An event raised and not yet appended (R323). -/
structure YewEvent where
  /-- [R317 15] timestamp, 96 bits. -/
  stamp : BitVec 96
  /-- [R317 15] TB7_TIME. -/
  tb7 : Bool
  /-- [R317 15] code. -/
  code : Nat
  /-- [R317 15] source kind. -/
  kind : Nat
  /-- [R317 15] source. -/
  source : Nat
  /-- [R317 15] data. -/
  data : Bytes
  deriving DecidableEq, Repr

/-- A Yew record (R317). -/
structure YewRec where
  /-- [R318 15] sequence. -/
  seq : Nat
  /-- [R317 15] the event. -/
  ev : YewEvent
  /-- [R317 15] STAGED. -/
  staged : Bool
  /-- [R319 15] chain hash. -/
  chain : DWord
  /-- [R321 15] TB7 ns at append. -/
  appended : Nat
  deriving DecidableEq, Repr

/-- Yew (15). -/
structure Yew where
  /-- [R320 15] records held, latest first. -/
  records : List YewRec := []
  /-- [R318 15] highest sequence appended. -/
  newest : Nat := 0
  /-- [R319 15] chain hash of the last record. -/
  chain : DWord := 0#64
  /-- [R323 15] FROZEN. -/
  frozen : Bool := false
  /-- [R324 15] frozen by PFAIL_N or before Yew is readable: no release. -/
  hard : Bool := false
  /-- [R323 15] TB6 ns of the freeze. -/
  frozenAt : Nat := 0
  /-- [R323 15] staging buffer, oldest first. -/
  staged : List YewEvent := []
  /-- [R323 15] events lost with the buffer full, and the stamp of the first. -/
  lost : Nat := 0
  /-- [R323 15] stamp of the first lost. -/
  firstLost : BitVec 96 := 0#96
  /-- [R326 15] YEW_OVERFLOW_COUNT. -/
  overflowCount : Nat := 0
  /-- [R326 15] YEW_LOST_COUNT. -/
  lostCount : Nat := 0
  /-- [R321 15] hold period, days. -/
  hold : Nat := 3653
  /-- [R326 15] YEW_CURSOR. DC -/
  cursor : Nat := 1
  /-- [R59 03] lower word last written of YEW_CURSOR. -/
  cursorLow : Word := 0#32
  /-- [R326 15] YEW_CTRL. -/
  ctrl : Word := 1#32
  /-- [R326 15] WINDOW_READY. -/
  ready : Bool := false
  /-- [R326 15] appends since the last auto-advance or cursor write. -/
  irqCount : Nat := 0
  /-- [R31 R76 R223 02 03 10] TB6 ns at which a limited record or notice was last written, by its key. -/
  limits : Tbl Nat := []
  /-- [R223 R281 R135 R262 10 13 06 12] hourly counts: key, window start TB6 ns, written, unwritten. -/
  bursts : List (Nat × Nat × Nat × Nat) := []
  deriving DecidableEq, Repr

/-! ### Firmware (16) -/

/-- State of an image slot (table Image slot states). -/
inductive ImgState where
  | empty | loading | loaded | verified | trial | confirmed
  deriving DecidableEq, Repr

/-- An image slot of the xSPI flash and its row of the boot record (R330). -/
structure Img where
  /-- [R330 16] state. -/
  state : ImgState := .empty
  /-- [R330 16] security version. -/
  version : Nat := 0
  /-- [R330 16] image length. -/
  length : Nat := 0
  /-- [R330 16] image hash. -/
  hash : Hash := 0#256
  /-- [R331 16] blocks received, by offset / 4,096. -/
  blocks : Tbl Bytes := []
  deriving DecidableEq, Repr

/-- A meter image (R339). -/
structure MeterImg where
  /-- [R339 16] length named at begin. -/
  length : Nat
  /-- [R339 16] blocks received. -/
  blocks : Tbl Bytes
  /-- [R339 16] usable. -/
  usable : Bool
  deriving DecidableEq, Repr

/-- A campaign (R340, R417). -/
structure Campaign where
  /-- [R417 20] calendar (true) or image. -/
  calendar : Bool
  /-- [R340 16] image number, or the plan of a calendar campaign. -/
  image : Nat
  /-- [R340 16] multicast rounds asked for. -/
  rounds : Nat
  /-- [R340 16] block size. -/
  block : Nat
  /-- [R340 16] Bramble campaign interval. -/
  interval : Nat
  /-- [R340 16] activation instant on TB3, legal s; none by command. -/
  activation : Option Nat
  /-- [R340 16] content bits of a calendar push. -/
  content : Nat
  /-- [R340 16] slots: slot, phase, last image_transfer_status, failed requests in a row. -/
  slots : List (Nat × Nat × Nat × Nat)
  /-- [R340 16] ended. -/
  ended : Bool
  /-- [R341 16] multicast rounds run, by network. -/
  roundsDone : Tbl Nat
  /-- [R343 14] device ID, session and tag of its command, for mirroring. -/
  origin : Word × Word × Word
  /-- [R343 14] its descriptor as fetched, 64 B. -/
  desc : Bytes
  deriving DecidableEq, Repr

/-- Own firmware (16). -/
structure Firmware where
  /-- [R330 16] slot A; confirmed at manufacture. -/
  a : Img := { state := .confirmed }
  /-- [R330 16] slot B. -/
  b : Img := {}
  /-- [R330 16] active slot: true B. -/
  activeB : Bool := false
  /-- [R330 16] running slot: true B. -/
  runningB : Bool := false
  /-- [R338 16] security version floor. -/
  floor : Nat := 0
  /-- [R336 16] TB6 ns of ACTIVATE. -/
  trialAt : Nat := 0
  /-- [R337 16] FW_TRIAL_EXPIRED has been raised. -/
  expired : Bool := false
  /-- [R332 16] the staged copy: digests of components by kind. -/
  staged : Option (List (Nat × Bytes)) := none
  /-- [R376 19] the running copy: digests of components by kind. -/
  running : List (Nat × Bytes) := [(2, Config.factoryDigest 2), (3, Config.factoryDigest 3), (4, Config.factoryDigest 4)]
  deriving DecidableEq, Repr

/-! ### Power domains and Hawthorn (17) -/

/-- A power domain (R345 to R356); states are the codes 0 to 4 of the ladder. -/
structure Dom where
  /-- [R356 17] STATE. -/
  state : Nat := 0
  /-- [R348 R356 17] ENTERING, with the state the entry in progress leads to. -/
  entering : Option Nat := none
  /-- [R353 17] WATCH. -/
  watch : Bool := false
  /-- [R354 17] operating point. -/
  point : Nat := 0
  /-- [R352 17] PWR_LIMIT. -/
  limit : Word := 4#32
  /-- [R352 17] IDLE_TRIM, IDLE_REST, IDLE_DORMANT, IDLE_WINTER. -/
  timers : List Nat := [1000, 10000, 100000, 1000000]
  /-- [R356 17] ENTRIES. -/
  entries : Word := 0#32
  /-- [R356 17] ABORTS. -/
  aborts : Word := 0#32
  /-- [R356 17] REFUSALS. -/
  refusals : Word := 0#32
  /-- [R349 17] LAST_ABORT: point, target. -/
  lastAbort : Nat × Nat := (0, 0)
  /-- [R355 17] refusal log, newest first, at most 16: refuser, state refused, TB6 µs. -/
  log : List (Nat × Nat × Nat) := []
  /-- [R355 17] newest index of the log. -/
  head : Nat := 0
  /-- [R355 17] refusers already counted in this idle period. -/
  refusedBy : List Nat := []
  /-- [R356 17] residency in ns by state, without the present stay. -/
  residency : List Nat := [0, 0, 0, 0, 0]
  /-- [R356 17] TB6 ns at which the present state began. -/
  since : Nat := 0
  /-- [R354 17] consecutive DVFS windows below 5 %. -/
  low : Nat := 0
  /-- [R351 17] wake attempts that failed. -/
  wakeFails : Nat := 0
  deriving DecidableEq, Repr

/-- A grant of Hawthorn (R360). -/
structure Grant where
  /-- [R360 17] requester. -/
  who : Nat
  /-- [R360 17] age of the request. -/
  age : Word
  /-- [R360 17] declared length. -/
  length : Nat
  /-- [R363 17] locked. -/
  locked : Bool
  /-- [R364 17] cycle at which it was granted. -/
  at_ : Nat
  /-- [R359 17] the resources its request named. -/
  wants : List Nat
  deriving DecidableEq, Repr

/-- A request waiting at Hawthorn (R359, R360). -/
structure Request where
  /-- [R359 17] requester. -/
  who : Nat
  /-- [R359 17] resources it may take: one, or the members of a pool, rising. -/
  wants : List Nat
  /-- [R360 17] age. -/
  age : Word
  /-- [R360 17] declared length. -/
  length : Nat
  /-- [R363 17] locked sequence. -/
  locked : Bool
  deriving DecidableEq, Repr

/-- Power domains and the arbiter (17). -/
structure Power where
  /-- [R13 01] intake entries in the crossing FIFO toward a quad below RUN, in the order sent: quad, take sequence. -/
  crossing : List (Nat × Nat) := []
  /-- [R13 01] Ethernet frames in the crossing FIFO toward a port below RUN, in the order sent: domain, frame. -/
  sending : List (Nat × Out) := []
  /-- [R13 01] domains for which a crossing has raised a wake request. -/
  wakes : List Nat := []
  /-- [R345 17] domains that differ from their reset state. -/
  doms : Tbl Dom := []
  /-- [R364 17] HW_HOLD_LIMIT. -/
  holdLimit : Word := 4096#32
  /-- [R364 17] HW_DISABLED. -/
  disabled : Word := 0#32
  /-- [R362 17] HW_REVOKES. -/
  revokes : Word := 0#32
  /-- [R364 17] HW_CUTOFFS. -/
  cutoffs : Word := 0#32
  /-- [R361 17] HW_RES: grants and longest wait by resource. -/
  res : Tbl (Word × Word) := []
  /-- [R360 17] owners by resource. -/
  owners : Tbl Grant := []
  /-- [R360 17] waiting requests, in arrival order. -/
  queue : List Request := []
  /-- [R364 17] TB6 ns of cut-offs by requester, latest first. -/
  cutHistory : List (Nat × Nat) := []
  /-- [R364 17] requesters disabled until reset. -/
  dead : List Nat := []
  /-- [R351 17] engines disabled by a failed wake. -/
  deadEngines : List Nat := []
  deriving DecidableEq, Repr

/-! ### Laurel (18) -/

/-- A panel segment (R370, R371). -/
structure Seg where
  /-- [R370 18] book. DC -/
  book : Int := 0
  /-- [R371 18] state: 0 CLEAR, 1 DARK, 2 UNKNOWN. DC -/
  state : Nat := 0
  /-- [R371 18] INTERRUPTED. -/
  interrupted : Bool := false
  /-- [R371 18] target of the running or interrupted update. -/
  target : Nat := 0
  deriving DecidableEq, Repr

/-- A segment's drive in the running update (R368). -/
structure Drive where
  /-- [R368 18] segment. -/
  seg : Nat
  /-- [R369 18] codes still owed, next first. -/
  codes : List Nat
  /-- [R368 18] state at the end. -/
  target : Nat
  /-- [R372 18] it runs the recovery waveform. -/
  recovery : Bool
  deriving DecidableEq, Repr

/-- Laurel (18). -/
structure Laurel where
  /-- [R373 18] LAUREL_CTRL. -/
  ctrl : Word := 0#32
  /-- [R368 18] BUSY with the drives of the running update. -/
  running : Option (List Drive) := none
  /-- [R368 18] an UPDATE waits for the next frame boundary: FORCE_ALL. -/
  requested : Option Bool := none
  /-- [R368 18] PENDING, with the merged FORCE_ALL. -/
  pending : Option Bool := none
  /-- [R372 18] segments a DISPLAY_RECOVER asks for. -/
  recoverMask : BitVec 80 := 0#80
  /-- [R369 18] REFUSED. -/
  refused : Bool := false
  /-- [R372 18] RECOVERING. -/
  recovering : Bool := false
  /-- [R366 18] PUMP_OK. -/
  pumpOk : Bool := false
  /-- [R366 18] TB6 ns of the pump start; none before the first update. -/
  pumpAt : Option Nat := none
  /-- [R367 18] band in force. -/
  band : Nat := 0
  /-- [R369 18] REASON. -/
  reason : Nat := 0
  /-- [R366 18] VBP of the running update, signed 25 mV. -/
  vbp : Int := 0
  /-- [R367 18] PANEL_TEMP. -/
  panelTemp : Word := 0#32
  /-- [R367 18] TEMP_OFFSET. -/
  tempOffset : Word := 0#32
  /-- [R370 18] BOOK_LIMIT. -/
  bookLimit : Word := 24000#32
  /-- [R368 18] UPDATE_COUNT. -/
  updates : Word := 0#32
  /-- [R371 18] the book page the last flush wrote. -/
  page : Bytes := []
  /-- [R370 18] segments that differ from their reset state. -/
  segs : Tbl Seg := []
  /-- [R58 18] frame memory: targets, band table, waveform sets and boot strip, by window offset; an unlisted byte reads zero. DC log 7 -/
  mem : List Host.Cell := []
  /-- [R373 18] VP level of the strip's common electrode. DC -/
  vp : Bool := false
  /-- [R373 18] TB6 second in which VP last inverted. -/
  vpSecond : Nat := 0
  /-- [R373 18] boot strip code shown by the device: 1 to 7 S1 to S7, 8 F, 9 to 14 H1 to H6, 15 to 18 E1 to E4, 0 none. -/
  code : Nat := 1
  deriving DecidableEq, Repr

/-! ### Downlink (20) -/

/-- A unicast downlink command whose outcome is not known (R416). -/
structure DlCmd where
  /-- [R416 20] index that names it inside the device. MODEL -/
  index : Nat
  /-- [R307 14] original device ID, session and tag. -/
  origin : Word × Word × Word
  /-- [R416 20] ring that holds its descriptor slot. -/
  ring : Nat
  /-- [R416 20] slot. -/
  slot : Nat
  /-- [R415 20] opcode. -/
  opcode : Nat
  /-- [R415 20] the xDLMS request it carries. -/
  request : Bytes
  /-- [R415 20] TB7 ns at which it expires. -/
  expiry : Nat
  /-- [R304 14] mirrored and acknowledged, or no mirror needed: it may be sent. -/
  ready : Bool
  /-- [R416 20] its first request has been sent. -/
  sent : Bool
  /-- [R416 20] its present request has its place or has been delivered. MODEL -/
  out : Bool := false
  /-- [R306 14] adopted from the partner. -/
  adopted : Bool
  /-- [R304 14] its descriptor as fetched, 64 B; for a request of a campaign, the blocks still to send, 4 B each. -/
  desc : Bytes
  /-- [R152 07] value bytes received so far in datablocks. -/
  got : Bytes := []
  deriving DecidableEq, Repr

/-- An adopted command's outcome (R307). -/
structure Adopted where
  /-- [R307 14] original device ID, session and tag. -/
  origin : Word × Word × Word
  /-- [R307 14] slot. -/
  slot : Nat
  /-- [R307 14] outcome and DLMS result. -/
  outcome : Nat × Nat
  /-- [R307 14] response ASN. -/
  asn : Nat
  /-- [R307 14] TB7 ns of the outcome. -/
  at_ : Nat
  deriving DecidableEq, Repr

/-- A queued downlink APDU in core role (R418). -/
structure DlApdu where
  /-- [R418 20] downlink sequence. -/
  seq : Nat
  /-- [R418 20] slot. -/
  slot : Nat
  /-- [R418 20] APDU. -/
  apdu : Bytes
  /-- [R416 20] the command it belongs to; none for a campaign. -/
  owner : Option Nat
  deriving DecidableEq, Repr

/-- Downlink to meters and campaigns (16, 20). -/
structure Downlink where
  /-- [R416 20] commands without an outcome. -/
  cmds : List DlCmd := []
  /-- [R416 20] indices handed out. MODEL -/
  count : Nat := 0
  /-- [R307 14] adopted commands, oldest first, at most 4,096. -/
  adopted : List Adopted := []
  /-- [R418 20] queued APDUs, oldest first. -/
  queue : List DlApdu := []
  /-- [R418 20] last downlink sequence. -/
  seq : Nat := 0
  /-- [R339 16] meter images 0 to 7. -/
  images : Tbl MeterImg := []
  /-- [R340 16] campaigns by number. -/
  campaigns : Tbl Campaign := []
  deriving DecidableEq, Repr

/-! ### What Coppice holds (R37, R42, R44) -/

/-- What a restart would find of the device had nothing committed later reached the NAND (R37). -/
structure Image where
  /-- [R20 01] DEVICE_ID. -/
  deviceId : Word := 0#32
  /-- [R23 01] background share. -/
  share : Nat := 10
  /-- [R40 02] hold-up budget. -/
  budget : Nat := 20
  /-- [R47 02] sessions, tag windows and completion records. -/
  sessions : List Session := []
  /-- [R50 R52 02] cursor, last sequence and highest sequence delivered, by ring. -/
  cursors : Tbl (DWord × DWord × Nat) := []
  /-- [R136 06] connection records. -/
  br : Bramble := {}
  /-- [R146 07] slots, shards, tables of readings and retained exports. -/
  met : Meters := {}
  /-- [R164 08] plans, marks and determinants. -/
  tar : Tariffs := {}
  /-- [R199 09] ledger. -/
  led : Ledger := {}
  /-- [R207 10] balance groups. -/
  lt : LossTheft := {}
  /-- [R236 11] zone record. -/
  zone : Option Zone := none
  /-- [R244 12] key slots of the vault store. -/
  keys : Tbl Key := []
  /-- [R260 12] highest token ID accepted. -/
  tokenId : Option Word := none
  /-- [R341 16] broadcast generations. -/
  bcastGen : Tbl Nat := []
  /-- [R285 13] storage parameters. -/
  params : StoreParams := {}
  /-- [R281 13] unreadable ranges. -/
  unreadable : List (Nat × Nat × Nat) := []
  /-- [R291 14] pair, witness and migration records. -/
  pair : Pair := {}
  /-- [R416 20] downlink commands and campaigns. -/
  dl : Downlink := {}
  /-- [R377 19] port configurations. -/
  ports : Tbl Port := []
  /-- [R321 15] hold period of Yew, days. -/
  hold : Nat := 3653
  deriving DecidableEq, Repr

/-- What is durable without the dirty sectors of the write buffer, and what each of them adds. -/
structure Past where
  /-- [R37 02] contents of the NAND alone. MODEL log 39 -/
  base : Image := {}
  /-- [R37 R42 02] contents once a dirty sector and all before it are programmed, by commit, oldest first. MODEL log 39 -/
  images : List (Nat × Image) := []
  deriving DecidableEq, Repr

/-! ### The machine -/

/-- The state of one KH-M20. -/
structure State where
  /-- Commands that wait, first in, first out. -/
  pending : List Instr := []
  /-- Power, reset and start-up. -/
  dev : Dev := {}
  /-- Protected SRAM and hold-up. -/
  prot : Protect := {}
  /-- HOST island. -/
  host : HostIf := {}
  /-- Ports and link channels. -/
  lane : Lane := {}
  /-- Hedgerow networks, by NETWORK_ID. -/
  hr : Tbl HrNet := []
  /-- Bramble. -/
  br : Bramble := {}
  /-- Meters, shards, exports. -/
  met : Meters := {}
  /-- Tariffs, marks, determinants. -/
  tar : Tariffs := {}
  /-- Box ledger. -/
  led : Ledger := {}
  /-- Loss and theft. -/
  lt : LossTheft := {}
  /-- TIME island. -/
  tim : TimeUnit := {}
  /-- Holly. -/
  vlt : Vault := {}
  /-- Coppice. -/
  cop : Coppice := {}
  /-- Pair, witness, migration. -/
  pair : Pair := {}
  /-- Yew. -/
  yew : Yew := {}
  /-- Own firmware. -/
  fw : Firmware := {}
  /-- Power domains and Hawthorn. -/
  pwr : Power := {}
  /-- Laurel. -/
  lau : Laurel := {}
  /-- Downlink and campaigns. -/
  dl : Downlink := {}
  /-- What the NAND holds of all this. -/
  past : Past := {}
  /-- How many open values have been drawn (assumption log 2). MODEL -/
  free : Nat := 0
  deriving DecidableEq, Repr

/-- The factory keys of slots 0, 3 and 4: identity, maintenance and firmware keys (R243). Their public parts are the fuses'
own (assumption log 2); the private part of slot 0 is named by its key ID and never held as bytes. -/
def factoryKeys : Tbl Key :=
  [(0, { use := 6, alg := 4, origin := 0, factory := true, label := 0, key := [], pub := Config.factoryPublic 0, created := 0 }),
   (3, { use := 7, alg := 5, origin := 0, factory := true, label := 0, key := Config.factoryPublic 3,
         pub := Config.factoryPublic 3, created := 0 }),
   (4, { use := 7, alg := 5, origin := 0, factory := true, label := 0, key := Config.factoryPublic 4,
         pub := Config.factoryPublic 4, created := 0 })]

/-- The machine with its supplies up, nothing durable but what manufacture left, and RESET_N low: every register at the
value of its Reset column, every table empty (R374, power-on). -/
def State.reset : State := { vlt := { keys := factoryKeys } }

end Sys2Proof.Machine
end

