-- ==== Sys2Proof/Machine/Tables.lean ====
section
/-!
DEFINITION. Sparse tables and byte memories: pairs of a key and a value, keys strictly rising; a memory lists no byte
equal to what an unlisted address reads as (zero, assumption log 7).
-/

namespace Sys2Proof.Machine

/-- The value a key holds, if any. -/
def Tbl.get {α : Type} : Tbl α → Nat → Option α
  | [], _ => none
  | (k, v) :: t, n => if k = n then some v else Tbl.get t n

/-- The value a key holds, or a default. -/
def Tbl.getD {α : Type} (t : Tbl α) (n : Nat) (d : α) : α := (Tbl.get t n).getD d

/-- The table with a key set; rising keys stay rising. -/
def Tbl.put {α : Type} : Tbl α → Nat → α → Tbl α
  | [], n, v => [(n, v)]
  | (k, w) :: t, n, v =>
    if n < k then (n, v) :: (k, w) :: t
    else if n = k then (n, v) :: t
    else (k, w) :: Tbl.put t n v

/-- The table without a key. -/
def Tbl.del {α : Type} : Tbl α → Nat → Tbl α
  | [], _ => []
  | (k, w) :: t, n => if k = n then Tbl.del t n else (k, w) :: Tbl.del t n

/-- The table with the value of a key it holds changed; unchanged where it holds none. -/
def Tbl.mod {α : Type} (t : Tbl α) (n : Nat) (f : α → α) : Tbl α :=
  match Tbl.get t n with
  | some v => Tbl.put t n (f v)
  | none => t

/-- The table with a key's value changed, starting from a default where it holds none. -/
def Tbl.upd {α : Type} (t : Tbl α) (n : Nat) (d : α) (f : α → α) : Tbl α := Tbl.put t n (f (Tbl.getD t n d))

/-- The table with every value changed. -/
def Tbl.mapVals {α β : Type} (t : Tbl α) (f : Nat → α → β) : Tbl β := t.map fun p => (p.1, f p.1 p.2)

/-- The keys. -/
def Tbl.keys {α : Type} (t : Tbl α) : List Nat := t.map Prod.fst

/-- Every key of the table lies above a bound, and keys rise strictly. -/
def Tbl.above {α : Type} : Nat → Tbl α → Bool
  | _, [] => true
  | b, (k, _) :: t => decide (b < k) && Tbl.above k t

/-- The canonical form of a table: keys strictly rising. -/
def Tbl.wf {α : Type} : Tbl α → Bool
  | [] => true
  | (k, _) :: t => Tbl.above k t

/-- A byte memory: an unlisted address reads as zero (assumption log 7). -/
abbrev Memory := List Host.Cell

/-- The byte at an address. -/
def Memory.read : Memory → Nat → Byte
  | [], _ => 0#8
  | (k, b) :: t, a => if k = a then b else Memory.read t a

/-- The memory with one byte written; writing what an unlisted address reads as removes the entry. -/
def Memory.write (m : Memory) (a : Nat) (b : Byte) : Memory :=
  if b = 0#8 then Tbl.del m a else Tbl.put m a b

/-- The canonical form of a memory: addresses strictly rising and no entry zero. -/
def Memory.wf (m : Memory) : Bool := Tbl.wf m && m.all fun c => c.2 != 0#8

/-- A run of bytes read from an address upward. -/
def Memory.readN (m : Memory) (a : Nat) : Nat → Bytes
  | 0 => []
  | n + 1 => Memory.read m a :: Memory.readN m (a + 1) n

/-- A run of bytes written from an address upward. -/
def Memory.writeN : Memory → Nat → Bytes → Memory
  | m, _, [] => m
  | m, a, b :: bs => Memory.writeN (Memory.write m a b) (a + 1) bs

end Sys2Proof.Machine
end

