-- ==== Sys2Proof/Machine/Flags.lean ====
section
/-!
DEFINITION. What the device works out from its state: the time bases as they read, the ceiling and the dirty bytes,
the status bits and the registers that show them.
-/

namespace Sys2Proof.Machine

/-! ### Time bases (11) -/

/-- Units of a time base in one nanosecond (State's header). -/
def nsUnit : Nat := 10 ^ 12

/-- Nanoseconds in a second. -/
def nsPerS : Nat := 10 ^ 9

/-- TB2 in ns. -/
def tb2 (s : State) : Nat := s.tim.tb2 / nsUnit

/-- TB6 in ns. -/
def tb6 (s : State) : Nat := s.tim.tb6 / nsUnit

/-- TB7 in ns. -/
def tb7 (s : State) : Nat := s.tim.tb7 / nsUnit

/-- TB4 in ns. -/
def tb4 (s : State) : Nat := s.tim.tb4 / nsUnit

/-- TB5 in ns. -/
def tb5 (s : State) : Nat := s.tim.tb5 / nsUnit

/-- TB2 in TAI seconds. -/
def tb2s (s : State) : Nat := tb2 s / nsPerS

/-- Something that ended at a TAI second has passed a retention in days. -/
def passed (s : State) (end_ days : Nat) : Bool := decide (end_ + days * 86400 < tb2s s)

/-- The 96-bit timestamp of a base held in units of 10^-12 ns (R224). -/
def stamp96 (units : Nat) : Nat :=
  let ns := units / nsUnit
  let frac := (units % nsUnit) * 65536 / nsUnit
  frac + 2 ^ 16 * (ns % nsPerS) + 2 ^ 48 * (ns / nsPerS % 2 ^ 48)

/-- The 12 bytes of a timestamp given in ns (R224). -/
def stampNs (ns : Nat) : Bytes := le 12 (stamp96 (ns * nsUnit))

/-- The stored status of a base. -/
def tbStat (s : State) (n : Nat) : TbStat := Tbl.getD s.tim.stat n {}

/-- TB2 is valid (R227, R234). -/
def tb2Valid (s : State) : Bool := (tbStat s 2).valid

/-- TB3 is valid: TB2 is and a zone record is loaded (R236). -/
def tb3Valid (s : State) : Bool := tb2Valid s && s.tim.zone.isSome

/-- TBn_STATUS (R239). TB3 takes its first four bits from TB2; TB6 and TB7 run from their start on and read VALID
(assumption log 10). -/
def tbStatusWord (s : State) (n : Nat) : Word :=
  let t := tbStat s n
  let b := tbStat s (if n = 3 then 2 else n)
  let valid := if n = 3 then tb3Valid s else if n = 6 || n = 7 then decide (s.dev.phase = .running) else b.valid
  BitVec.ofNat 32 (flag 0 valid + flag 1 b.following + flag 2 b.holdover + flag 3 b.slewing
    + flag 4 (n == 3 && t.leap) + 2 ^ 8 * min t.steps 255)

/-- The time an event carries in Yew: TB2, or TB7 with the mark set while TB2 is invalid (R317). -/
def yewStamp (s : State) : BitVec 96 × Bool :=
  if tb2Valid s then (BitVec.ofNat 96 (stamp96 s.tim.tb2), false) else (BitVec.ofNat 96 (stamp96 s.tim.tb7), true)

/-! ### Protected SRAM (02) -/

/-- Dies, populated channels w and dies per channel g of a fitting (R264). -/
def fitDies (f : Fitting) : Nat := f.onChan.sum
def chansOf (f : Fitting) : Nat := (f.onChan.filter fun n => n != 0).length
def perChanOf (f : Fitting) : Nat := f.onChan.headD 0

/-- Raw NAND capacity of a fitting in bytes. -/
def fitCapacity (f : Fitting) : Nat := fitDies f * f.dieGib * 2 ^ 30

/-- NAND dies fitted (R264). -/
def diesFitted (s : State) : Nat := fitDies s.dev.fit

/-- The device uses its NAND: its configuration is valid (R263). -/
def nandUsed (s : State) : Bool := !s.dev.held.contains 2

/-- Dies still working (R263, R283). -/
def diesWorking (s : State) : Nat := if nandUsed s then diesFitted s - s.cop.deadDies.length else 0

/-- The ceiling C of a budget in ms (R38): budget × dies × 40 MB/s × 0.8, at most 16 MiB, in whole 4 KiB. -/
def ceilingOf (s : State) (budget : Nat) : Nat := min (2 ^ 24) (budget * diesWorking s * 32000) / 4096 * 4096

/-- The ceiling C in force. -/
def ceiling (s : State) : Nat := ceilingOf s s.prot.budget

/-- The shared limit S = C − 139,264 B (R38). -/
def sharedLimit (s : State) : Nat := ceiling s - 139264

/-- Bytes of an intake entry: its header and the frame padded to 32 B (R433). -/
def intakeSize (frame : Bytes) : Nat := 32 + (frame.length + 31) / 32 * 32

/-- Bytes the intake entries take. -/
def intakeBytes (s : State) : Nat := (s.prot.intake.map fun e => intakeSize e.frame).sum

/-- Dirty bytes of the intake buffer and the write buffer together (R39). -/
def dirtyShared (s : State) : Nat := intakeBytes s + 4096 * s.cop.buffer.length

/-- Dirty protected bytes of every kind (R38, R414): the shared buffers, 8 B per journal tail entry, one 4 KiB page while a
mark is not journaled, and the page of the DC-balance book (assumption log 11). -/
def dirtyBytes (s : State) : Nat :=
  dirtyShared s + 8 * s.cop.tail.length + (if s.prot.marksPending = 0 then 0 else 4096)
    + (if s.lau.segs = [] then 0 else 4096)

/-- Taking is refused (R39, R53, R284). -/
def takingRefused (s : State) : Bool := s.dev.refusedShared || s.dev.refusedBacklog || s.dev.refusedSpare

/-- The Length of a record: header and payload padded to 64 B (table Export record header). -/
def recLength (r : Rec) : Nat := 64 + (r.payload.length + 63) / 64 * 64

/-- The export backlog: every record retained (R53). -/
def backlog (s : State) : Nat := (s.met.records.map recLength).sum

/-- The export backlog limit in force (R53). -/
def backlogLimit (s : State) : Nat := s.cop.params.backlog.getD (if s.dev.core then 64 * 2 ^ 30 else 8 * 2 ^ 30)

/-! ### Identity and capability block (03, 19) -/

/-- ACCEPTING (R383), and acceptance not stopped by a failed part (R288, R351). -/
def accepting (s : State) : Bool :=
  s.dev.devReady && s.dev.deviceId != 0#32 && tb3Valid s && s.dev.replayed && !takingRefused s && !s.dev.acceptStopped

/-- The image slot that runs. -/
def runningImg (s : State) : Img := if s.fw.runningB then s.fw.b else s.fw.a

/-- FW_TRIAL: the running image is unconfirmed. -/
def fwTrial (s : State) : Bool := decide ((runningImg s).state = .trial)

/-- DEV_STATUS (table DEV_STATUS); a bit a later start-up step sets is clear until that step, as DEVICE_ID is zero (R432). -/
def devStatus (s : State) : Word :=
  BitVec.ofNat 32 (flag 0 s.dev.mboxReady + flag 1 s.dev.devReady + flag 2 s.dev.core + flag 3 s.dev.rebuild
    + flag 4 (accepting s) + flag 5 (s.dev.dramShort && decide (6 ≤ s.dev.bootStep)) + flag 6 (fwTrial s && decide (5 ≤ s.dev.bootStep))
    + flag 7 (s.dev.deviceId == 0#32 || decide (s.dev.bootStep < 7)) + flag 8 (takingRefused s && decide (9 ≤ s.dev.bootStep)))

/-- An authority key is enrolled (R259). -/
def enrolled (s : State) : Bool := (Tbl.get s.vlt.keys 2).isSome

/-- CAPS (table CAPS). -/
def capsWord (s : State) : Word :=
  BitVec.ofNat 32 (flag 0 (s.host.sessions.any fun x => x.role == 2) + flag 1 (s.host.sessions.any fun x => x.role == 3)
    + flag 2 s.vlt.maintUnlocked.isSome + flag 3 s.dev.debugUnlocked + flag 4 (enrolled s)
    + 2 ^ 8 * s.host.sessions.length + 2 ^ 16 * s.host.tokens.length)

/-- Raw NAND capacity in bytes. -/
def rawCapacity (s : State) : Nat := fitCapacity s.dev.fit

/-- DRAM_REQUIRED in MiB (R22). -/
def dramRequired (s : State) : Nat :=
  let h := if s.dev.core then 16 * 2 ^ 30 else 2 ^ 30
  let w := if s.dev.core then 3 * 2 ^ 29 else 2 ^ 29
  let m := rawCapacity s / 1024
  ceilDiv ((h + m + w) * 32) (31 * (256 * 2 ^ 20)) * 256

/-- FW_SLOT. -/
def fwSlotWord (s : State) : Word := BitVec.ofNat 32 (flag 0 s.fw.runningB + flag 1 (fwTrial s))

/-- The lowest hold code in force, 0 for none (R384). -/
def heldCode (s : State) : Nat := s.dev.held.headD 0

/-- RESET_CAUSE (R384). -/
def resetCause (s : State) : Word :=
  BitVec.ofNat 32 (s.dev.cause % 8 + flag 3 s.dev.flushFound + flag 4 s.dev.flushIncomplete + flag 5 s.dev.aoRan
    + 2 ^ 8 * heldCode s + 2 ^ 16 * (s.dev.readyTime % 2 ^ 16))

/-- What the endpoint says of itself in configuration space: Vendor ID, Device ID and class code (table PCIe endpoint). -/
def endpointIds : Nat × Nat × Nat := (0x1F3B, 0x0D20, 0x118000)

/-- A register of the identity and capability block (table Identity and capability registers); one that a later start-up
step sets reads zero until that step (R432). -/
def identityReg (s : State) (off : Nat) : Word :=
  let after (n : Nat) (w : Word) : Word := if n ≤ s.dev.bootStep then w else 0#32
  match off with
  | 0x000 => BitVec.ofNat 32 (2 ^ 16 * endpointIds.2.1 + endpointIds.1)
  | 0x004 => s.dev.fit.stepping.zeroExtend 32
  | 0x008 => after 5 s.dev.ildinRel
  | 0x00C => devStatus s
  | 0x010 => capsWord s
  | 0x014 => after 7 s.dev.deviceId
  | 0x018 => after 6 (BitVec.ofNat 32 s.dev.fit.dramMib)
  | 0x01C => after 6 (BitVec.ofNat 32 (dramRequired s))
  | 0x020 => after 7 (BitVec.ofNat 32 (if s.dev.held.contains 2 then 0 else diesFitted s))
  | 0x024 => after 7 (BitVec.ofNat 32 (ceiling s))
  | 0x028 => after 5 (fwSlotWord s)
  | 0x02C => resetCause s
  | 0x030 => (s.dev.fit.serial.truncate 32)
  | 0x034 => ((s.dev.fit.serial >>> 32).truncate 32)
  | _ => 0#32

end Sys2Proof.Machine
end

