-- ==== Sys2Proof/Machine/Civil.lean ====
section
/-!
DEFINITION. Calendar arithmetic and legal time under a zone record (R235 to R238).
-/

namespace Sys2Proof.Machine

/-- Days from 1970-01-01 to a date of the Gregorian calendar (month 1 to 12, day from 1). -/
def daysOf (y m d : Nat) : Nat :=
  let y' := if m ≤ 2 then y - 1 else y
  let mp := (m + 9) % 12
  let doy := (153 * mp + 2) / 5 + (d - 1)
  y' * 365 + y' / 4 - y' / 100 + y' / 400 + doy - 719468

/-- The date of a day number: year, month, day. -/
def dateOf (days : Nat) : Nat × Nat × Nat :=
  let z := days + 719468
  let era := z / 146097
  let doe := z % 146097
  let yoe := (doe - doe / 1460 + doe / 36524 - doe / 146096) / 365
  let doy := doe - (365 * yoe + yoe / 4 - yoe / 100)
  let mp := (5 * doy + 2) / 153
  let d := doy - (153 * mp + 2) / 5 + 1
  let m := if mp < 10 then mp + 3 else mp - 9
  (yoe + era * 400 + (if m ≤ 2 then 1 else 0), m, d)

/-- Weekday of a day number, 1 Monday to 7 Sunday. -/
def weekdayOf (days : Nat) : Nat := (days + 3) % 7 + 1

/-- Days in a month. -/
def monthDays (y m : Nat) : Nat := if m = 12 then 31 else daysOf y (m + 1) 1 - daysOf y m 1

/-- The day number of a DST rule in a year: the week-th weekday of the month, 5 the last (R236). -/
def ruleDay (y : Nat) (r : Nat × Nat × Nat × Nat) : Nat :=
  let (month, week, wd, _) := r
  let first := daysOf y month 1
  let d := first + (wd + 7 - weekdayOf first) % 7 + 7 * (week - 1)
  if d < first + monthDays y month then d else d - 7

/-- The instant of a DST rule in a year, in seconds of standard legal time, `early` s before its minute; the calendar repeats every
400 years of 146,097 days. -/
def dstRuleAt (y : Nat) (r : Nat × Nat × Nat × Nat) (early : Nat) : Int :=
  ((ruleDay (y + 400) r : Int) - 146097) * 86400 + r.2.2.2 * 60 - early

/-- The latest instant of a DST rule up to a second of standard legal time: that of the year before, of the year or of the next,
since an end just after midnight of daylight time on 1 January lies in the old year of standard time. -/
def lastRule (r : Nat × Nat × Nat × Nat) (early : Nat) (std : Int) : Int :=
  let y := (dateOf (std / 86400).toNat).1
  [y, y + 1].foldl (fun m k => if dstRuleAt k r early ≤ std then max m (dstRuleAt k r early) else m) (dstRuleAt (y - 1) r early)

/-- DST applies at a second of standard legal time: its latest start lies after its latest end (R235, R236). -/
def dstAt (z : Zone) (std : Int) : Bool :=
  z.dst != 0 && decide (lastRule z.end_ (z.dst * 60) std < lastRule z.start 0 std)

/-- TAI−UTC in force at a TAI second (R236). -/
def taiUtc (z : Zone) (tai : Nat) : Nat := if z.leap ≠ 0 ∧ z.leap ≤ tai then z.taiAfter else z.tai

/-- UTC in ns at a TAI instant in ns; held through an inserted leap second (R235). -/
def utcNs (z : Zone) (tai : Nat) : Int :=
  let u : Int := (tai : Int) - (taiUtc z (tai / nsPerS) : Int) * nsPerS
  if z.leap ≠ 0 ∧ tai / nsPerS < z.leap ∧ z.tai < z.taiAfter then
    min u (((z.leap : Int) - z.taiAfter) * nsPerS - 1)
  else u

/-- Legal time in ns at a TAI instant in ns (R235). -/
def legalNs (z : Zone) (tai : Nat) : Nat :=
  let std := utcNs z tai + z.std * 60 * nsPerS
  (std + if dstAt z (std / nsPerS) then (z.dst : Int) * 60 * nsPerS else 0).toNat

/-- Legal seconds at a TAI second. -/
def legalS (z : Zone) (tai : Nat) : Nat := legalNs z (tai * nsPerS) / nsPerS

/-- The TAI second of a UTC second: the value after an announced leap from the leap instant on (R238). -/
def taiOfUtc (z : Zone) (utc : Int) : Nat :=
  if z.leap ≠ 0 ∧ (z.leap : Int) - z.taiAfter ≤ utc then (utc + z.taiAfter).toNat else (utc + z.tai).toNat

/-- The TAI second of a legal second. A hint says whether DST applies; without one a repeated time takes its first
occurrence and a time in a gap the first instant after it (R238). -/
def taiOfLegal (z : Zone) (legal : Int) (hint : Option Bool) : Nat :=
  let d : Int := z.dst * 60
  let utcOf (std : Int) : Nat := taiOfUtc z (std - z.std * 60)
  match hint with
  | some true => utcOf (legal - d)
  | some false => utcOf legal
  | none =>
    if z.dst = 0 then utcOf legal
    else if dstAt z (legal - d) then utcOf (legal - d)
    else if ¬ dstAt z legal then utcOf legal
    else utcOf (lastRule z.start 0 legal)

/-- TB3 in ns of legal time; zero while no zone record is loaded (R235, R236). -/
def tb3 (s : State) : Nat :=
  match s.tim.zone with
  | some z => legalNs z (tb2 s)
  | none => 0

/-- A quotient rounded half to even, for negative values too (R181, R154). -/
def halfEven (a : Int) (b : Nat) : Int :=
  let q := a / (b : Int)
  let r := a % (b : Int)
  if 2 * r < b then q else if (b : Int) < 2 * r then q + 1 else if q % 2 = 0 then q else q + 1

end Sys2Proof.Machine
end

