-- ==== Sys2Proof/Machine/Fields.lean ====
section
/-!
DEFINITION. One updater per group of the state: the group changed by a function, all else as it was.
-/

namespace Sys2Proof.Machine

/-- The state with its `dev` changed. -/
def State.onDev (s : State) (f : Dev → Dev) : State := { s with dev := f s.dev }

/-- The state with its `prot` changed. -/
def State.onProt (s : State) (f : Protect → Protect) : State := { s with prot := f s.prot }

/-- The state with its `host` changed. -/
def State.onHost (s : State) (f : HostIf → HostIf) : State := { s with host := f s.host }

/-- The state with its `lane` changed. -/
def State.onLane (s : State) (f : Lane → Lane) : State := { s with lane := f s.lane }

/-- The state with its `hr` changed. -/
def State.onHr (s : State) (f : Tbl HrNet → Tbl HrNet) : State := { s with hr := f s.hr }

/-- The state with its `br` changed. -/
def State.onBr (s : State) (f : Bramble → Bramble) : State := { s with br := f s.br }

/-- The state with its `met` changed. -/
def State.onMet (s : State) (f : Meters → Meters) : State := { s with met := f s.met }

/-- The state with its `tar` changed. -/
def State.onTar (s : State) (f : Tariffs → Tariffs) : State := { s with tar := f s.tar }

/-- The state with its `led` changed. -/
def State.onLed (s : State) (f : Ledger → Ledger) : State := { s with led := f s.led }

/-- The state with its `lt` changed. -/
def State.onLt (s : State) (f : LossTheft → LossTheft) : State := { s with lt := f s.lt }

/-- The state with its `tim` changed. -/
def State.onTim (s : State) (f : TimeUnit → TimeUnit) : State := { s with tim := f s.tim }

/-- The state with its `vlt` changed. -/
def State.onVlt (s : State) (f : Vault → Vault) : State := { s with vlt := f s.vlt }

/-- The state with its `cop` changed. -/
def State.onCop (s : State) (f : Coppice → Coppice) : State := { s with cop := f s.cop }

/-- The state with its `pair` changed. -/
def State.onPair (s : State) (f : Pair → Pair) : State := { s with pair := f s.pair }

/-- The state with its `yew` changed. -/
def State.onYew (s : State) (f : Yew → Yew) : State := { s with yew := f s.yew }

/-- The state with its `fw` changed. -/
def State.onFw (s : State) (f : Firmware → Firmware) : State := { s with fw := f s.fw }

/-- The state with its `pwr` changed. -/
def State.onPwr (s : State) (f : Power → Power) : State := { s with pwr := f s.pwr }

/-- The state with its `lau` changed. -/
def State.onLau (s : State) (f : Laurel → Laurel) : State := { s with lau := f s.lau }

/-- The state with its `dl` changed. -/
def State.onDl (s : State) (f : Downlink → Downlink) : State := { s with dl := f s.dl }

/-- The state with the count of open values drawn advanced by one. -/
def State.draw (s : State) : State := { s with free := s.free + 1 }

end Sys2Proof.Machine
end

