-- ==== Sys2Proof/Machine/Nand.lean ====
section
/-!
DEFINITION. The NAND as Coppice keeps it, whatever raises an operation: regions, sector tags, streams, rows and their parity, the
map, the journal, checkpoints, anchor records and the rebuild (13, R38). Each operation acts on Coppice's own state under a fitting.
-/

namespace Sys2Proof.Machine

/-! ### The fitting (R264, R265) -/

/-- Blocks of a die; sectors and pages of a log block. -/
def dieBlocks (f : Fitting) : Nat := f.dieGib * 1024 / f.blockMib
def blockSectors (f : Fitting) : Nat := f.blockMib * 256
def blockPages (f : Fitting) : Nat := f.blockMib * 64

/-- The die of a block, and the stripe group of a die: dies are counted chip enable by chip enable over the channels. -/
def dieOf (f : Fitting) (b : Nat) : Nat := b / dieBlocks f
def stripeOf (f : Fitting) (die : Nat) : Nat := die / chansOf f

/-- LSNs: one for every 4 KiB of raw capacity (R268). -/
def lsnCount (f : Fitting) : Nat := fitCapacity f / 4096

/-- Map segments (R268). -/
def segCount (f : Fitting) : Nat := ceilDiv (lsnCount f) 4096

/-- The regions (table Regions). -/
inductive Region where
  | anchor | flush | journal | parity | vault | yew | log
  deriving DecidableEq, Repr

/-- Blocks a pSLC size in bytes takes: a third of a block's TLC capacity each (table Regions). -/
def slcBlocks (f : Fitting) (bytes : Nat) : Nat := ceilDiv (3 * bytes) (f.blockMib * 2 ^ 20)

/-- Bytes of the journal ring and of the parity ring (table Regions). -/
def journalSize (f : Fitting) : Nat := max (fitCapacity f / 512) (2 ^ 30)
def paritySize (f : Fitting) : Nat := max (fitCapacity f / 1024) (2 ^ 28)

/-- JOURNAL sectors the journal ring holds, and pages the parity ring holds. -/
def ringSectors (f : Fitting) : Nat := journalSize f / 4096
def parityPages (f : Fitting) : Nat := paritySize f / 16384

/-- What falls to a die of so many blocks spread over the dies. -/
def spreadOn (f : Fitting) (n die : Nat) : Nat := n / fitDies f + (if die < n % fitDies f then 1 else 0)

/-- The blocks a die gives each region but the log, in the order of their placement: the flush two on every die, anchor and vault
store two on dies of different channels, the rings and Yew spread over the dies (table Regions; which good blocks of a die they
are is the model's choice, assumption log 49). -/
def regionsOn (f : Fitting) (die : Nat) : List (Region × Nat) :=
  let two := if chansOf f ≤ 1 then (if die = 0 then 2 else 0) else (if die < 2 then 1 else 0)
  [(.flush, 2), (.anchor, two), (.vault, two), (.journal, spreadOn f (slcBlocks f (journalSize f)) die),
   (.parity, spreadOn f (slcBlocks f (paritySize f)) die), (.yew, spreadOn f (slcBlocks f (2 ^ 28)) die)]

/-- Blocks of a die in all regions but the log. -/
def regionBlocksOn (f : Fitting) (die : Nat) : Nat := ((regionsOn f die).map Prod.snd).sum

/-- The good blocks of a die. -/
def goodOn (f : Fitting) (die : Nat) : List Nat :=
  ((List.range (dieBlocks f)).map fun i => die * dieBlocks f + i).filter fun b => !decide (b ∈ f.bad)

/-- The region of the good block at a place of its die. -/
def regionAt : List (Region × Nat) → Nat → Region
  | [], _ => .log
  | (r, n) :: t, i => if i < n then r else regionAt t (i - n)

/-- The region of a block; none of a bad one (R265). -/
def regionOf (f : Fitting) (b : Nat) : Option Region :=
  ((goodOn f (dieOf f b)).idxOf? b).map (regionAt (regionsOn f (dieOf f b)))

/-- The log's blocks with the spare pool, die after die at each place. -/
def logAndSpare (f : Fitting) : List Nat :=
  ((List.range (fitDies f)).map fun d => (goodOn f d).drop (regionBlocksOn f d)).transpose.flatten

/-- How many they are. -/
def logAndSpareCount (f : Fitting) : Nat :=
  ((List.range (fitDies f)).map fun d =>
    dieBlocks f - ((f.bad.dedup.filter fun b => dieOf f b == d).length) - regionBlocksOn f d).sum

/-- Blocks of the log and of the spare pool, 4 % of the log's, as first formatted (R265). -/
def logBlocksOf (f : Fitting) : Nat := logAndSpareCount f * 100 / 104
def spareOf (f : Fitting) : Nat := logAndSpareCount f - logBlocksOf f

/-- FREE_TARGET in blocks (R278, R285). -/
def freeTargetOf (f : Fitting) (c : Coppice) : Nat := ceilDiv (c.params.freeTarget * logBlocksOf f) 10000

/-! ### Tags (R266) -/

/-- A sector tag as the spare area holds it (table Sector tag). -/
def tagBytes (t : SectorTag) : Bytes :=
  let h := le 4 t.num ++ le 6 t.seq ++ le 1 t.type ++ le 1 t.stream ++ zeros 2
  h ++ le 2 (crc16 h).toNat

/-- Tag types. -/
def tgData : Nat := 0x01
def tgCheckpoint : Nat := 0x02
def tgBlockTable : Nat := 0x03
def tgYew : Nat := 0x08
def tgFiller : Nat := 0x0A

/-- What is programmed in a block. -/
def mediaOf (c : Coppice) (b : Nat) : List (Nat × SectorTag) := Tbl.getD c.media b []

/-- The write sequence of a block's first sector (R270). -/
def firstSeq (c : Coppice) (b : Nat) : Nat := match mediaOf c b with | (_, t) :: _ => t.seq | [] => 0

/-! ### The journal (R273) -/

/-- Sectors programmed anywhere: the write sequence rises by one for each (R267). -/
def Coppice.programmedN (n : Nat) (c : Coppice) : Coppice := { c with writeSeq := c.writeSeq + n, progSectors := c.progSectors + n }

/-- The journal tail goes to the ring as JOURNAL sectors of 512 entries; the ring overwrites its oldest sectors. -/
def Coppice.pourTail (f : Fitting) (c : Coppice) : Coppice :=
  let n := ceilDiv c.tail.length 512
  let new := (List.range n).map fun i => (c.ringNext + i, c.writeSeq + 1 + i, (c.tail.drop (512 * i)).take 512)
  let all := c.ring ++ new
  ({ c with ring := all.drop (all.length - ringSectors f), ringNext := c.ringNext + n, tail := [] }).programmedN n

/-- The ring would overwrite entries written after the last complete checkpoint (R273). -/
def Coppice.ringFull (f : Fitting) (c : Coppice) : Bool :=
  decide (ringSectors f < c.ringNext - c.ringFrom + ceilDiv c.tail.length 512)

/-- A change of the map or the block table becomes a journal entry; with 16,384 waiting the tail is written, unless a checkpoint must
come first (R38, R273, table Journal entry). -/
def Coppice.journal (f : Fitting) (op target value : Nat) (c : Coppice) : Coppice :=
  let c1 := { c with tail := c.tail ++ [BitVec.ofNat 64 (target % 2 ^ 29 + 2 ^ 29 * op + 2 ^ 32 * value)], tailSeq := c.writeSeq }
  if 16384 ≤ c1.tail.length ∧ ¬ c1.ringFull f then c1.pourTail f else c1

/-- The code of a block state in the journal, and the state of a code. -/
def blockCode : BlockState → Nat
  | .free => 0
  | .open_ => 1
  | .closed => 2
  | .verified => 3
  | .erasing => 4
  | .retired => 5

def blockStateOf (n : Nat) : BlockState :=
  match n with
  | 0 => .free
  | 1 => .open_
  | 2 => .closed
  | 3 => .verified
  | 4 => .erasing
  | _ => .retired

/-- A row of the block table. -/
def Coppice.block (c : Coppice) (b : Nat) : Block := Tbl.getD c.blocks b {}

/-- A block changes, and its new state is journaled (R270). -/
def Coppice.setBlock (f : Fitting) (b : Nat) (g : Block → Block) (c : Coppice) : Coppice :=
  let x := g (c.block b)
  ({ c with blocks := Tbl.put c.blocks b x }).journal f 3 b (blockCode x.state + 8 * x.pe)

/-- A map entry of a sector number (table Map entry). -/
def mapped (psn : Nat) : Word := BitVec.ofNat 32 (psn % 2 ^ 29 + 2 ^ 31)

/-- The map segment of a logical sector (R268). -/
def segmentOf (lsn : Nat) : Nat := lsn / 4096

/-- The segments of a run of logical sectors have changed since the last checkpoint. -/
def Coppice.touchRun (lsn n : Nat) (c : Coppice) : Coppice :=
  let new := (List.range (segmentOf (lsn + n - 1) + 1 - segmentOf lsn)).map fun i => segmentOf lsn + i
  { c with changed := (new.filter fun k => !decide (k ∈ c.changed)) ++ c.changed }

/-- A segment has changed since the last checkpoint. -/
def Coppice.touch (lsn : Nat) (c : Coppice) : Coppice := c.touchRun lsn 1

/-- A map entry moves, journaled (R273). -/
def Coppice.moveMap (f : Fitting) (lsn psn : Nat) (c : Coppice) : Coppice :=
  (({ c with map := Tbl.put c.map lsn (mapped psn) }).touch lsn).journal f 0 lsn (mapped psn).toNat

/-- A run of logical sectors is released by TRIM (R273). -/
def Coppice.trim (f : Fitting) (lsn n : Nat) (c : Coppice) : Coppice :=
  (({ c with map := c.map.filter fun p => decide (p.1 < lsn ∨ lsn + n ≤ p.1) }).touchRun lsn n).journal f 1 lsn n

/-- A logical sector is marked UNREADABLE, journaled (R281). -/
def Coppice.markUnreadable (f : Fitting) (lsn : Nat) (c : Coppice) : Coppice :=
  (({ c with map := Tbl.put c.map lsn (Tbl.getD c.map lsn 0#32 ||| 0x20000000#32) }).touch lsn).journal f 2 lsn 0

/-! ### Streams and rows (R269, R271) -/

/-- The stripe group a stream writes; the CHECKPOINT stream writes the first (the model's choice, assumption log 49). -/
def streamGroup (st : Nat) : Nat := if st < 4 then st else if st < 8 then st - 4 else 0

/-- The working dies of a stripe group (R283). -/
def workingIn (f : Fitting) (c : Coppice) (group : Nat) : List Nat :=
  ((List.range (chansOf f)).map fun i => group * chansOf f + i).filter fun d => !decide (d ∈ c.deadDies)

/-- The die position of a row that takes no data; none where one die writes alone (R269). -/
def skipped (x : Stream) : Option Nat := if x.blocks.length < 2 then none else some (x.row % x.blocks.length)

/-- The block the stream's next page goes to: the first in die order whose page of the row is not programmed (R269). -/
def nextBlock (x : Stream) : Option Nat :=
  (x.blocks.zipIdx.find? fun p => some p.2 != skipped x && !decide (p.1 ∈ x.done)).map Prod.fst

/-- The blocks a stream opens with: on each working die of its group the one nearest the free ring's head (R269, R270;
assumption log 49). -/
def opensWith (f : Fitting) (c : Coppice) (st : Nat) : Option (List Nat) :=
  match workingIn f c (streamGroup st) with
  | [] => none
  | l => l.mapM fun d => c.free.find? fun b => dieOf f b == d

/-- The parity ring has space for one more row (R271). -/
def parityRoom (f : Fitting) (c : Coppice) : Bool := decide (c.parity.length < parityPages f)

/-- The stream can take its next page: a row begins only with space for its parity, new log data only while the free ring holds a
quarter of FREE_TARGET, and a stream that is not open finds its blocks (R269, R271, R278). -/
def mayWrite (f : Fitting) (c : Coppice) (st : Nat) : Bool :=
  (decide (4 ≤ st) || decide (freeTargetOf f c ≤ 4 * c.free.length))
    && match Tbl.get c.streams st with
      | some x => x.done != [] || decide (x.blocks.length < 2) || parityRoom f c
      | none => match opensWith f c st with
        | some l => decide (l.length < 2) || parityRoom f c
        | none => false

/-- The stream open: its blocks, taken from the free ring together where it was not (R269). -/
def Coppice.opened (f : Fitting) (st : Nat) (c : Coppice) : Coppice :=
  match Tbl.get c.streams st, opensWith f c st with
  | none, some l =>
    let c1 := l.foldl (fun t b => t.setBlock f b fun x => { x with state := .open_ })
      { c with free := c.free.filter fun b => !decide (b ∈ l), media := l.foldl (fun m b => Tbl.del m b) c.media }
    { c1 with streams := Tbl.put c1.streams st { group := streamGroup st, blocks := l } }
  | _, _ => c

/-- A row is complete: its parity page goes to the die that took no data, and after the last row the blocks close together
(R269, R270, R271). -/
def Coppice.endRow (f : Fitting) (st : Nat) (x : Stream) (c : Coppice) : Coppice :=
  let c1 := match skipped x with
    | some i =>
      let p : ParityPage := { die := dieOf f (x.blocks.getD i 0), row := x.row, seq := c.writeSeq + 1, blocks := x.done }
      Coppice.programmedN 4 { c with parity := c.parity ++ [p] }
    | none => c
  if x.row + 1 < blockPages f then { c1 with streams := Tbl.put c1.streams st { x with row := x.row + 1, done := [] } }
  else x.blocks.foldl (fun t b => t.setBlock f b fun y => { y with state := .closed }) { c1 with streams := Tbl.del c1.streams st }

/-- One page of a stream: up to four sectors by number and type, FILLER in the rest; its first physical sector, with what the
page leaves. None while the stream must wait (R266, R269). -/
def Coppice.putPage (f : Fitting) (st : Nat) (secs : List (Nat × Nat)) (c0 : Coppice) : Option (Nat × Coppice) :=
  if mayWrite f c0 st then
    let c := c0.opened f st
    match Tbl.get c.streams st with
    | none => none
    | some x =>
      match nextBlock x with
      | none => none
      | some b =>
        let full := (secs.take 4 ++ List.replicate 4 (0, tgFiller)).take 4
        let tags := full.zipIdx.map fun p =>
          (4 * x.row + p.2, ({ num := p.1.1, seq := c.writeSeq + 1 + p.2, type := p.1.2, stream := st } : SectorTag))
        let c1 := ({ c with media := Tbl.upd c.media b [] (· ++ tags), programmed := c.programmed + 16384 }).programmedN 4
        let y := { x with done := x.done ++ [b] }
        some (b * blockSectors f + 4 * x.row,
          if (nextBlock y).isNone then c1.endRow f st y else { c1 with streams := Tbl.put c1.streams st y })
  else none

/-! ### The write buffer (R266, R269, R280) -/

/-- A dirty sector of a kind leaves the write buffer. -/
def Coppice.unbuffer (lsn : Nat) (log : Bool) (c : Coppice) : Coppice :=
  { c with buffer := match c.buffer.find? fun x => x.lsn == lsn && (x.type == tgData) == log with
      | some x => c.buffer.erase x
      | none => c.buffer }

/-- The write buffer holds a sector of the log. -/
def Coppice.buffered (c : Coppice) (lsn : Nat) : Bool := c.buffer.any fun x => x.lsn == lsn && x.type == tgData

/-- A store writes a logical sector afresh: its UNREADABLE bit and its range go (R281). -/
def Coppice.readableAgain (lsn : Nat) (c : Coppice) : Coppice :=
  match Config.lsnOwner lsn with
  | none => c
  | some r => if (Tbl.getD c.map lsn 0#32).getLsbD 29 then { c with unreadable := c.unreadable.erase r } else c

/-- A page of a DATA stream has reported success: its sectors leave the buffer and their map entries move (R269, R273). -/
def Coppice.writeData (f : Fitting) (st : Nat) (lsns : List Nat) (c : Coppice) : Option Coppice :=
  let l := (lsns.filter c.buffered).take 4
  (c.putPage f st (l.map fun n => (n, tgData))).map fun p =>
    l.zipIdx.foldl (fun t x => ((t.readableAgain x.1).unbuffer x.1 true).moveMap f x.1 (p.1 + x.2)) p.2

/-- The oldest sectors of the buffer are programmed: a sector of another region to its region, sectors of the log to the first
stripe group that takes them (which group is the model's choice, assumption log 49). -/
def Coppice.drainPage (f : Fitting) (c : Coppice) : Option Coppice :=
  match c.buffer with
  | [] => none
  | x :: rest =>
    if x.type ≠ tgData then some (({ c with buffer := rest }).programmedN 4)
    else
      let l := ((c.buffer.filter fun y => y.type == tgData).map Sector.lsn).dedup.take 4
      ((List.range (perChanOf f)).find? (mayWrite f c)).bind fun st => c.writeData f st l

/-- Coppice drains the write buffer until one more sector fits the room it has, while its streams take pages (R38, R39). -/
def Coppice.makeRoom (f : Fitting) (room : Nat) : Nat → Coppice → Coppice
  | 0, c => c
  | n + 1, c =>
    if 4096 * (c.buffer.length + 1) ≤ room then c
    else match c.drainPage f with
      | some d => d.makeRoom f room n
      | none => c

/-- A sector becomes dirty for a commit; which logical sector the store writes is open (assumption log 2). -/
def Coppice.dirty (f : Fitting) (room type : Nat) (c : Coppice) : Coppice :=
  let d := c.makeRoom f room c.buffer.length
  { d with buffer := d.buffer ++ [{ lsn := Config.commitLsn d.commits % max 1 (lsnCount f), type, num := d.commits + 1 }]
           commits := d.commits + 1, written := d.written + 1 }

/-! ### Valid sectors and rows (R271, R279, R283) -/

/-- The valid sectors of a block: DATA sectors whose map entry points at them. -/
def Coppice.validIn (f : Fitting) (c : Coppice) (b : Nat) : List (Nat × Nat) :=
  ((mediaOf c b).filter fun x => x.2.type == tgData && Tbl.get c.map x.2.num == some (mapped (b * blockSectors f + x.1))).map
    fun x => (x.1, x.2.num)

/-- The sectors a source still owes a copy: the valid ones, and those whose copy lies in a block since retired (R279, R280). -/
def Coppice.owed (f : Fitting) (c : Coppice) (r : Reloc) : List (Nat × Nat) :=
  ((mediaOf c r.block).filter fun x => x.2.type == tgData &&
    (Tbl.get c.map x.2.num == some (mapped (r.block * blockSectors f + x.1))
      || r.copied.any fun q => q.1 == x.1 && Tbl.get c.map x.2.num == some (mapped q.2)
          && decide ((c.block (q.2 / blockSectors f)).state = .retired))).map fun x => (x.1, x.2.num)

/-- A source is empty: it owes no copy, and every block a copy of it went to has closed, so that a program failure there still
finds it intact (R279, R280). -/
def Coppice.isEmptied (f : Fitting) (c : Coppice) (r : Reloc) : Bool :=
  c.owed f r == [] && r.copied.all fun q => decide ((c.block (q.2 / blockSectors f)).state ≠ .open_)

/-- The blocks whose pages of a row share parity with a block's: of a parity page held, or of the row in progress (R271). -/
def Coppice.rowMates (c : Coppice) (b row : Nat) : Option (List Nat) :=
  match c.parity.find? fun p => p.row == row && decide (b ∈ p.blocks) with
  | some p => some p.blocks
  | none => (c.streams.find? fun x => x.2.row == row && decide (b ∈ x.2.done) && decide (2 ≤ x.2.blocks.length)).map fun x => x.2.done

/-- A page holds valid sectors. -/
def Coppice.pageValid (f : Fitting) (c : Coppice) (b row : Nat) : List Nat :=
  ((c.validIn f b).filter fun x => x.1 / 4 == row).map Prod.snd

/-- Row parity gives a page back: it is held, and no other page of the row is missing on a failed die (R271, R272, R283). -/
def Coppice.parityServes (f : Fitting) (c : Coppice) (b row : Nat) : Bool :=
  match c.rowMates b row with
  | none => false
  | some l => l.all fun m => m == b || !decide (dieOf f m ∈ c.deadDies) || c.pageValid f m row == []

/-- Row parity is discarded once every data page of its row lies in a block that needs it no more (R272). -/
def Coppice.discardParity (c : Coppice) : Coppice :=
  { c with parity := c.parity.filter fun p => p.blocks.any fun b =>
      decide ((c.block b).state = .open_ ∨ (c.block b).state = .closed) }

/-- A page of a GC stream: each sector is one a source of the same stripe group owes; once the page, read back, decodes within
VERIFY_LIMIT the map entries move to the copies (R279). -/
def Coppice.writeCopies (f : Fitting) (st : Nat) (lsns errors : List Nat) (c : Coppice) : Option Coppice :=
  let from_ (n : Nat) : Option (Nat × Nat) := c.relocating.findSome? fun r =>
    if stripeOf f (dieOf f r.block) = streamGroup st then ((c.owed f r).find? fun x => x.2 == n).map fun x => (r.block, x.1) else none
  let l := (lsns.filterMap fun n => (from_ n).map fun q => (n, q)).take 4
  (c.putPage f st (l.map fun x => (x.1, tgData))).map fun p =>
    if errors.all fun n => decide (n ≤ c.params.verify) then
      l.zipIdx.foldl (fun t x =>
        Coppice.moveMap f x.1.1 (p.1 + x.2)
          { t with relocating := t.relocating.map fun (r : Reloc) =>
              if r.block = x.1.2.1 then { r with copied := (x.1.2.2, p.1 + x.2) :: r.copied.filter fun q => q.1 != x.1.2.2 } else r }) p.2
    else p.2

/-! ### Checkpoints (R274, R275) -/

/-- Sectors put down page by page through the CHECKPOINT stream; the first one's place. -/
def Coppice.putAll (f : Fitting) (secs : List (Nat × Nat)) : Nat → Coppice → Option (Nat × Coppice)
  | 0, c => some (0, c)
  | n + 1, c =>
    match c.putPage f 8 secs with
    | none => none
    | some p => if (secs.drop 4).isEmpty then some p else (Coppice.putAll f (secs.drop 4) n p.2).map fun q => (p.1, q.2)
termination_by structural n => n

/-- The bytes an anchor record's CRC covers. The manual gives its content and no offsets (the model's choice, assumption log 49). -/
def anchorBytes (a : Anchor) : Bytes :=
  le 4 a.number ++ le 6 a.seq ++ le 4 a.segAt ++ le 4 a.blockAt ++ le 4 a.position ++ le 4 (a.free.headD 0) ++ le 4 (a.free.getLastD 0)
    ++ le 1 (flag 0 a.core) ++ le 8 a.serial.toNat ++ a.open_.flatMap (le 4)

/-- The anchor record of the state as it stands (R275, R386). -/
def Coppice.anchorNow (segAt blockAt : Nat) (c : Coppice) : Anchor :=
  let a : Anchor :=
    { number := c.checkpoint + 1, seq := c.writeSeq, segAt, blockAt, position := c.ringNext, free := c.free
      open_ := (c.blocks.filter fun p => decide (p.2.state = .open_)).map Prod.fst, crc := 0#32, core := c.fmtCore, serial := c.fmtSerial
      segs := c.segs, map := c.map, blocks := c.blocks }
  { a with crc := crc32c (anchorBytes a) }

/-- The block table, and then an anchor record (R274, R386). None while the CHECKPOINT stream finds no block. -/
def Coppice.anchored (f : Fitting) (segAt : Nat) (c : Coppice) : Option Coppice :=
  let secs := (List.range (ceilDiv (16 * (fitDies f * dieBlocks f)) 4096)).map fun i => (i, tgBlockTable)
  (c.putAll f secs secs.length).map fun b =>
    let a := b.2.anchorNow segAt b.1
    Coppice.programmedN 1
      { b.2 with checkpoint := b.2.checkpoint + 1, changed := [], programmed := 0, ringFrom := b.2.ringNext, anchors := a :: b.2.anchors.take 1 }

/-- A checkpoint: the changed segments, the segment table, the block table, and only then an anchor record (R274). None while its
stream finds no block. -/
def Coppice.checkpointed (f : Fitting) (c : Coppice) : Option Coppice :=
  let segments := c.changed.foldl (fun (t : Option Coppice) k => t.bind fun x =>
    (x.putPage f 8 (List.replicate 4 (k, tgCheckpoint))).map fun p => { p.2 with segs := Tbl.put p.2.segs k p.1 }) (some c)
  let tableSecs := (List.range (ceilDiv (4 * segCount f) 4096)).map fun i => (segCount f + i, tgCheckpoint)
  segments.bind fun c1 => (c1.putAll f tableSecs tableSecs.length).bind fun s => s.2.anchored f s.1

/-- The segments of the latest checkpoint that a block holds (R278). -/
def Coppice.segsIn (f : Fitting) (c : Coppice) (b : Nat) : List Nat := (c.segs.filter fun p => p.2 / blockSectors f == b).map Prod.fst

/-- A block holds part of the latest checkpoint: segments, or its tables, programmed between the last two anchor records (R278). -/
def Coppice.holdsCheckpoint (f : Fitting) (c : Coppice) (b : Nat) : Bool :=
  c.segsIn f b != [] || (mediaOf c b).any fun x =>
    x.2.stream == 8 && match c.anchors with
      | a :: l => decide (x.2.seq ≤ a.seq) && decide ((match l with | o :: _ => o.seq | [] => 0) < x.2.seq)
      | [] => false

/-- The segments a block holds marked changed (R278). -/
def Coppice.markSegs (f : Fitting) (b : Nat) (c : Coppice) : Coppice :=
  { c with changed := ((c.segsIn f b).filter fun k => !decide (k ∈ c.changed)) ++ c.changed }

/-! ### Blocks that leave their stream (R280, R283) -/

/-- A stream goes on with other blocks; where that ends its row or leaves it none, the row is complete or the stream over. -/
def Coppice.reblock (f : Fitting) (st : Nat) (x : Stream) (c : Coppice) : Coppice :=
  if x.blocks = [] then { c with streams := Tbl.del c.streams st }
  else if (nextBlock x).isNone then c.endRow f st x
  else { c with streams := Tbl.put c.streams st x }

/-- A failed die leaves its stripe group: the open streams go on without its block, and its free, spare and parity pages are gone
(R283). -/
def Coppice.dropDie (f : Fitting) (die : Nat) (c : Coppice) : Coppice :=
  let c1 := { c with
    deadDies := die :: c.deadDies, free := c.free.filter fun b => dieOf f b != die, spare := c.spare.filter fun b => dieOf f b != die
    parity := c.parity.filter fun p => p.die != die }
  c1.streams.foldl (fun t p =>
    if p.2.blocks.any fun b => dieOf f b == die then
      t.reblock f p.1 { p.2 with blocks := p.2.blocks.filter fun b => dieOf f b != die }
    else t) c1

/-- A block of the log is retired and replaced from the spare pool (R270, R284). -/
def Coppice.retired1 (f : Fitting) (b : Nat) (c : Coppice) : Coppice :=
  let c1 := c.setBlock f b fun x => { x with state := .retired }
  let c2 := (c1.spare.take 1).foldl (fun t n => t.setBlock f n fun x => { x with state := .free }) c1
  { c2 with retired := c2.retired + 1, spare := c2.spare.tail, free := c2.free ++ c2.spare.take 1
            relocating := c2.relocating.filter fun r => r.block != b }

/-- What a retired block held of its stream: log data goes back to the write buffer, segments are changed again; copies are owed by
their source once more (R280). -/
def Coppice.giveBack (f : Fitting) (b : Nat) (data : List Nat) (c : Coppice) : Coppice :=
  let lost := data.filter fun n => c.relocating.all fun r => !decide (n ∈ (c.owed f r).map Prod.snd)
  (Coppice.markSegs f b { c with buffer := c.buffer ++ lost.map fun n => ({ lsn := n, type := tgData } : Sector) })

/-- A page of a stream fails to program: its block is retired, and the stream goes on in the next free block of the die (R280); the
failed page's write sequences are used (R267). -/
def Coppice.failPage (f : Fitting) (st : Nat) (c0 : Coppice) : Option (Nat × Coppice) :=
  if mayWrite f c0 st then
    let c := c0.opened f st
    (Tbl.get c.streams st).bind fun x => (nextBlock x).map fun b =>
      let data := (c.validIn f b).map Prod.snd
      let c1 := ((c.programmedN 4).retired1 f b).giveBack f b data
      let new := c1.free.find? fun n => dieOf f n == dieOf f b
      let c2 := match new with
        | some n => ({ c1 with free := c1.free.erase n, media := Tbl.del c1.media n }).setBlock f n fun y => { y with state := .open_ }
        | none => c1
      let swap (l : List Nat) := l.flatMap fun y => if y = b then new.toList else [y]
      (b, { c2 with progFails := c2.progFails + 1 }.reblock f st { x with blocks := swap x.blocks })
  else none

/-! ### The rebuild (R275, R276) -/

/-- A journal entry applied (table Journal entry). -/
def Coppice.applyEntry (c : Coppice) (e : DWord) : Coppice :=
  let target := bits e 0 29
  let value := bits e 32 32
  match bits e 29 3 with
  | 0 => ({ c with map := Tbl.put c.map target (BitVec.ofNat 32 value) }).touch target
  | 1 => ({ c with map := c.map.filter fun p => decide (p.1 < target ∨ target + value ≤ p.1) }).touchRun target value
  | 2 => ({ c with map := Tbl.put c.map target (Tbl.getD c.map target 0#32 ||| 0x20000000#32) }).touch target
  | 3 =>
    let st := blockStateOf (value % 8)
    let free := c.free.filter fun b => b != target
    { c with blocks := Tbl.put c.blocks target { state := st, pe := value / 8 }, free := if st = .free then free ++ [target] else free }
  | _ => c

/-- A tag in its place by write sequence. -/
def insertTag (x : Nat × SectorTag) : List (Nat × SectorTag) → List (Nat × SectorTag)
  | [] => [x]
  | y :: l => if x.2.seq ≤ y.2.seq then x :: y :: l else y :: insertTag x l

/-- The rebuild from an anchor record: the tables it names, the journal from its position and the restored tail, then the tags of
the open blocks and of the next 16 at the free ring's head (R276). A stream goes on where one of its blocks is found written or open,
and its other blocks with it, since they were opened together (R269; assumption log 49). -/
def Coppice.rebuiltFrom (f : Fitting) (a : Anchor) (c : Coppice) : Coppice :=
  let live := c.ring.filter fun x => decide (a.position ≤ x.1)
  let c1 := ((live.flatMap fun x => x.2.2) ++ c.tail).foldl Coppice.applyEntry
    { c with map := a.map, segs := a.segs, blocks := a.blocks, free := a.free, changed := [], ringFrom := a.position }
  let covered := (live.map fun x => x.2.1).foldl max (max a.seq (if c.tail = [] then 0 else c.tailSeq))
  let written := (c1.free.take 16).filter fun b => mediaOf c b != []
  let live := c.streams.filter fun p => p.2.blocks.any fun b => decide ((c1.block b).state = .open_ ∨ b ∈ written)
  let found := c1.free.filter fun b => decide (b ∈ written) || live.any fun p => decide (b ∈ p.2.blocks)
  let open_ := (c1.blocks.filter fun p => decide (p.2.state = .open_)).map Prod.fst
  let tags := (open_ ++ found).flatMap fun b =>
    ((mediaOf c b).filter fun x => x.2.type == tgData && decide (covered < x.2.seq)).map fun x => (b * blockSectors f + x.1, x.2)
  let c2 := (tags.foldr insertTag []).foldl (fun t x => ({ t with map := Tbl.put t.map x.2.num (mapped x.1) }).touch x.2.num) c1
  { c2 with
    streams := live
    free := c2.free.filter fun b => !decide (b ∈ found)
    blocks := found.foldl (fun m b => Tbl.upd m b {} fun y => { y with state := .open_ }) c2.blocks }

/-- The anchor record a restart uses: the newer whose CRC is correct (R275). -/
def goodAnchor (newerBad : Bool) (c : Coppice) : Option Anchor :=
  (if newerBad then c.anchors.drop 1 else c.anchors).find? fun a => a.crc == crc32c (anchorBytes a)

end Sys2Proof.Machine
end

