-- ==== Sys2Proof/Machine/Ops.lean ====
section
/-!
DEFINITION. The operations every family shares: interrupts, notices, recorder events, commits to the write buffer,
export records, random draws, the limits on repeated records, and the shape of every meaning.
-/

namespace Sys2Proof.Machine

/-! ### What leaves the device -/

/-- The device emits something (assumption log 5). -/
def emit (o : Out) (s : State) : State := s.onHost fun h => { h with out := o :: h.out }

/-- A power domain is in RUN, with no entry in progress (R346). -/
def domRuns (s : State) (d : Nat) : Bool :=
  let x := Tbl.getD s.pwr.doms d {}
  x.state == 0 && x.entering == none

/-- A wake request for a domain is raised (R13). -/
def raiseWake (d : Nat) (s : State) : State := s.onPwr fun p => { p with wakes := if d ∈ p.wakes then p.wakes else p.wakes ++ [d] }

/-- A frame leaves by an Ethernet port; while the port's domain is below RUN it stays in the crossing FIFO, or with its sender while
the FIFO is full, behind those sent before it, and the crossing raises a wake request (R13). -/
def emitEth (port : Nat) (dst : Bytes) (etherType : Nat) (body : Bytes) (s : State) : State :=
  let d := 10 + port
  if domRuns s d then emit (.eth port dst etherType body) s
  else raiseWake d (s.onPwr fun p => { p with sending := p.sending ++ [(d, .eth port dst etherType body)] })

/-- An MSI-X source fires its vector: the message is sent, or its pending bit set while it may not be (R73). -/
def signal (v : Nat) (s : State) : State :=
  let e := Tbl.getD s.host.msix v {}
  if s.host.msixEnable && !s.host.msixMask && !e.masked then emit (.msix v e.addr e.data) s
  else s.onHost fun h => { h with pba := h.pba ||| BitVec.ofNat 64 (2 ^ v) }

/-! ### Privet (R76, R77) -/

/-- The 32 bytes of a notice entry (table Notice entry). -/
def noticeBytes (n : Notice) : Bytes :=
  le 2 n.code ++ le 1 n.prio ++ le 1 0 ++ le 4 n.seq ++ le 12 (stamp96 n.stamp) ++ le 4 n.source ++ slice n.data 0 8

/-- The oldest notice of the highest priority present, and the queue without it (R76). -/
def popNotice (q : List Notice) : Option (Notice × List Notice) :=
  match (List.range 4).findSome? (fun p => q.find? fun n => n.prio == p) with
  | some n => some (n, q.erase n)
  | none => none

/-- The queue after a notice arrives, and the priority lost when it was full (R76). -/
def admitNotice (q : List Notice) (n : Notice) : List Notice × Option Nat :=
  if q.length < 16384 then (q ++ [n], none)
  else
    match ([3, 2, 1, 0].findSome? fun p => (q ++ [n]).find? fun m => m.prio == p) with
    | some v => ((q ++ [n]).erase v, some v.prio)
    | none => (q, none)

/-- A count of the list with one added at an index. -/
def bump (l : List Nat) (i : Nat) : List Nat := l.modify i (· + 1)

/-- The bytes of a word that a read's byte enables ask for (R59). -/
def enabled (be : BitVec 4) (v : Word) : Bytes :=
  if be = 15#4 then le 4 v.toNat else ((List.range 4).filter fun i => be.getLsbD i).map fun i => (v >>> (8 * i)).truncate 8

/-- What a read of NOTICE_POP returns of an entry: the enabled bytes of word 0, or all eight words at once (R59, R77). -/
def popBytes (r : Option (BitVec 4)) (entry : Bytes) : Bytes :=
  match r with
  | some be => enabled be (BitVec.ofNat 32 (field entry 0 4))
  | none => slice entry 0 32

/-- The device posts a notice; one that meets stalled reads goes to the one that has stalled longest (R76, R77). Whether the first
notice carries Sequence 0 or 1 the manual does not say: the model gives it 0 (DESIGN CHOICE, assumption log 74). -/
def post (code prio source : Nat) (data : Bytes) (s : State) : State :=
  let n : Notice := { code, prio, seq := s.host.noticeSeq % 2 ^ 32, stamp := s.tim.tb2, source, data := slice data 0 8 }
  let s1 := s.onHost fun h => { h with noticeSeq := h.noticeSeq + 1 }
  let s2 :=
    match s.host.stalled with
    | (_, r) :: rest =>
      emit (.read (popBytes r (noticeBytes n))) (s1.onHost fun h => { h with stalled := rest, latch := noticeBytes n })
    | [] =>
      let (q, lost) := admitNotice s1.host.notices n
      s1.onHost fun h =>
        { h with notices := q, lost := match lost with | some p => bump h.lost p | none => h.lost }
  if bits s2.host.noticeIrq prio 1 = 1 then signal (32 + prio) s2 else s2

/-! ### Coppice stores (R47, R266, R320) -/

/-- One sector of a tag type becomes dirty in the write buffer, which Coppice drains for it where the shared limit asks for room; which
logical sector is open (R38, assumption log 2). -/
def dirtySector (type : Nat) (s : State) : State := s.onCop (Coppice.dirty s.dev.fit (sharedLimit s - intakeBytes s) type)

/-- A run of logical sectors that a store lets go is released by TRIM; which run is open (R273, assumption log 2). -/
def trimSome (s : State) : State :=
  let n := lsnCount s.dev.fit
  if nandUsed s ∧ 0 < n then
    let lsn := Config.openNat s.free % n
    { s.onCop (Coppice.trim s.dev.fit lsn (1 + Config.openNat (s.free + 1) % (n - lsn))) with free := s.free + 2 }
  else s

/-- A commit entry in the Coppice write buffer (R30, R47). -/
def commit (s : State) : State := dirtySector 0x01 s

/-! ### Yew (15) -/

/-- Bytes 0 to 51 of a record: what its chain hash covers (R317, R319). -/
def yewHead (seq : Nat) (e : YewEvent) (staged : Bool) : Bytes :=
  le 8 seq ++ le 12 e.stamp.toNat ++ le 2 e.code ++ le 1 e.kind ++ le 1 (flag 0 e.tb7 + flag 1 staged) ++ le 4 e.source
    ++ slice e.data 0 24

/-- A hash value as its 32 bytes, first byte lowest. -/
def hashBytes (h : Hash) : Bytes := le 32 h.toNat

/-- The first `n` bytes of H of a byte string. -/
def hashHead (n : Nat) (bs : Bytes) : Bytes := (hashBytes (Config.hash bs)).take n

/-- The chain hash after a record (R319). -/
def yewChain (prev : DWord) (head : Bytes) : DWord :=
  BitVec.ofNat 64 (ofLe (hashHead 8 (ascii "KHYEW" ++ le 8 prev.toNat ++ head)))

/-- An event becomes a record: sequence and chain hash are assigned; the first record of a sector dirties one
(R318 to R320). IRQ_COUNT counts the append (R326). -/
def yewAppend (e : YewEvent) (staged : Bool) (s : State) : State :=
  let seq := s.yew.newest + 1
  let chain := yewChain s.yew.chain (yewHead seq e staged)
  let s1 := if s.yew.newest % 64 = 0 then dirtySector 0x08 s else s
  let n := s.yew.irqCount + 1
  let due := bits s.yew.ctrl 8 16
  let s2 := s1.onYew fun y =>
    { y with records := { seq, ev := e, staged, chain, appended := tb7 s } :: y.records, newest := seq, chain := chain,
             irqCount := n }
  if due ≠ 0 ∧ n % due = 0 then signal 38 s2 else s2

/-- Yew is not readable yet, or frozen: events wait in the staging buffer (R323, R324, R388). -/
def yewStaging (s : State) : Bool := s.yew.frozen || s.yew.hard

/-- An event with the time it is raised at (R318). -/
def yewEvent (code kind source : Nat) (data : Bytes) (s : State) : YewEvent :=
  { stamp := (yewStamp s).1, tb7 := (yewStamp s).2, code, kind, source, data := slice data 0 24 }

/-- Source kinds of a record (R317). -/
def kDevice : Nat := 0
def kSlot : Nat := 1
def kChannel : Nat := 2
def kPort : Nat := 3
def kDie : Nat := 4
def kSession : Nat := 5
def kGroup : Nat := 6
def kShard : Nat := 7
def kPlan : Nat := 8

/-- One second, minute and hour in ns. -/
def nsMin : Nat := 60 * nsPerS
def nsHour : Nat := 3600 * nsPerS
def nsDay : Nat := 86400 * nsPerS

/-- Records that stay readable at all times, and those an erase block of the region holds beside them in reserve, in pSLC (R320). -/
def yewPlaces : Nat := 4194304
def yewBlock (s : State) : Nat := blockPages s.dev.fit / 3 * 256

/-- Records of a list that are within the hold period, by the TB7 of their own append (R321; DESIGN CHOICE, assumption log 17). -/
def withinHold (s : State) (l : List YewRec) : List YewRec := l.filter fun r => decide (tb7 s < r.appended + s.yew.hold * nsDay)

/-- The oldest block, of so many records, is erased; where some were within hold the next record is YEW_OVERFLOW, and the notice goes
out (R321). -/
def yewErase (n : Nat) (s : State) : State :=
  let keep := s.yew.records.length - n
  let gone := s.yew.records.drop keep
  let k := (withinHold s gone).length
  let s1 := s.onYew fun y => { y with records := y.records.take keep }
  match gone.head?, gone.getLast? with
  | some newest, some oldest =>
    if k = 0 then s1
    else
      post 0x0D10 1 0 (le 8 k) (yewAppend (yewEvent 0x6010 kDevice 0 (le 8 oldest.seq ++ le 8 newest.seq ++ le 8 k) s) false
        (s1.onYew fun y => { y with overflowCount := min (y.overflowCount + k) (2 ^ 32 - 1) }))
  | _, _ => s1

/-- A record is appended; with no place left the oldest block makes room first (R320, R321). -/
def yewPut (e : YewEvent) (staged : Bool) (s : State) : State :=
  yewAppend e staged (if s.yew.records.length < yewPlaces + yewBlock s then s else yewErase (yewBlock s) s)

/-- An event is raised: appended, staged, or counted as lost with the buffer of 4,096 full (R323). -/
def yew (code kind source : Nat) (data : Bytes) (s : State) : State :=
  let e := yewEvent code kind source data s
  if yewStaging s then
    if s.yew.staged.length < 4096 then s.onYew fun y => { y with staged := y.staged ++ [e] }
    else s.onYew fun y =>
      { y with lost := y.lost + 1, firstLost := if y.lost = 0 then e.stamp else y.firstLost }
  else yewPut e false s

/-- Something written at most once in a period of TB6 per key: a code, a kind and a source make the key. -/
def limitKey (code source : Nat) : Nat := code * 2 ^ 40 + source

/-- The limit of a key lets something through now. -/
def limitOpen (key period : Nat) (s : State) : Bool :=
  match Tbl.get s.yew.limits key with
  | some t => decide (t + period ≤ tb6 s)
  | none => true

/-- Something written at most once per period (ns of TB6) under a key. -/
def limited (key period : Nat) (f : State → State) (s : State) : State :=
  if limitOpen key period s then f (s.onYew fun y => { y with limits := Tbl.put y.limits key (tb6 s) }) else s

/-- An event and its notice together. -/
def report (yewCode kind source : Nat) (data : Bytes) (noticeCode prio nsource : Nat) (ndata : Bytes) (s : State) : State :=
  post noticeCode prio nsource ndata (yew yewCode kind source data s)

/-! ### Open values and random draws (R254, assumption log 2) -/

/-- `n` bytes from the TRNG. -/
def trngBytes (n : Nat) (s : State) : Bytes := Config.trng s.vlt.draws n

/-- A draw of the TRNG has been used. -/
def trngStep (s : State) : State := s.onVlt fun v => { v with draws := v.draws + 1 }

/-- What the sealed copies hold of a set of slots: all but the factory's, which the fuses keep, and no share (R244). -/
def sealable (keys : Tbl Key) : Tbl Key := Tbl.mapVals (keys.filter fun p => !p.2.factory) fun _ k => { k with mask := [] }

/-- The key slots change, and both sealed copies with them (R244, R253). -/
def onKeys (f : Tbl Key → Tbl Key) (s : State) : State :=
  s.onVlt fun v => { v with keys := f v.keys, sealed := (sealable (f v.keys), sealable (f v.keys)) }

/-- A nonzero 32-bit value of a draw that is none of those in use: the draw, moved on past them. -/
def freshWord (x : Nat) (used : List Nat) : Nat → Nat
  | 0 => x % (2 ^ 32)
  | n + 1 => if x % 2 ^ 32 = 0 ∨ x % 2 ^ 32 ∈ used then freshWord (x + 1) used n else x % 2 ^ 32

/-! ### Measurements (R257) -/

/-- MEASn := H("KHMEAS" ‖ MEASn ‖ H(data)). -/
def extend (n : Nat) (data : Bytes) (s : State) : State :=
  s.onVlt fun v =>
    { v with meas := v.meas.modify n fun m =>
        Config.hash (ascii "KHMEAS" ++ hashBytes m ++ hashBytes (Config.hash data)) }

/-! ### Export records (02, 03, 07) -/

/-- The shard of a slot number (R18). -/
def shardOf (slot : Nat) : Nat := slot / 4096 % 256

/-- The state of a shard. -/
def shard (s : State) (n : Nat) : Shard := Tbl.getD s.met.shards n {}

/-- A shard changed. -/
def modShard (n : Nat) (f : Shard → Shard) (s : State) : State :=
  s.onMet fun m => { m with shards := Tbl.upd m.shards n {} f }

/-- The state of a slot; EMPTY where none is held. -/
def slot (s : State) (n : Nat) : Slot := Tbl.getD s.met.slots n {}

/-- A slot changed. -/
def modSlot (n : Nat) (f : Slot → Slot) (s : State) : State :=
  s.onMet fun m => { m with slots := Tbl.upd m.slots n {} f }

/-- A ring set. -/
def ring (s : State) (n : Nat) : Ring := Tbl.getD s.host.rings n {}

/-- A ring set changed. -/
def modRing (n : Nat) (f : Ring → Ring) (s : State) : State :=
  s.onHost fun h => { h with rings := Tbl.upd h.rings n {} f }

/-- The export ring of a shard (R50). -/
def ringOf (s : State) (n : Nat) : Nat := (shard s n).ring.getD (n % 16)

/-- Notice 0x0202 when the backlog has risen to 90 % of its limit, and refusal at 100 % (R53). -/
def judgeBacklog (s : State) : State :=
  let b := backlog s
  let l := backlogLimit s
  let s1 := if 10 * b ≥ 9 * l ∧ ¬ s.met.backlogNoticed then
      post 0x0202 0 0 (le 8 b) (s.onMet fun m => { m with backlogNoticed := true })
    else if 10 * b < 8 * l then s.onMet fun m => { m with backlogNoticed := false } else s
  if b ≥ l then s1.onDev fun d => { d with refusedBacklog := true } else s1

/-- A record is committed and takes its place on its ring, or is held back while its shard moves (R30, R50). -/
def commitRec (r : Rec) (s : State) : State :=
  let held := match r.shard with | some n => (shard s n).moving.isSome | none => false
  let s1 := if held then s.onMet fun m => { m with records := m.records ++ [{ r with seq := 0 }] }
    else
      let q := (ring s r.ring).erLastSeq.toNat + 1
      modRing r.ring (fun x => { x with erLastSeq := BitVec.ofNat 64 q })
        (s.onMet fun m => { m with records := m.records ++ [{ r with seq := q }] })
  judgeBacklog s1

/-- A record of a slot: ring, shard and epoch from the slot's shard, EUI-64 from the slot (R19, R50). -/
def slotRec (s : State) (n type : Nat) (flags : Byte) (asn stampN : Nat) (payload : Bytes) : Rec :=
  let k := shardOf n
  { seq := 0, ring := ringOf s k, type, flags, slot := n, shard := some k, epoch := (shard s k).epoch, asn,
    stamp := stampN, eui := (slot s n).eui, local_ := 0#16, payload }

/-! ### Taking (R26, R39, R53) -/

/-- A frame of a size would raise the shared buffers above S. -/
def wouldOverflow (size : Nat) (s : State) : Bool := decide (sharedLimit s < dirtyShared s + size)

/-- A take is refused: counted, and reported at most once a minute with its cause (R39, R53, R435). Which cause the notice carries
while the shared limit and the backlog limit refuse together the manual does not say: the model gives 1 (DESIGN CHOICE,
assumption log 75). -/
def refuseTake (n : Nat) (s : State) : State :=
  let s1 := (s.onProt fun p => { p with refused := p.refused + n }).onDev fun d =>
    { d with refusedSinceNotice := d.refusedSinceNotice + n, counters := d.counters.modify 7 (· + n) }
  limited (limitKey 0x0201 0) nsMin
    (fun t => (post 0x0201 2 0
        (le 4 (min t.dev.refusedSinceNotice (2 ^ 32 - 1)) ++ le 1 (if t.dev.refusedShared || t.dev.refusedSpare then 1 else 2)) t).onDev
        fun d => { d with refusedSinceNotice := 0 }) s1

/-- A frame is taken: its intake entry is written with the next take sequence (R26, R433). -/
def take (stamp : Nat) (frame : Bytes) (origin lc port : Nat) (rssi : Int) (transparent : Bool) (s : State) : State :=
  (s.onProt fun p =>
    { p with intake := p.intake ++ [{ seq := p.takeSeq + 1, stamp, frame, origin, lc, port, rssi, transparent }],
             takeSeq := p.takeSeq + 1 }).onDev fun d => { d with counters := d.counters.modify 0 (· + 1) }

/-- Whether a frame of a size may be taken now; the refusal latches when it does not fit (R39). -/
def mayTake (size : Nat) (s : State) : Bool := !takingRefused s && !wouldOverflow size s

/-- The latch of the shared limit set (R39). -/
def latchRefusal (size : Nat) (s : State) : State :=
  if !takingRefused s && wouldOverflow size s then s.onDev fun d => { d with refusedShared := true } else s

/-- A ceiling that fell: taking is refused until the two buffers have drained below 90 % of the new S (R40, R283). -/
def latchLowered (before s : State) : State :=
  if ceiling s < ceiling before ∧ 9 * sharedLimit s ≤ 10 * dirtyShared s then s.onDev fun d => { d with refusedShared := true } else s

/-! ### What the NAND holds (R37, R42) -/

/-- The device as a restart would find it if everything committed so far were programmed. -/
def imageOf (s : State) : Image :=
  { deviceId := s.dev.deviceId, share := s.dev.share, budget := s.prot.budget, sessions := s.host.sessions
    cursors := Tbl.mapVals s.host.rings fun _ r => (r.erCursor, r.erLastSeq, r.erEver)
    br := s.br, met := s.met, tar := s.tar, led := s.led, lt := s.lt, zone := s.tim.zone
    keys := sealable s.vlt.keys
    tokenId := s.vlt.tokenId, bcastGen := s.vlt.bcastGen, params := s.cop.params, unreadable := s.cop.unreadable
    pair := s.pair, dl := s.dl, ports := s.lane.ports, hold := s.yew.hold }

/-- A commit still waits in the write buffer. -/
def waits (s : State) (n : Nat) : Bool := s.cop.buffer.any fun x => x.num == n

/-- Images up to the first whose sector still waits are durable. -/
def settled (s : State) : List (Nat × Image) := s.past.images.takeWhile fun p => !waits s p.1

/-- An effect that committed leaves its image with the commit; sectors programmed bring the NAND forward. -/
def keepImage (before after : State) : State :=
  if after.cop.commits = before.cop.commits ∧ after.cop.buffer.length = before.cop.buffer.length then after
  else
    let rest := after.past.images.drop (settled after).length
    let new := waits after after.cop.commits && !(rest.any fun p => p.1 == after.cop.commits)
    { after with past :=
      { base := match (settled after).getLast? with | some p => p.2 | none => after.past.base
        images := if new then rest ++ [(after.cop.commits, imageOf after)] else rest } }

/-! ### The shape of every meaning -/

/-- Latches that fall by themselves: taking resumes below 90 % of S and below the backlog limit; LOWERING ends under the
new ceiling (R39, R40, R53). -/
def relax (s : State) : State :=
  let s1 := if s.dev.refusedShared && decide (10 * dirtyShared s < 9 * sharedLimit s) then
      s.onDev fun d => { d with refusedShared := false } else s
  let s2 := if s1.dev.refusedBacklog && decide (backlog s1 < backlogLimit s1) then
      s1.onDev fun d => { d with refusedBacklog := false } else s1
  if s2.prot.lowering && decide (dirtyBytes s2 < ceiling s2) then s2.onProt fun p => { p with lowering := false } else s2

/-- The status words of TB0 to TB7. -/
def tbWords (s : State) : List Word := (List.range 8).map (tbStatusWord s)

/-- The device can reach the host and judges its own bits: it runs, or serves ROM recovery. -/
def alive (s : State) : Bool :=
  match s.dev.phase with
  | .running => true
  | .romRecovery _ => true
  | _ => false

/-- What follows every effect while the device is alive: the latches fall where they may, and a change of DEV_STATUS or of a
TBn_STATUS bit signals its vector (tables DEV_STATUS and TBn_STATUS). What was committed stands with its commit (R37). -/
def settle (before effect : State) : State :=
  let after := keepImage before effect
  if alive after then
    let s1 := relax after
    let s2 := if devStatus before = devStatus s1 then s1 else signal 36 s1
    if tbWords before = tbWords s1 then s2 else signal 37 s2
  else after

/-- A meaning that acts whatever the device's phase. -/
def always (f : State → State) (s : State) : Host.Outcome State Fault Refusal := .next (settle s (f s))

/-- A meaning that acts while the device runs and leaves it as it is otherwise: a device that is off, in reset, flushing
or held takes no command and follows no event (R41, R374). -/
def whileRunning (f : State → State) (s : State) : Host.Outcome State Fault Refusal :=
  .next (if s.dev.phase = .running then settle s (f s) else s)

/-- An effect under a condition; without it the state stays. -/
def guarded (c : Bool) (f : State → State) (s : State) : State := if c then f s else s

end Sys2Proof.Machine
end

