-- ==== Sys2Proof/Machine/Schedule.lean ====
section
/-!
DEFINITION. Tariff plans, switch lists and calendars, the instants they schedule, and boundary marks (R167 to R176).
Instants are TAI seconds; TB3 has reached an instant when TB2 has, since both read one clock (R235).
-/

namespace Sys2Proof.Machine

/-- Kinds of a boundary mark (R174). -/
def mkDemandEnd : Nat := 1
def mkPeriodEnd : Nat := 2
def mkTariffSwitch : Nat := 3
def mkClockStep : Nat := 4
def mkSeal : Nat := 5

/-- Flags of a boundary mark (R174). -/
def mfRestore : BitVec 16 := 0x0001#16
def mfCalendar : BitVec 16 := 0x0002#16
def mfList : BitVec 16 := 0x0004#16
def mfSkipped : BitVec 16 := 0x0008#16

/-! ### Plans (R167) -/

/-- Minutes of a demand length code. -/
def demandMinutes (d : Nat) : Nat := [5, 10, 15, 30, 60].getD d 0

/-- Length of a demand window, or of a sliding sub-interval, in s (R175). -/
def subLength (p : Plan) : Nat := demandMinutes p.d * 60 / max 1 p.s

/-- A plan record as its 32 bytes spell it. -/
def planOf (b : Bytes) : Plan :=
  { d := field b 1 1, sliding := field b 2 1 == 1, s := field b 3 1, rule := field b 4 1, day := field b 5 1,
    minute := field b 6 2, n := field b 8 2, grace := field b 10 2, shift := field b 12 2, anchor := field b 16 8 }

/-- A plan record's fields are in range and its grace is shorter than its shortest period (R167). -/
def planOk (b : Bytes) : Bool :=
  let p := planOf b
  decide (field b 0 1 < 64) && decide (p.d ≤ 4) && decide (field b 2 1 ≤ 1)
    && (if p.sliding then decide (p.s ∈ [2, 3, 4, 5, 6, 10, 12, 15]) && demandMinutes p.d % p.s == 0 else p.s == 1)
    && decide (p.rule ≤ 2)
    && (p.rule == 2 || (decide (1 ≤ p.day) && decide (p.day ≤ 28) && decide (p.minute < 1440)))
    && (p.rule != 1 || (decide (1 ≤ p.n) && decide (p.n ≤ 12)))
    && (p.rule != 2 || (decide (1 ≤ p.n) && decide (p.n ≤ 366) && decide (p.grace < p.n * 24)))
    && decide (p.grace ≤ 168) && decide (1 ≤ p.shift) && decide (p.shift ≤ 3600)

/-- A period ID (R167). -/
def periodId (plan number : Nat) : Nat := plan * 2 ^ 26 + number % 2 ^ 26

/-! ### Scheduled instants -/

/-- The next instant after `t` at which legal time is a multiple of `w` seconds from midnight (R175). -/
def nextAligned (z : Zone) (t w : Nat) : Nat :=
  let w := max 1 w
  let c := t + (w - legalS z t % w)
  let m := legalS z c % w
  if m = 0 then c else c + (w - m)

/-- The next period end of a plan after `t` (R167). -/
def nextPeriodEnd (z : Zone) (p : Plan) (t : Nat) : Option Nat :=
  if p.rule = 2 then
    let step := max 1 p.n * 86400
    some (t + (step - (((t : Int) - p.anchor) % step).toNat))
  else
    let month (tai : Nat) : Nat := let (y, m, _) := dateOf (legalS z tai / 86400); y * 12 + (m - 1)
    let now := month t
    let every := if p.rule = 1 then max 1 p.n else 1
    (List.range 27).findSome? fun i =>
      let m := now + i - 1
      let c := taiOfLegal z ((daysOf (m / 12) (m % 12 + 1) p.day : Int) * 86400 + p.minute * 60) none
      if ((m : Int) - month p.anchor) % every = 0 ∧ t < c then some c else none

/-! ### Rule calendars (R172, R173) -/

/-- The switch points of a day profile: legal minute and tariff. -/
def dayProfile (b : Bytes) (i : Nat) : List (Nat × Nat) :=
  let o := 96 + 68 * i
  (List.range (field b o 1)).map fun k => (field b (o + 4 + 4 * k) 2, field b (o + 6 + 4 * k) 1)

/-- The day profile of a legal date (R173). -/
def profileOn (b : Bytes) (days : Nat) : Nat :=
  let (y, m, d) := dateOf days
  let specials := (List.range (field b 8 2)).map fun i => 2272 + 8 * i
  let hit (year : Nat) := specials.find? fun o => field b o 2 == year && field b (o + 2) 1 == m && field b (o + 3) 1 == d
  match hit y with
  | some o => field b (o + 4) 1
  | none =>
    match hit 0xFFFF with
    | some o => field b (o + 4) 1
    | none =>
      let seasons := (List.range (field b 5 1)).map fun i =>
        (field b (16 + 4 * i) 1 * 32 + field b (17 + 4 * i) 1, field b (18 + 4 * i) 1)
      let latest (l : List (Nat × Nat)) : Option (Nat × Nat) :=
        l.foldl (fun best x => match best with
          | none => some x
          | some y => if y.1 ≤ x.1 then some x else some y) none
      let week := match latest (seasons.filter fun x => x.1 ≤ m * 32 + d) with
        | some x => x.2
        | none => match latest seasons with | some x => x.2 | none => 0
      field b (32 + 8 * week + (weekdayOf days - 1)) 1

/-- The last tariff of a legal day. -/
def lastTariff (b : Bytes) (days : Nat) : Nat := ((dayProfile b (profileOn b days)).getLast?.getD (0, 0)).2

/-- The tariff at a legal second: the last switch point at or before the minute, else the previous day's last (R173). -/
def calTariff (b : Bytes) (legal : Nat) : Nat :=
  let days := legal / 86400
  let minute := legal % 86400 / 60
  match ((dayProfile b (profileOn b days)).filter fun x => x.1 ≤ minute).getLast? with
  | some x => x.2
  | none => lastTariff b (days - 1)

/-- The switch points of a legal day at which the tariff changes. -/
def changesOn (b : Bytes) (days : Nat) : List (Nat × Nat) :=
  ((dayProfile b (profileOn b days)).foldl (fun acc x =>
    if x.2 = acc.2 then acc else (acc.1 ++ [x], x.2)) (([] : List (Nat × Nat)), lastTariff b (days - 1))).1

/-- The first switch after `t` of a legal day; points that one gap moves to one instant leave the tariff of the last. -/
def calSwitchOn (z : Zone) (b : Bytes) (t day : Nat) : Option (Nat × Nat) :=
  let at_ := (changesOn b day).map fun x => (taiOfLegal z ((day : Int) * 86400 + x.1 * 60) none, x.2)
  at_.findSome? fun x => if t < x.1 then (at_.filter fun y => y.1 == x.1).getLast? else none

/-- The first switch after `t` of so many legal days from a day on. -/
def calSearch (z : Zone) (b : Bytes) (t : Nat) : Nat → Nat → Option (Nat × Nat)
  | 0, _ => none
  | n + 1, day =>
    match calSwitchOn z b t day with
    | some x => some x
    | none => calSearch z b t n (day + 1)

/-- The legal day after the last year a special day names; 0 with none of a year of its own. -/
def lastYearNamed (b : Bytes) : Nat :=
  ((List.range (field b 8 2)).map fun i =>
    let y := field b (2272 + 8 * i) 2
    if y = 0xFFFF then 0 else daysOf (y + 1) 1 1).foldl max 0

/-- The next instant after `t` at which the calendar changes the tariff (R173). Every date meets every weekday within 40 years, so a
change there is falls within 15,000 days of now or of the last year a special day names. -/
def nextCalSwitch (z : Zone) (b : Bytes) (t : Nat) : Option (Nat × Nat) :=
  let day := legalS z t / 86400
  calSearch z b t (15000 + (lastYearNamed b - day)) day

/-- A calendar's counts, indices, dates, minutes and tariffs are in range and its switch points rise (R172). -/
def calendarOk (b : Bytes) : Bool :=
  let seasons := field b 5 1
  let weeks := field b 6 1
  let profiles := field b 7 1
  let specials := field b 8 2
  let dateOk (m d : Nat) : Bool := decide (1 ≤ m) && decide (m ≤ 12) && decide (1 ≤ d) && decide (d ≤ (if m = 2 then 29 else monthDays 2001 m))
  decide (field b 4 1 < 64) && decide (1 ≤ seasons) && decide (seasons ≤ 4) && decide (1 ≤ weeks) && decide (weeks ≤ 8)
    && decide (1 ≤ profiles) && decide (profiles ≤ 32) && decide (specials ≤ 256) && field b 10 6 % 60 == 0
    && ((List.range seasons).all fun i =>
        dateOk (field b (16 + 4 * i) 1) (field b (17 + 4 * i) 1) && decide (field b (18 + 4 * i) 1 < weeks))
    && ((List.range weeks).all fun i => (List.range 7).all fun k => decide (field b (32 + 8 * i + k) 1 < profiles))
    && ((List.range profiles).all fun i =>
        let l := dayProfile b i
        decide (1 ≤ l.length) && decide (l.length ≤ 16) && (l.all fun x => decide (x.1 < 1440) && decide (x.2 < 8))
          && ((l.zip l.tail).all fun x => decide (x.1.1 < x.2.1)))
    && ((List.range specials).all fun i =>
        dateOk (field b (2274 + 8 * i) 1) (field b (2275 + 8 * i) 1) && decide (field b (2276 + 8 * i) 1 < profiles))

/-- A calendar as loaded. -/
def calendarOf (b : Bytes) : Calendar := { id := BitVec.ofNat 32 (field b 0 4), activation := field b 10 6, bytes := b }

/-! ### Switch lists (R169) -/

/-- A switch list as its bytes spell it. -/
def switchListOf (b : Bytes) : SwitchList :=
  { id := BitVec.ofNat 32 (field b 0 4), initial := field b 5 1, activation := field b 8 6, cover := field b 14 6,
    entries := (List.range (field b 6 2)).map fun i => (field b (32 + 8 * i) 6, field b (38 + 8 * i) 1), bytes := b }

/-- A switch list breaks none of the rules of R169, but for its ID and the time of loading. -/
def switchListOk (b : Bytes) : Bool :=
  let l := switchListOf b
  decide (field b 4 1 < 64) && decide (l.initial < 8) && decide (l.entries.length ≤ 4096)
    && (l.entries.all fun e => decide (l.activation < e.1) && decide (e.1 < l.cover) && e.1 % 60 == 0 && decide (e.2 < 8))
    && ((l.entries.zip l.entries.tail).all fun x => decide (x.1.1 < x.2.1))
    && l.activation % 60 == 0 && decide (l.cover ≤ l.activation + 34560000) && decide (l.activation ≤ l.cover)

/-- The plan's switch list covers an instant. -/
def listCovers (p : PlanState) (t : Nat) : Bool :=
  match p.active with
  | some l => decide (l.activation ≤ t) && decide (t < l.cover)
  | none => false

/-- The last due instant issued of a kind for a plan. -/
def issuedOf (x : PlanState) (kind : Nat) : Nat := x.issued.getD (kind - 1) 0

/-- The instant after which legal time brings instants of a kind that have not been issued (R175, R189). -/
def floorOf (x : PlanState) (kind : Nat) : Nat := max (issuedOf x kind) (x.floor.getD (kind - 1) 0)

/-- The next scheduled switch of a plan after `t`: instant, tariff, from the calendar (R168); after the active list's coverage
the calendar's (R171). -/
def nextSwitch (z : Zone) (p : PlanState) (t : Nat) : Option (Nat × Nat × Bool) :=
  match (if p.fallback then none else p.active) with
  | some l => (l.entries.find? fun e => t < e.1).map fun e => (e.1, e.2, false)
  | none =>
    match p.calendar with
    | some c => (nextCalSwitch z c.bytes (max t (floorOf p 3))).map fun x => (x.1, x.2, true)
    | none => none

/-! ### Marks (R174 to R176) -/

/-- Bit p for plan p. -/
def planBit (p : Nat) : BitVec 64 := BitVec.ofNat 64 (2 ^ p)

/-- The mask of plans. -/
def planMask (l : List Nat) : BitVec 64 := l.foldl (fun m p => m ||| planBit p) 0#64

/-- A mark's mask holds a plan. -/
def Mark.covers (m : Mark) (p : Nat) : Bool := m.plans.getLsbD p

/-- The state of a plan, if loaded. -/
def planAt (s : State) (p : Nat) : Option PlanState := Tbl.get s.tar.plans p

/-- A plan's state changed. -/
def modPlan (p : Nat) (f : PlanState → PlanState) (s : State) : State :=
  s.onTar fun t => { t with plans := Tbl.mod t.plans p f }

/-- A mark waits for the journal in its 4,096 B page: where the page is full the tail is written, and the marks with it (R38, R187). -/
def markPending (s : State) : State :=
  if s.prot.marksPending < 85 then s.onProt fun p => { p with marksPending := p.marksPending + 1 }
  else (s.onCop (Coppice.pourTail s.dev.fit)).onProt fun p => { p with marksPending := 1 }

/-- A mark is created with the next boundary index and written to the write buffer (R174, R175). -/
def createMark (kind due : Nat) (plans : List Nat) (tariff : Nat) (flags : BitVec 16) (period : Nat) (s : State) : State :=
  let m : Mark := { index := s.tar.index + 1, due, created := s.tim.tb7, plans := planMask plans, kind, tariff, flags, period }
  markPending (dirtySector 0x01 (s.onTar fun t => { t with marks := t.marks ++ [m], index := t.index + 1 }))

/-- The last due instant issued of a kind for a plan rises (R175). -/
def issue (kind t p : Nat) (s : State) : State :=
  modPlan p (fun x => { x with issued := x.issued.set (kind - 1) (max t (issuedOf x kind)) }) s

/-- Legal time under another zone record passes what was issued at these instants (R175, R189). -/
def refloor (old new : Zone) (x : PlanState) : PlanState :=
  { x with floor := [1, 2, 3].map fun k => taiOfLegal new (legalS old (floorOf x k)) none }

/-- A plan's next DEMAND_END. -/
def nextDemandOf (z : Zone) (x : PlanState) : Nat := nextAligned z (floorOf x 1) (subLength x.plan)

/-- A plan's next PERIOD_END; one counted in days does not follow legal time (R167). -/
def nextPeriodOf (z : Zone) (x : PlanState) : Option Nat := nextPeriodEnd z x.plan (if x.plan.rule = 2 then issuedOf x 2 else floorOf x 2)

/-- A DEMAND_END mark at an instant of plans, each with the window ends the mark stands for in rising order (R174, R179). -/
def markDemand (t : Nat) (plans : List (Nat × List Nat)) (flags : BitVec 16) (s : State) : State :=
  if plans = [] then s
  else plans.foldl (fun u p => modPlan p.1 (fun x => { x with ends := p.2.reverse ++ x.ends }) (issue 1 t p.1 u))
    (createMark mkDemandEnd (t * nsPerS) (plans.map Prod.fst) 0 flags 0 s)

/-- The record of a plan that held at an instant in ns: the one of the period that holds it (R167). -/
def ruleAt (x : PlanState) (t : Nat) : Plan :=
  match x.rules.find? fun r => decide (t ≤ r.1 * nsPerS) with
  | some r => r.2
  | none => x.plan

/-- A plan's open period ends: it waits for its SEAL mark, the next number opens, and a plan record loaded meanwhile takes
effect, the old one kept for the periods that end with it (R167, R183). -/
def endPeriod (t p : Nat) (s : State) : State :=
  modPlan p (fun x =>
    { x with closing := x.closing ++ [(x.period, tb7 s, x.start, t)], period := x.period + 1, start := t,
             rules := if x.nextPlan.isSome then x.rules ++ [(t, x.plan)] else x.rules,
             plan := x.nextPlan.getD x.plan, nextPlan := none }) (issue 2 t p s)

/-- A PERIOD_END mark of plans at an instant; it carries the period of its lowest plan (assumption log 13). -/
def markPeriod (t : Nat) (plans : List Nat) (flags : BitVec 16) (s : State) : State :=
  match plans with
  | [] => s
  | p :: _ =>
    let id := match planAt s p with | some x => periodId p x.period | none => 0
    plans.foldl (fun u q => endPeriod t q u) (createMark mkPeriodEnd (t * nsPerS) plans 0 flags id s)

/-- A TARIFF_SWITCH mark of plans at an instant. -/
def markSwitch (t tariff : Nat) (plans : List Nat) (flags : BitVec 16) (s : State) : State :=
  if plans = [] then s
  else plans.foldl (fun u p => modPlan p (fun x => { x with tariff := some tariff, since := t }) (issue 3 t p u))
    (createMark mkTariffSwitch (t * nsPerS) plans tariff flags 0 s)

/-- Every plan. -/
def everyone : Nat → Bool := fun _ => true

/-- The plans loaded, of those asked for. -/
def planList (who : Nat → Bool) (s : State) : List (Nat × PlanState) := s.tar.plans.filter fun p => who p.1

/-- Plans whose next DEMAND_END is an instant. -/
def demandAt (z : Zone) (s : State) (t : Nat) : List Nat :=
  ((planList everyone s).filter fun x => nextDemandOf z x.2 == t).map Prod.fst

/-- Plans whose next PERIOD_END is an instant. -/
def periodAt (z : Zone) (who : Nat → Bool) (s : State) (t : Nat) : List Nat :=
  ((planList who s).filter fun x => nextPeriodOf z x.2 == some t).map Prod.fst

/-- A passive list of the plan activates at an instant. -/
def activatesAt (p : PlanState) (t : Nat) : Bool :=
  match p.passive with
  | some l => l.activation == t
  | none => false

/-! ### Activation and fallback (R168, R170 to R172) -/

/-- The device says that a plan has no schedule (R168). -/
def sayNoSchedule (p : Nat) (s : State) : State :=
  modPlan p (fun x => { x with noSchedule := true }) (report 0x8003 kPlan p [] 0x0803 0 p [] s)

/-- A passive list becomes active and is measured (R170, R257). -/
def activateList (p : Nat) (s : State) : State :=
  match planAt s p with
  | none => s
  | some x =>
    match x.passive with
    | none => s
    | some l =>
      let s2 := modPlan p (fun y => { y with active := some l, passive := none, fallback := false, noSchedule := false }) s
      report 0x8001 kPlan p (le 4 l.id.toNat) 0x0801 3 p (le 4 l.id.toNat) (extend 4 l.bytes s2)

/-- A loaded calendar becomes the plan's and is measured (R172, R257). -/
def activateCalendar (p : Nat) (s : State) : State :=
  match planAt s p with
  | none => s
  | some x =>
    match x.nextCalendar with
    | none => s
    | some c => extend 4 c.bytes (modPlan p (fun y => { y with calendar := some c, nextCalendar := none, noSchedule := false }) s)

/-- The active list's coverage ends with no successor: the calendar, or no schedule at all (R168, R171). -/
def fallBack (p : Nat) (s : State) : State :=
  match planAt s p with
  | none => s
  | some x =>
    match x.active with
    | none => s
    | some l =>
      let s1 := modPlan p (fun y => { y with fallback := true }) s
      if x.calendar.isSome then report 0x8002 kPlan p (le 4 l.id.toNat) 0x0802 1 p (le 4 l.id.toNat) s1
      else sayNoSchedule p s1

/-- The instant at which a plan's active list runs out with no list to follow it (R171). -/
def fallbackInstant (x : PlanState) : Option Nat :=
  match x.active with
  | some l =>
    if x.fallback then none
    else match x.passive with
      | some q => if q.activation ≤ l.cover then none else some l.cover
      | none => some l.cover
  | none => none

/-- The instants of a plan at which its schedule changes hands: activation of a list, of a calendar, fallback. -/
def handInstants (x : PlanState) : List Nat :=
  (x.passive.map fun l => l.activation).toList ++ (x.nextCalendar.map fun c => c.activation).toList ++ (fallbackInstant x).toList

/-- A loaded calendar takes effect at an instant. -/
def turnsAt (x : PlanState) (t : Nat) : Bool := x.nextCalendar.map (fun c => c.activation) == some t

/-- The schedules of one plan that change hands at an instant; its next switch lies after it (R170 to R172). -/
def handOverPlan (t p : Nat) (s : State) : State :=
  match planAt s p with
  | none => s
  | some x =>
    let s1 := if turnsAt x t then activateCalendar p s else s
    let s2 := if activatesAt x t then activateList p s1 else s1
    let s3 := if fallbackInstant x = some t then fallBack p s2 else s2
    if turnsAt x t ∨ activatesAt x t ∨ fallbackInstant x = some t then issue 3 t p s3 else s3

/-- The switch of a plan at an instant, if its tariff switches there: the tariff, and its source: 0 list, 1 calendar,
2 activation of a list. A list that activates takes the place of a switch; a calendar that takes over switches where it
gives another tariff than the one in force (R168 to R173). -/
def switchOf (z : Zone) (t : Nat) (x : PlanState) : Option (Nat × Nat) :=
  match x.passive with
  | some l => if l.activation = t then some (l.initial, 2) else go x
  | none => go x
where
  /-- The switch where no list activates. -/
  go (x : PlanState) : Option (Nat × Nat) :=
    let turn := turnsAt x t
    let cal := if turn then x.nextCalendar else x.calendar
    if (turn || fallbackInstant x == some t) && !listCovers x t then
      match cal with
      | some c =>
        let tar := calTariff c.bytes (legalS z t)
        if x.tariff = some tar then none else some (tar, 1)
      | none => none
    else
      match nextSwitch z x (issuedOf x 3) with
      | some (i, tar, fromCal) => if i = t then some (tar, if fromCal then 1 else 0) else none
      | none => none

/-- The plans whose tariff switches at an instant, with the tariff and its source. -/
def switchAt (z : Zone) (who : Nat → Bool) (s : State) (t : Nat) : List (Nat × Nat × Nat) :=
  (planList who s).filterMap fun x => (switchOf z t x.2).map fun y => (x.1, y)

/-- The flag of a switch mark's source (R170, R171). -/
def sourceFlag (k : Nat) : BitVec 16 := if k = 1 then mfCalendar else if k = 2 then mfList else 0#16

/-- The scheduled PERIOD_END and TARIFF_SWITCH marks of an instant, one mark per kind and, for switches, tariff, with the flags of
every source among its plans, then the schedules that change hands there (R170 to R176; assumption log 13). -/
def markOthers (z : Zone) (who : Nat → Bool) (t : Nat) (flags : BitVec 16) (s : State) : State :=
  let s1 := markPeriod t (periodAt z who s t) flags s
  let sw := switchAt z who s1 t
  let s2 := (List.range 8).foldl (fun u g =>
    let l := sw.filter fun x => x.2.1 == g
    markSwitch t g (l.map Prod.fst) (l.foldl (fun f x => f ||| sourceFlag x.2.2) flags) u) s1
  (planList who s1).foldl (fun u x => handOverPlan t x.1 u) s2

/-- Every scheduled mark of one instant, in the order of R176. -/
def markInstant (z : Zone) (t : Nat) (flags : BitVec 16) (s : State) : State :=
  markOthers z everyone t flags (markDemand t ((demandAt z s t).map fun p => (p, [t])) flags s)

/-- The least of a list. -/
def least (l : List Nat) : Option Nat := l.foldl (fun b x => match b with | none => some x | some y => some (min x y)) none

/-- The next instant of a PERIOD_END, a TARIFF_SWITCH or a schedule changing hands, over the plans asked for. -/
def nextOther (z : Zone) (who : Nat → Bool) (s : State) : Option Nat :=
  least ((planList who s).filterMap (fun x => nextPeriodOf z x.2)
    ++ (planList who s).filterMap (fun x => (nextSwitch z x.2 (issuedOf x.2 3)).map Prod.fst)
    ++ (planList who s).flatMap fun x => handInstants x.2)

/-- The next instant of any kind over all plans. -/
def nextInstant (z : Zone) (s : State) : Option Nat :=
  least ((nextOther z everyone s).toList ++ (planList everyone s).map fun x => nextDemandOf z x.2)

/-- The run of a plan's DEMAND_END instants after an instant up to another, rising. -/
def demandRun (z : Zone) (p : Plan) (upto : Nat) : Nat → Nat → List Nat
  | 0, _ => []
  | n + 1, from_ =>
    let t := nextAligned z from_ (subLength p)
    if t ≤ upto then t :: demandRun z p upto n t else []

/-- The runs of DEMAND_END instants missed up to an instant by the plans asked for, one mark per last instant, SKIPPED where it stands
for a run of more than one (R174, R187). -/
def markRuns (z : Zone) (who : Nat → Bool) (upto : Nat) (flags : BitVec 16) (s : State) : State :=
  let runs := ((planList who s).map fun x =>
    (x.1, demandRun z x.2.plan upto ((upto - floorOf x.2 1) / 60 + 1) (floorOf x.2 1))).filter fun r => r.2 != []
  let times := (runs.map fun r => r.2.getLast?.getD 0).mergeSort.dedup
  times.foldl (fun u t =>
    let at_ := runs.filter fun r => r.2.getLast? == some t
    markDemand t at_ (flags ||| (if at_.any fun r => r.2.length != 1 then mfSkipped else 0#16)) u) s

/-- Marks missed up to an instant by the plans asked for, in due order: each run of DEMAND_END instants, then the other marks of the
instant that ends it (R187, R188). -/
def markMissed (z : Zone) (who : Nat → Bool) (upto : Nat) (flags : BitVec 16) : Nat → State → State
  | 0, s => s
  | n + 1, s =>
    match nextOther z who s with
    | some t =>
      if t ≤ upto then markMissed z who upto flags n (markOthers z who t flags (markRuns z who t flags s))
      else markRuns z who upto flags s
    | none => markRuns z who upto flags s

/-- A plan loaded while TB3 was invalid counts its instants from now (assumption log 17). -/
def startPlans (s : State) : State :=
  s.onTar fun t => { t with plans := Tbl.mapVals t.plans fun _ p =>
    if p.issued = [0, 0, 0] then { p with issued := [tb2s s, tb2s s, tb2s s], start := tb2s s } else p }

/-- The next instant gets its marks, if it lies at or before a limit (R175). -/
def markNext (z : Zone) (upto : Nat) (s : State) : State :=
  match nextInstant z s with
  | some t => if t ≤ upto then markInstant z t 0#16 s else s
  | none => s

/-- Every instant up to a limit gets its marks, in order, as far as the fuel goes. -/
def markUpTo (z : Zone) (upto : Nat) : Nat → State → State
  | 0, s => s
  | n + 1, s =>
    match nextInstant z s with
    | some t => if t ≤ upto then markUpTo z upto n (markInstant z t 0#16 s) else s
    | none => s

/-- Instants a plan's schedule can hold up to now: fuel for `markUpTo`. -/
def markFuel (s : State) : Nat :=
  64 + ((planList everyone s).map fun x => 4 * ((tb2s s - issuedOf x.2 1) / 60 + 1)).sum

/-- Marks may be created: TB3 is valid and those of the time without power have been (R187). -/
def marksMayRise (s : State) : Bool := tb3Valid s && !s.dev.waitTb3

/-- The next scheduled instant, once TB3 has reached it, gets its marks (R175). -/
def boundaryMarkCreate (s : State) : State :=
  match s.tim.zone with
  | none => s
  | some z => if marksMayRise s then markNext z (tb2s s) (startPlans s) else s

end Sys2Proof.Machine
end

