-- ==== Sys2Proof/Machine/Billing.lean ====
section
/-!
DEFINITION. A slot's billing registers: rolling past marks, booking readings, demand, closing and adjustment
(R177 to R184, R188 to R190).
-/

namespace Sys2Proof.Machine

/-! ### Period flags (R166) -/

def pfPowerDown : BitVec 16 := 0x0001#16
def pfIncomplete : BitVec 16 := 0x0002#16
def pfPartial : BitVec 16 := 0x0004#16
def pfClockShift : BitVec 16 := 0x0008#16
def pfClockBack : BitVec 16 := 0x0010#16
def pfRepeated : BitVec 16 := 0x0020#16
def pfFuture : BitVec 16 := 0x0040#16
def pfUnavailable : BitVec 16 := 0x0080#16
def pfLate : BitVec 16 := 0x0100#16
def pfUnknown : BitVec 16 := 0x0200#16
def pfOverflow : BitVec 16 := 0x0400#16
def pfRestored : BitVec 16 := 0x0800#16

/-- A flag where a condition holds. -/
def when_ (c : Bool) (f : BitVec 16) : BitVec 16 := if c then f else 0#16

/-! ### Marks as a slot sees them -/

/-- The plan a slot was under at an instant in ns: a change takes effect at a PERIOD_END of the plan it leaves (R402). -/
def planThen (x : Slot) (t : Nat) : Nat :=
  match x.bill.past.find? fun p => decide (t ≤ p.1 * nsPerS) with
  | some p => p.2
  | none => x.plan

/-- The record of a slot's plan that held at an instant (R167). -/
def slotRule (s : State) (x : Slot) (t : Nat) : Plan :=
  match planAt s (planThen x t) with
  | some ps => ruleAt ps t
  | none => planOf (zeros 32)

/-- The marks that concern a slot: each covers the plan the slot was under at its due instant. -/
def marksOf (s : State) (x : Slot) : List Mark := s.tar.marks.filter fun m => Mark.covers m (planThen x m.due)

/-- Due instants, in ns, at which a record's span is cut: TARIFF_SWITCH, PERIOD_END and CLOCK_STEP (R178). -/
def cutsOf (s : State) (x : Slot) : List Nat :=
  ((marksOf s x).filter fun m => m.kind == 2 || m.kind == 3 || m.kind == 4).map fun m => m.due

/-- The tariff of a plan's latest TARIFF_SWITCH due at or before an instant, and whether the instant does not predate the oldest one
retained; where none is retained any more, the tariff in force since the last (R168, R178). -/
def tariffAt (s : State) (p t : Nat) : Nat × Bool :=
  let switches := s.tar.marks.filter fun m => m.kind == 3 && Mark.covers m p
  match switches.foldl (fun (b : Option Mark) m =>
      if m.due ≤ t then
        match b with
        | none => some m
        | some x => if x.due ≤ m.due then some m else some x
      else b) none with
  | some m => (m.tariff, true)
  | none =>
    match (planAt s p).bind fun ps => ps.tariff.map fun k => (k, ps.since) with
    | some (k, since) => if switches.isEmpty ∧ since * nsPerS ≤ t then (k, true) else (0, false)
    | none => (0, true)

/-! ### Parts of a record (R178) -/

/-- The bounds of a span cut at the instants strictly inside it. -/
def boundsOf (cuts : List Nat) (a b : Nat) : List Nat :=
  [a] ++ ((cuts.filter fun c => decide (a < c) && decide (c < b)).mergeSort.dedup) ++ [b]

/-- The spans between consecutive bounds. -/
def spans (l : List Nat) : List (Nat × Nat) := l.zip l.tail

/-- A quantity shared over spans: every part but the last pro rata, half to even; the last takes the rest (R178). -/
def shares (e : Int) (whole : Nat) : List (Nat × Nat) → Int → List Int
  | [], _ => []
  | [_], left => [left]
  | (a, b) :: rest, left =>
    let x := halfEven (e * ((b - a : Nat) : Int)) whole
    x :: shares e whole rest (left - x)

/-- The energy of a quantity as it is booked: zero for an interval reported as POWER_DOWN (R181). -/
def bookedE (r : Interval) (q : Nat) : Nat := if r.flags.getLsbD 0 then 0 else r.e.getD q 0

/-- The parts of a record: span and the four energies. -/
def partsOf (cuts : List Nat) (r : Interval) : List ((Nat × Nat) × List Int) :=
  let b := r.end_ * nsPerS
  let a := b - r.capture * nsPerS
  let sp := spans (boundsOf cuts a b)
  let per := (List.range 4).map fun q => shares (bookedE r q) (r.capture * nsPerS) sp (bookedE r q)
  (List.range sp.length).map fun i => (sp.getD i (0, 0), per.map fun l => l.getD i 0)

/-! ### Demand (R179) -/

/-- A demand window: its span in ns, its length L in ns, whether it is split, and whether it is a sliding one. -/
structure Window where
  lo : Nat
  hi : Nat
  len : Nat
  split : Bool
  sliding : Bool
  deriving DecidableEq, Repr

/-- The DEMAND_END due instants of the slot's plan at an instant, ns. -/
def endsOf (s : State) (x : Slot) (t : Nat) : List Nat :=
  match planAt s (planThen x t) with
  | some ps => ps.ends.map (· * nsPerS)
  | none => []

/-- The block window, or sliding sub-interval, that holds a span in ns: between consecutive DEMAND_END due instants, cut (R175,
R179). While its own is not issued it ends a nominal length after the last. -/
def windowOf (s : State) (x : Slot) (a b : Nat) : Window :=
  let len := subLength (slotRule s x b) * nsPerS
  let ends := endsOf s x b
  let next := least (ends.filter fun e => decide (b ≤ e))
  let before (t : Nat) : Option Nat := (ends.filter fun e => decide (e < t)).foldl (fun m e => some (max e (m.getD 0))) none
  let hi := match next, before b with
    | some e, _ => e
    | none, some e => e + len
    | none, none => b
  let lo := (before hi).getD (hi - len)
  let cuts := cutsOf s x
  let lo' := (cuts.filter fun c => decide (lo < c) && decide (c ≤ a)).foldl max lo
  let hi' := (cuts.filter fun c => decide (b ≤ c) && decide (c < hi)).foldl min hi
  let split := lo' != lo || hi' != hi
  { lo := lo', hi := hi', len := if split then hi' - lo' else len, split, sliding := false }

/-- The windows to compute at the end of a block window or sub-interval: itself in block mode; in sliding mode the last S
sub-intervals, once S have filled and no restart lies inside them (R179). -/
def windowsAt (s : State) (x : Slot) (hi : Nat) : List Window :=
  let w := windowOf s x (hi - 1) hi
  let p := slotRule s x hi
  if ¬ p.sliding then (if w.lo < w.hi then [w] else [])
  else if w.split then []
  else
    let len := p.s * subLength p * nsPerS
    let before := ((endsOf s x hi).filter fun e => decide (e < hi)).mergeSort (fun a b => decide (b ≤ a))
    match before.drop (p.s - 1) with
    | [] => []
    | lo :: _ =>
      if (cutsOf s x).any fun c => decide (lo < c) && decide (c < hi) then []
      else [{ lo, hi, len, split := false, sliding := true }]

/-- Records of the interval ring that take part in demand: those up to a cutoff where one is fixed (R185). -/
def demandRecords (x : Slot) (cutoff : Option Nat) : List Interval :=
  x.ring.filter fun r => r.method == 0 && r.inDemand && (match cutoff with | some c => decide (r.asn ≤ c) | none => true)

/-- Energy of A+ (0) or A− (1) of records in a window. -/
def energyIn (cuts : List Nat) (l : List Interval) (lo hi d : Nat) : Int :=
  (l.map fun r =>
    ((partsOf cuts r).map fun p => if lo ≤ p.1.1 ∧ p.1.2 ≤ hi then p.2.getD d 0 else 0).sum).sum

/-- Nanoseconds of a window covered by records with supply. -/
def coveredIn (l : List Interval) (lo hi : Nat) : Nat :=
  (l.map fun r =>
    if r.flags.getLsbD 0 then 0
    else
      let b := r.end_ * nsPerS
      let a := b - r.capture * nsPerS
      min b hi - max a lo).sum

/-- The demand of an energy over a window, W (R179). -/
def demandOf (e : Int) (w : Window) : Nat := min (halfEven (e * 3600 * nsPerS) w.len).toNat (2 ^ 32 - 1)

/-- A maximum after a window is computed: replaced by a greater demand; the window that holds it gives it its flags (R179). -/
def raiseMax (m : MaxDemand) (n : MaxDemand) : MaxDemand :=
  if m.w < n.w then n else if m.w = n.w ∧ m.w ≠ 0 ∧ m.end_ = n.end_ then n else m

/-- A period is sealed for good on this device: its entry is committed, or in field role its SEAL mark created (R183, R192). -/
def sealedForGood (s : State) (period : Nat) : Bool :=
  if s.dev.core then s.led.entries.any fun e => e.period == period
  else match planAt s (period / 2 ^ 26) with
    | some ps => ps.sealed_.any fun c => c.1 == period % 2 ^ 26
    | none => false

/-- The cutoff of a slot for a period that is being sealed, where one is known (R185). -/
def cutoffOf (s : State) (n period : Nat) : Option Nat :=
  match s.led.sealings.find? fun g => g.period == period with
  | some g => (g.cutoff.bind fun l => l.find? fun c => c.1 == n).map Prod.snd
  | none => none

/-- The determinant of a slot's closed, unsealed period that holds an instant. -/
def closedAt (s : State) (n t : Nat) : Option Determinant :=
  s.tar.store.find? fun d => d.slot == n && !sealedForGood s d.period && decide (d.start * nsPerS < t) && decide (t ≤ d.end_ * nsPerS)

/-- INCOMPLETE_DEMAND follows the maximum demands as they stand: those at the close, and what a booking within the grace makes of
them (R166, R179). -/
def withIncomplete (d : Determinant) : Determinant :=
  { d with flags := (d.flags &&& ~~~ pfIncomplete) ||| when_ (d.maxima.any fun p => p.2.incomplete && p.2.w != 0) pfIncomplete }

/-- A stored determinant changed. -/
def modDet (n period : Nat) (f : Determinant → Determinant) (s : State) : State :=
  s.onTar fun t => { t with store := t.store.map fun d => if d.slot = n ∧ d.period = period then f d else d }

/-- The instant lies in the slot's open period: after its start and after the slot came under its plan; the plan's first period has
none before it. -/
def inOpen (x : Slot) (t : Nat) : Bool :=
  decide (x.bill.joined * nsPerS < t) && (decide (x.bill.start * nsPerS < t) || x.bill.period % 2 ^ 26 ≤ 1)

/-- A window is computed for a slot: each direction's demand may raise the maximum of its tariff in the period that holds the
window's end, with the records up to the cutoff where that period is being sealed under one (R179, R185). -/
def computeWindow (n : Nat) (w : Window) (s : State) : State :=
  let x := slot s n
  let cuts := cutsOf s x
  let t := (tariffAt s (planThen x w.hi) w.lo).1
  let closed := if inOpen x w.hi then none else closedAt s n w.hi
  let l := demandRecords x (closed.bind fun d => cutoffOf s n d.period)
  let m (d : Nat) : MaxDemand :=
    { w := demandOf (energyIn cuts l w.lo w.hi d) w, end_ := w.hi / nsPerS,
      incomplete := decide (coveredIn l w.lo w.hi < min (w.hi - w.lo) w.len), partial_ := w.split, sliding := w.sliding }
  let put (l : Tbl MaxDemand) : Tbl MaxDemand :=
    Tbl.upd (Tbl.upd l (t * 2) {} (fun o => raiseMax o (m 0))) (t * 2 + 1) {} (fun o => raiseMax o (m 1))
  let fl := when_ w.split pfPartial
  if inOpen x w.hi then modSlot n (fun y => { y with bill := { y.bill with maxima := put y.bill.maxima, flags := y.bill.flags ||| fl } }) s
  else
    match closed with
    | some d => modDet n d.period (fun d => withIncomplete { d with maxima := put d.maxima, flags := d.flags ||| fl }) s
    | none => s

/-- The medium or the capture period does not allow demand (R180). -/
def demandUnavailable (x : Slot) (p : Plan) (capture : Nat) : Bool :=
  x.medium != 0 || capture == 0 || subLength p % capture != 0

/-- The capture period of a slot's layout; of a record where no layout is loaded. -/
def layoutCapture (s : State) (x : Slot) (capture : Nat) : Nat :=
  match Tbl.get s.met.layouts x.layout with
  | some l => l.capture
  | none => capture

/-- The slot has demand windows (R179, R180). -/
def hasDemand (s : State) (x : Slot) (p : Plan) : Bool := !demandUnavailable x p (layoutCapture s x (subLength p))

/-! ### Rolling (R177) -/

/-- Sliding demand restarts (R179). -/
def restartSliding (b : Billing) : Billing := { b with filled := 0, sliding := [] }

/-- The energies booked into the open window and into the sliding sub-intervals filled, as they stand (R165). -/
def showDemand (n : Nat) (s : State) : State :=
  let x := slot s n
  let cuts := cutsOf s x
  let both (lo hi : Nat) : Nat × Nat := ((energyIn cuts (demandRecords x none) lo hi 0).toNat, (energyIn cuts (demandRecords x none) lo hi 1).toNat)
  let w := x.bill.winStart * nsPerS
  let ends := ((endsOf s x (w + 1)).filter fun e => decide (e ≤ w)).mergeSort (fun a b => decide (b ≤ a))
  let ring := (List.range x.bill.filled).map fun i => both (ends.getD (i + 1) 0) (ends.getD i 0)
  modSlot n (fun y => { y with bill := { y.bill with winE := both w (2 ^ 80), sliding := ring } }) s

/-- The instants a mark ends windows at: its own, and those of the run a DEMAND_END stands for (R187). -/
def endInstants (s : State) (x : Slot) (m : Mark) : List Nat :=
  if m.kind = 1 then
    ((endsOf s x m.due).filter fun e =>
      decide (e ≤ m.due) && (e == m.due || (x.bill.windowOpen && decide (x.bill.winStart * nsPerS < e)))).mergeSort
  else [m.due]

/-- The windows that end at a mark are computed, and the next opens (R177, R179, R188). -/
def endWindow (n : Nat) (m : Mark) (s : State) : State :=
  let x := slot s n
  let p := slotRule s x m.due
  let at_ := endInstants s x m
  let s1 := if hasDemand s x p then at_.foldl (fun u e => (windowsAt u x e).foldl (fun v w => computeWindow n w v) u) s else s
  let filled (f e : Nat) : Nat := if (windowOf s x (e - 1) e).split then 0 else min (f + 1) 15
  let after (b : Billing) : Billing :=
    let o := { b with windowOpen := true, winStart := max b.winStart (m.due / nsPerS) }
    if m.kind ≠ 1 then restartSliding o else if p.sliding then { o with filled := at_.foldl filled b.filled } else o
  showDemand n (modSlot n (fun y => { y with bill := after y.bill }) s1)

/-- Differences of the totals since the last close. -/
def bookedSince (b : Billing) : Tbl Nat :=
  b.totals.map fun p => (p.1, p.2 - Tbl.getD b.lastTotals p.1 0)

/-- A slot joins its plan's open period (R167). -/
def joinPlan (n : Nat) (s : State) : State :=
  let x := slot s n
  match planAt s x.plan with
  | some ps =>
    let joined (b : Billing) : Billing :=
      { b with rolled := s.tar.index, period := periodId x.plan ps.period, start := ps.start, tariff := ps.tariff.getD 0,
               lastTotals := b.totals }
    modSlot n (fun y => { y with bill := joined y.bill }) s
  | none => modSlot n (fun y => { y with bill := { y.bill with rolled := s.tar.index } }) s

/-- The period of a plan open just after an instant: its number and start. -/
def periodFrom (ps : PlanState) (t : Nat) : Nat × Nat :=
  match (ps.sealed_ ++ ps.closing.map fun c => (c.1, c.2.2.1, c.2.2.2)).find? fun c => decide (c.2.1 ≤ t) && decide (t < c.2.2) with
  | some c => (c.1, c.2.1)
  | none => (ps.period, ps.start)

/-- A slot comes under another plan at a PERIOD_END: in the period of that plan open just then, whose later marks it has still to roll
past (R186, R402). -/
def changePlan (n q t : Nat) (s : State) : State :=
  let from_ := match planAt s q with | some ps => periodFrom ps t | none => (0, t)
  modSlot n (fun y => { y with
    plan := q, nextPlan := none
    bill := { y.bill with period := periodId q from_.1, start := from_.2, joined := t, past := y.bill.past ++ [(t, y.plan)],
                          tariff := (tariffAt s q (t * nsPerS)).1 } }) s

/-- A period closes: its determinant is placed in the store, made durable, and the next period opens (R182); a tariff plan change
that waits takes effect (R402). -/
def closePeriod (n : Nat) (m : Mark) (s : State) : State :=
  let x := slot s n
  let b := x.bill
  let d : Determinant :=
    { slot := n, period := b.period, start := b.start, end_ := m.due / nsPerS, e := bookedSince b, totals := b.totals,
      maxima := b.maxima, flags := b.flags, medium := x.medium, eui := x.eui,
      firstAsn := b.firstAsn, lastAsn := b.lastAsn, adjust := b.adjust, hashed := false, undo := b.undo }
  let s1 := dirtySector 0x01 (s.onTar fun t => { t with store := t.store ++ [withIncomplete d] })
  let id := b.period / 2 ^ 26 * 2 ^ 26 + (b.period + 1) % 2 ^ 26
  let s2 := modSlot n (fun y => { y with bill :=
    { y.bill with period := id, start := m.due / nsPerS, maxima := [], flags := 0#16, firstAsn := 0, lastAsn := 0,
                  adjust := [], lastTotals := b.totals, undo := [] } }) s1
  match x.nextPlan with
  | some q => changePlan n q (m.due / nsPerS) s2
  | none => s2

/-- The mark comes of a step of TB3: it marks the step, or an instant that a forward step passed (R166, R188). -/
def ofStep (m : Mark) : Bool := m.kind == 4 || (m.flags.getLsbD 3 && !m.flags.getLsbD 0)

/-- A slot rolls past one mark (R177). A step that passes a period end touches both periods. -/
def rollMark (n : Nat) (s : State) (m : Mark) : State :=
  let x := slot s n
  if m.index ≤ x.bill.rolled then s else
  let done (u : State) : State := modSlot n (fun y => { y with bill := { y.bill with rolled := max y.bill.rolled m.index } }) u
  if ¬ Mark.covers m x.plan then done s
  else
    let s0 := modSlot n (fun y => { y with bill :=
      { y.bill with flags := y.bill.flags ||| when_ (m.flags.getLsbD 0) pfRestored ||| when_ (ofStep m) pfClockShift } }) s
    let s1 := match m.kind with
      | 1 => endWindow n m s0
      | 2 => modSlot n (fun y => { y with bill := { y.bill with flags := y.bill.flags ||| when_ (ofStep m) pfClockShift } })
          (closePeriod n m (endWindow n m s0))
      | 3 => modSlot n (fun y => { y with bill := { y.bill with tariff := m.tariff } }) (endWindow n m s0)
      | 4 => endWindow n m s0
      | _ => s0
    done s1

/-- A slot rolls past every mark above its rolled index, in index order (R177); one of a transparent shard has no books (R161). -/
def roll (n : Nat) (s : State) : State :=
  if (shard s (shardOf n)).stripped then s else (s.tar.marks.filter fun m => (slot s n).bill.rolled < m.index).foldl (rollMark n) s

/-- Slots of a plan, of those not EMPTY in a HELD shard: the slots of a shard that is FROZEN, DRAINING or INCOMING stand as
they are in its parts (R310, R313). -/
def slotsOfPlan (s : State) (p : Nat) : List Nat :=
  (s.met.slots.filter fun x => x.2.plan == p && decide ((shard s (shardOf x.1)).state = .held) && !(shard s (shardOf x.1)).stripped).map Prod.fst

/-- Slots rolled in turn. -/
def rollAll (l : List Nat) (s : State) : State := l.foldl (fun u n => roll n u) s

/-! ### Booking (R178, R180, R184) -/

/-- Where a part's energy goes. -/
inductive Home where
  | open_ | closed (period : Nat) | sealed_ (period : Nat)
  deriving DecidableEq, Repr

/-- The period of a plan that held an instant, by the periods ended: its ID, the plan's first where all began later. -/
def periodHolding (p : Nat) (ps : PlanState) (t : Nat) : Nat :=
  let l := ps.sealed_ ++ ps.closing.map fun c => (c.1, c.2.2.1, c.2.2.2)
  match l.find? fun c => decide (c.2.1 * nsPerS < t) && decide (t ≤ c.2.2 * nsPerS) with
  | some c => periodId p c.1
  | none => periodId p 1

/-- A record with an ASN above its slot's cutoff is adjustment for the period being sealed (R185). -/
def aboveCutoff (s : State) (n asn period : Nat) : Bool := match cutoffOf s n period with | some c => decide (c < asn) | none => false

/-- The period a part belongs to, of the plan the slot was under then (R178, R402). -/
def homeOf (s : State) (n asn : Nat) (part : Nat × Nat) : Home :=
  let x := slot s n
  if inOpen x part.2 then .open_
  else
    match closedAt s n part.2 with
    | some d => if aboveCutoff s n asn d.period then .sealed_ d.period else .closed d.period
    | none =>
      let p := planThen x part.2
      match planAt s p with
      | some ps => .sealed_ (periodHolding p ps part.2)
      | none => .open_

/-- Energies added under a tariff to a table keyed t * 4 + q. -/
def addE (t : Nat) (es : List Int) (l : Tbl Nat) : Tbl Nat :=
  (List.range 4).foldl (fun u q => Tbl.upd u (t * 4 + q) 0 fun o => ((o : Int) + es.getD q 0).toNat) l

/-- Adjustment energies added under a tariff. -/
def addA (t : Nat) (es : List Int) (l : Tbl Int) : Tbl Int :=
  (List.range 4).foldl (fun u q => Tbl.upd u (t * 4 + q) 0 fun o => o + es.getD q 0) l

/-- The lowest of two ASNs, 0 standing for none. -/
def minAsn (a b : Nat) : Nat := if a = 0 then b else min a b

/-- An adjustment naming a sealed period: the entry is claimed by its first booking; a third period overflows (R184). -/
def adjustBook (n period t : Nat) (es : List Int) (s : State) : State :=
  let x := slot s n
  if x.bill.adjust.any fun a => a.period == period then
    modSlot n (fun y => { y with bill := { y.bill with
      adjust := y.bill.adjust.map fun a => if a.period = period then { a with e := addA t es a.e } else a } }) s
  else if x.bill.adjust.length < 2 then
    modSlot n (fun y => { y with bill := { y.bill with adjust := y.bill.adjust ++ [{ period, e := addA t es [] }] } }) s
  else
    report 0x8005 kSlot n (le 4 period) 0x0805 1 n (le 4 period)
      (modSlot n (fun y => { y with bill := { y.bill with flags := y.bill.flags ||| pfOverflow } }) s)

/-- A booking into a period that a set back crossed is recorded once per slot and period, with the reading's time (R189). -/
def clockBackBook (n period end_ : Nat) (s : State) : State :=
  match planAt s (period / 2 ^ 26) with
  | some ps =>
    if period % 2 ^ 26 ∈ ps.back ∧ period ∉ (slot s n).bill.told then
      modSlot n (fun y => { y with bill := { y.bill with told := period :: y.bill.told } })
        (yew 0x2003 kSlot n (stampNs (end_ * nsPerS) ++ le 4 period) s)
    else s
  | none => s

/-- What a determinant is before a booking of an ASN with its flags (R185). -/
def Determinant.before (d : Determinant) (asn : Nat) (fl : BitVec 16) : DetUndo :=
  { asn, e := d.e, maxima := d.maxima, flags := d.flags, firstAsn := d.firstAsn, lastAsn := d.lastAsn, fl }

/-- What an open period is before a booking of an ASN with its flags (R185). -/
def Billing.before (b : Billing) (asn : Nat) (fl : BitVec 16) : DetUndo :=
  { asn, e := bookedSince b, maxima := b.maxima, flags := b.flags, firstAsn := b.firstAsn, lastAsn := b.lastAsn, fl }

/-- A list of what stood before each booking, with one more on a pleached device (R185). -/
def noteBefore (s : State) (u : DetUndo) (l : List DetUndo) : List DetUndo := if s.pair.record.isSome then l ++ [u] else l

/-- Energies enter a closed period: its determinant, the closing totals of the slot's periods closed after it, and the slot's totals,
which the next close counts from (R178). -/
def addClosed (n period asn t : Nat) (fl : BitVec 16) (es : List Int) (s : State) : State :=
  let last := (s.tar.store.filter fun d => d.slot == n && d.period == period).foldl (fun m d => max m d.end_) 0
  let s1 := s.onTar fun x => { x with store := x.store.map fun d =>
    if d.slot ≠ n then d
    else if d.period = period then { d with e := addE t es d.e, totals := addE t es d.totals, hashed := false, undo := noteBefore s (d.before asn fl) d.undo }
    else if last < d.end_ then { d with totals := addE t es d.totals }
    else d }
  modSlot n (fun y => { y with bill :=
    { y.bill with totals := addE t es y.bill.totals, lastTotals := addE t es y.bill.lastTotals } }) s1

/-- Booked-through rises (R165). -/
def bookedThrough (n end_ : Nat) (s : State) : State :=
  modSlot n (fun y => { y with bill := { y.bill with through := max y.bill.through end_ } }) s

/-- One part is booked (R178). -/
def bookPart (n asn end_ : Nat) (fl : BitVec 16) (part : Nat × Nat) (t : Nat) (es : List Int) (home : Home) (s : State) : State :=
  bookedThrough n end_ (match home with
    | .open_ =>
      modSlot n (fun y => { y with bill :=
        { y.bill with totals := addE t es y.bill.totals, flags := y.bill.flags ||| fl, firstAsn := minAsn y.bill.firstAsn asn,
                      lastAsn := max y.bill.lastAsn asn, undo := noteBefore s (y.bill.before asn fl) y.bill.undo } }) s
    | .closed period =>
      clockBackBook n period (part.2 / nsPerS) (modDet n period (fun d =>
        { d with flags := d.flags ||| fl, firstAsn := minAsn d.firstAsn asn, lastAsn := max d.lastAsn asn }) (addClosed n period asn t fl es s))
    | .sealed_ period =>
      clockBackBook n period (part.2 / nsPerS) (adjustBook n period t es
        (modSlot n (fun y => { y with bill := { y.bill with flags := y.bill.flags ||| fl } }) s)))

/-- The slot has rolled past an instant: a mark that ends windows there or later (R179). -/
def rolledPast (s : State) (n t : Nat) : Bool :=
  let x := slot s n
  (marksOf s x).any fun m => decide (m.kind ≤ 4) && decide (m.index ≤ x.bill.rolled) && decide (t ≤ m.due)

/-- The instants at which windows that a booked span touches end: its own window's, and in sliding mode those of the S sub-intervals
from its own on (R179). -/
def touchedEnds (s : State) (x : Slot) (part : Nat × Nat) : List Nat :=
  let p := slotRule s x part.2
  if p.sliding then (((endsOf s x part.2).filter fun e => decide (part.2 ≤ e)).mergeSort).take p.s
  else [(windowOf s x part.1 part.2).hi]

/-- The windows a booked span touches, those whose end the slot has rolled past computed again (R179). -/
def recompute (n : Nat) (part : Nat × Nat) (s : State) : State :=
  let x := slot s n
  ((touchedEnds s x part).filter fun e => rolledPast s n e).foldl
    (fun u e => (windowsAt u x e).foldl (fun v w => computeWindow n w v) u) s

/-- The spans and energies a record is booked as: whole while its time is still to come (R178, R180). -/
def bookedParts (s : State) (x : Slot) (future : Bool) (r : Interval) : List ((Nat × Nat) × List Int) :=
  let end_ := r.end_ * nsPerS
  if future then [((end_ - r.capture * nsPerS, end_), (List.range 4).map fun q => (bookedE r q : Int))] else partsOf (cutsOf s x) r

/-- A record's end lies later than TB3 plus the plan's clock-shift limit (R180). -/
def inFuture (s : State) (x : Slot) (r : Interval) : Bool :=
  let limit := match planAt s x.plan with | some ps => ps.plan.shift | none => 0
  decide (tb2 s + limit * nsPerS < r.end_ * nsPerS)

/-- The tariff of a part, and whether it is known: in force, for a record whose time is still to come (R178, R180). -/
def partTariff (s : State) (x : Slot) (future : Bool) (part : Nat × Nat) : Nat × Bool :=
  if future then (x.bill.tariff, true) else tariffAt s (planThen x part.2) part.1

/-- A measured record is booked: rolled first, cut, each part under its tariff into its period, then demand (R178 to R181). -/
def book (n : Nat) (r0 : Interval) (s0 : State) : State :=
  let s := roll n s0
  let x := slot s n
  let future := inFuture s x r0
  let half := r0.flags.getLsbD 2
  let repeated := x.valid.ends.any fun q => q.measured &&
    (q.end_ == r0.end_ || (q.half && half && decide (r0.end_ - r0.capture < q.end_) && decide (q.end_ - q.capture < r0.end_)))
  let unavailable := demandUnavailable x (slotRule s x (r0.end_ * nsPerS)) (if half then layoutCapture s x r0.capture else r0.capture)
  let oldest := least (x.ring.map fun q => (q.end_ - q.capture) * nsPerS)
  let late (part : Nat × Nat) : Bool :=
    match oldest with
    | some o => decide ((windowOf s x part.1 part.2).lo < o)
    | none => false
  let parts := bookedParts s x future r0
  let takes := !(future || repeated || unavailable || parts.all fun p => late p.1)
  let r := { r0 with inDemand := takes }
  let seen : EndSeen := { end_ := r0.end_, capture := r0.capture, measured := true, half }
  let s1 := modSlot n (fun y => { y with ring := (r :: y.ring).take 256, valid := { y.valid with ends := seen :: y.valid.ends } }) s
  let base := when_ (r0.flags.getLsbD 0) pfPowerDown ||| when_ repeated pfRepeated ||| when_ future pfFuture
    ||| when_ unavailable pfUnavailable ||| when_ half pfClockShift
  let s2 := parts.foldl (fun u p =>
    let (t, known) := partTariff u x future p.1
    let fl := base ||| when_ (!known) pfUnknown ||| when_ (!(future || repeated || unavailable) && late p.1) pfLate
    bookPart n r0.asn r0.end_ fl p.1 t p.2 (if future then .open_ else homeOf u n r0.asn p.1) u) s1
  let s3 := if takes then (parts.filter fun p => !late p.1).foldl (fun u p => recompute n p.1 u) s2 else s2
  showDemand n s3

/-! ### Meter clock shifts (R190) -/

/-- A flag of the period that holds an instant in ns: open, or closed and not sealed. -/
def flagPeriod (n t : Nat) (fl : BitVec 16) (s : State) : State :=
  if inOpen (slot s n) t then modSlot n (fun y => { y with bill := { y.bill with flags := y.bill.flags ||| fl } }) s
  else
    match closedAt s n t with
    | some d => modDet n d.period (fun d => { d with flags := d.flags ||| fl }) s
    | none => s

/-- What a record was booked as is taken back: its energies leave the periods they stand in, and it leaves the ring; maximum demands
and flags stay (R179, R190; assumption log 13). -/
def unbook (n asn : Nat) (r : Interval) (s : State) : State :=
  let x := slot s n
  let s1 := modSlot n (fun y => { y with
    ring := y.ring.erase r
    valid := { y.valid with ends := y.valid.ends.erase { end_ := r.end_, capture := r.capture, measured := true, half := false } } }) s
  (bookedParts s x false r).foldl (fun u p =>
    let t := (partTariff u x false p.1).1
    let es := p.2.map fun e => -e
    match homeOf u n r.asn p.1 with
    | .open_ => modSlot n (fun y => { y with bill := { y.bill with totals := addE t es y.bill.totals } }) u
    | .closed period => addClosed n period asn t 0#16 es u
    | .sealed_ period => adjustBook n period t es u) s1

/-- The parts of a record whose span holds a meter clock shift: (start, old] and (new, end], pro rata; a shift past its end leaves the
first alone (R190). -/
def splitAtShift (old new : Nat) (r : Interval) : List Interval :=
  let start := r.end_ - r.capture
  if start < old ∧ old < r.end_ then
    let l1 := old - start
    let l2 := r.end_ - new
    let e1 := r.e.map fun e => (halfEven ((e : Int) * l1) (max 1 (l1 + l2))).toNat
    let flags := r.flags ||| 0x0004#16
    { r with flags, capture := l1, end_ := old, e := e1 } ::
      (if new < r.end_ then [{ r with flags, capture := l2, e := (r.e.zip e1).map fun p => p.1 - p.2 }] else [])
  else [r]

/-- A record split at every meter clock shift inside it, in the order the shifts came (R190). -/
def splitShifts (shifts : List (Nat × Nat)) (r : Interval) : List Interval :=
  shifts.foldl (fun l p => l.flatMap (splitAtShift p.1 p.2)) [r]

/-- The records booked whole whose span holds a meter clock shift, each with its parts. -/
def shiftSplits (s : State) (n : Nat) (p : Nat × Nat) : List (Interval × List Interval) :=
  ((slot s n).ring.filter fun r => r.method == 0 && !r.flags.getLsbD 2 && splitAtShift p.1 p.2 r != [r]).map fun r =>
    (r, splitAtShift p.1 p.2 r)

/-- A meter clock shift beyond the limit becomes known: recorded, the periods it touches flagged, and records already booked whole
whose span holds it booked again as its parts (R166, R190). -/
def meterShift (n asn : Nat) (s : State) (p : Nat × Nat) : State :=
  let s1 := yew 0x2002 kSlot n (stampNs (p.1 * nsPerS) ++ stampNs (p.2 * nsPerS)) s
  let s2 := flagPeriod n (p.2 * nsPerS) pfClockShift (flagPeriod n (p.1 * nsPerS) pfClockShift s1)
  (shiftSplits s2 n p).foldl (fun u q => q.2.foldl (fun v h => book n h v) (unbook n asn q.1 u)) s2

/-- An adjustment of so many seconds is beyond a limit. -/
def beyond (limit : Nat) (p : Nat × Nat) : Bool := decide (limit < max p.1 p.2 - min p.1 p.2)

/-! ### Steps of TB3 (R188, R189) -/

/-- A set back of TB3 across a PERIOD_END of a plan is recorded, and the open period of its slots and the closed ones crossed carry
CLOCK_BACK (R189). `crossed` says which due instants, in TAI s, it crosses. -/
def crossBack (crossed : Nat → Bool) (data : Bytes) (newTb3 : Nat) (s : State) (p : Nat) : State :=
  match planAt s p with
  | none => s
  | some ps =>
    let ends := (ps.sealed_ ++ ps.closing.map fun c => (c.1, c.2.2.1, c.2.2.2)).filter fun c => crossed c.2.2
    if ends = [] then s
    else
      let s1 := report 0x2003 kPlan p data 0x0804 1 p (le 8 (newTb3 / nsPerS)) s
      let s2 := rollAll (slotsOfPlan s1 p) s1
      let s3 := (slotsOfPlan s2 p).foldl (fun v n =>
        modSlot n (fun y => { y with bill := { y.bill with flags := y.bill.flags ||| pfClockBack } }) v) s2
      let s4 := s3.onTar fun t => { t with store := t.store.map fun d =>
        if (ends.any fun c => periodId p c.1 == d.period) then { d with flags := d.flags ||| pfClockBack } else d }
      modPlan p (fun x => { x with back := (x.back ++ ends.map Prod.fst).dedup }) s4

/-- TB3 has stepped: beyond a plan's limit a CLOCK_STEP mark splits its windows, and a forward step creates the boundaries it passes;
any set back across a period end is recorded (R188, R189). Instants in ns: old and new TAI, the size of the step in legal seconds, a
part of a second counted as one, old and new TB3. A change of the zone record moves TB3 alone: its period ends are compared in the
legal time of the old record. -/
def stepTb3 (oldTai newTai : Nat) (size : Nat) (back : Bool) (oldTb3 newTb3 : Nat) (s : State) : State :=
  let hit := ((planList everyone s).filter fun p => decide (p.2.plan.shift < size)).map Prod.fst
  let data := stampNs oldTb3 ++ stampNs newTb3
  let s1 := if hit = [] then s
    else createMark mkClockStep oldTai hit 0 0#16 0 (report 0x2001 kDevice 0 data 0x0804 1 0 (le 8 (newTb3 / nsPerS)) s)
  if back then
    let crossed (t : Nat) : Bool :=
      if newTai = oldTai then
        decide ((newTb3 : Int) < (t * nsPerS : Nat) + ((oldTb3 : Int) - oldTai))
          && decide (((t * nsPerS : Nat) : Int) + ((oldTb3 : Int) - oldTai) ≤ oldTb3)
      else decide (newTai < t * nsPerS) && decide (t * nsPerS ≤ oldTai)
    ((planList everyone s).map Prod.fst).foldl (crossBack crossed data newTb3) s1
  else
    match s1.tim.zone with
    | some z =>
      if hit = [] ∨ s1.dev.waitTb3 then s1
      else markMissed z (fun p => decide (p ∈ hit)) (newTai / nsPerS) mfSkipped (max (newTai - oldTai) (newTb3 - oldTb3) / (60 * nsPerS) + 64) s1
    | none => s1

end Sys2Proof.Machine
end

