-- ==== Sys2Proof/Machine/HotState.lean ====
section
/-!
DEFINITION. The 16 KiB of a slot's hot state as the host reads it and as a shard part carries it (R146, R156, R165, R219).
-/

namespace Sys2Proof.Machine

/-- The validation area, whose layout the manual does not give (R146). Free, assumption log 15. -/
opaque encodeValid : Valid → Bytes

/-- The link and downlink area, whose layout the manual does not give (R146, R311): connection, next invocation counter, reserved
block and pending commands. Free, assumption log 15. -/
opaque encodeLink : Option Conn → Nat → Nat → List DlCmd → Bytes

/-- What a validation area spells. Free, assumption log 15. -/
opaque decodeValid : Bytes → Valid

/-- The invocation counter block a link area spells. Free, assumption log 15. -/
opaque decodeIc : Bytes → Nat

/-- An interval record (R156). -/
def intervalBytes (r : Interval) : Bytes :=
  let b := le 6 r.end_ ++ le 2 r.flags.toNat ++ ((List.range 4).flatMap fun q => le 4 (r.e.getD q 0))
    ++ ((List.range 4).flatMap fun q => le 2 (r.v.getD q 0)) ++ le 8 r.asn ++ le 1 r.status ++ le 1 r.method
    ++ le 2 r.rules.toNat ++ zeros 2
  b ++ le 2 (crc16 b).toNat

/-- An interval record as its 48 bytes spell it, of a layout's capture period. -/
def intervalOf (capture : Nat) (b : Bytes) : Interval :=
  { end_ := field b 0 6, flags := BitVec.ofNat 16 (field b 6 2), e := (List.range 4).map fun q => field b (8 + 4 * q) 4,
    v := (List.range 4).map fun q => field b (24 + 2 * q) 2, asn := field b 32 8, status := field b 40 1,
    method := field b 41 1, rules := BitVec.ofNat 16 (field b 42 2), capture, inDemand := field b 41 1 == 0 }

/-- A register entry of 32 B (R146, R162). -/
def regBytes (r : RegEntry) : Bytes :=
  slice r.obis 0 6 ++ le 2 r.classId ++ le 1 r.attr ++ le 1 r.target ++ le 1 (unsigned 1 r.scaler) ++ le 1 r.unit
    ++ le 8 (unsigned 8 r.value) ++ stampNs r.time

/-- The instant of a 96-bit timestamp, ns (R224). -/
def nsOf (x : Nat) : Nat := x / 2 ^ 48 * nsPerS + x / 2 ^ 16 % 2 ^ 32

/-- A register entry as its 32 bytes spell it. -/
def regOf (b : Bytes) : RegEntry :=
  { obis := slice b 0 6, classId := field b 6 2, attr := field b 8 1, target := field b 9 1, scaler := fieldS b 10 1,
    unit := field b 11 1, value := fieldS b 12 8, time := nsOf (field b 20 12) }

/-- A maximum demand entry (R165). -/
def maxBytes (m : MaxDemand) : Bytes :=
  le 4 m.w ++ le 6 m.end_ ++ le 2 (flag 0 m.incomplete + flag 1 m.partial_ + flag 2 m.sliding)

/-- A maximum demand entry as its 12 bytes spell it. -/
def maxOf (b : Bytes) : MaxDemand :=
  let f := field b 10 2
  { w := field b 0 4, end_ := field b 4 6, incomplete := f % 2 == 1, partial_ := f / 2 % 2 == 1, sliding := f / 4 % 2 == 1 }

/-- An adjustment entry (R184). -/
def adjustBytes (a : Adjust) : Bytes :=
  le 4 a.period ++ zeros 4 ++ (List.range 32).flatMap fun i => le 4 (unsigned 4 (Tbl.getD a.e i 0))

/-- A table of `n` values that are not all zero, by index. -/
def tblOf {α : Type} [DecidableEq α] (zero : α) (n : Nat) (f : Nat → α) : Tbl α :=
  ((List.range n).map fun i => (i, f i)).filter fun p => p.2 ≠ zero

/-- The grand total of a quantity: the sum of its tariff totals (R164). -/
def grandTotal (t : Tbl Nat) (q : Nat) : Nat := ((List.range 8).map fun k => Tbl.getD t (k * 4 + q) 0).sum

/-- The billing area (R165). -/
def billingBytes (b : Billing) : Bytes :=
  le 8 b.rolled ++ le 4 b.period ++ le 1 b.tariff ++ le 1 (flag 0 b.windowOpen + 16 * (b.filled % 16)) ++ le 2 b.flags.toNat
    ++ le 8 b.firstAsn ++ le 8 b.lastAsn ++ le 6 b.through ++ le 6 b.winStart ++ zeros 4 ++ le 8 b.winE.1 ++ le 8 b.winE.2
    ++ ((List.range 32).flatMap fun i => le 8 (Tbl.getD b.totals i 0))
    ++ ((List.range 4).flatMap fun q => le 8 (grandTotal b.totals q))
    ++ ((List.range 16).flatMap fun i => maxBytes (Tbl.getD b.maxima i {}))
    ++ ((List.range 15).flatMap fun i => le 4 (b.sliding.getD i (0, 0)).1 ++ le 4 (b.sliding.getD i (0, 0)).2)
    ++ ((List.range 2).flatMap fun i => match b.adjust[i]? with | some a => adjustBytes a | none => zeros 136) ++ zeros 88

/-- The billing area as its 1,024 bytes spell it; start and totals at the last close come from the plan's period and the
part's own books (assumption log 15). -/
def billingOf (b : Bytes) (start : Nat) (last : Tbl Nat) : Billing :=
  let adj (o : Nat) : List Adjust :=
    if field b o 4 = 0 then []
    else [{ period := field b o 4, e := tblOf 0 32 fun i => fieldS b (o + 8 + 4 * i) 4 }]
  { rolled := field b 0 8, period := field b 8 4, tariff := field b 12 1, windowOpen := field b 13 1 % 2 == 1,
    filled := field b 13 1 / 16, flags := BitVec.ofNat 16 (field b 14 2), firstAsn := field b 16 8, lastAsn := field b 24 8,
    through := field b 32 6, winStart := field b 38 6, winE := (field b 48 8, field b 56 8),
    totals := tblOf 0 32 fun i => field b (64 + 8 * i) 8, lastTotals := last,
    maxima := tblOf {} 16 fun i => maxOf (slice b (352 + 12 * i) 12),
    sliding := (List.range 15).map fun i => (field b (544 + 8 * i) 4, field b (548 + 8 * i) 4),
    adjust := adj 664 ++ adj 800, start }

/-- A group number, or 0xFFFF for none. -/
def groupWord (g : Option Nat) : Bytes := le 2 (g.getD 0xFFFF)

/-- The combined score of a kind: the greater of the two (R218). -/
def combined (l : LossSlot) (k : Nat) : Nat := max (l.reported.getD k 0) (l.inferred.getD k 0)

/-- The loss and tamper area (R219). -/
def lossBytes (l : LossSlot) : Bytes :=
  groupWord l.member ++ le 1 l.phase ++ le 1 (flag 0 l.excluded + flag 1 l.proposal.isSome) ++ groupWord l.reference ++ zeros 2
    ++ ((List.range 4).flatMap fun k => le 1 (combined l k)) ++ ((List.range 4).flatMap fun k => le 1 (l.reported.getD k 0))
    ++ ((List.range 4).flatMap fun k => le 1 (l.inferred.getD k 0)) ++ le 1 l.alarms.toNat ++ le 1 l.neutral ++ zeros 2
    ++ le 12 l.reverse.toNat
    ++ ((List.range 14).flatMap fun i => match l.topology[i]? with | some (g, p) => le 2 g ++ le 1 p ++ zeros 1 | none => zeros 4)
    ++ zeros 164

/-- The loss and tamper area as its 256 bytes spell it. The area names no proposal beside PROPOSAL_OPEN: the one that stands is taken
to be the latest day's best candidate (R219; DESIGN CHOICE, assumption log 19). -/
def lossOf (b : Bytes) : LossSlot :=
  let g (o : Nat) : Option Nat := if field b o 2 = 0xFFFF then none else some (field b o 2)
  let days := ((List.range 14).map fun i => (field b (36 + 4 * i) 2, field b (38 + 4 * i) 1)).takeWhile fun x => x != (0, 0)
  { member := g 0, phase := field b 2 1, excluded := field b 3 1 % 2 == 1, reference := g 4,
    reported := (List.range 4).map fun k => field b (12 + k) 1, inferred := (List.range 4).map fun k => field b (16 + k) 1,
    alarms := BitVec.ofNat 4 (field b 20 1), neutral := field b 21 1, reverse := BitVec.ofNat 96 (field b 24 12),
    topology := days, proposal := if field b 3 1 / 2 % 2 = 1 then some (days.headD (0, 0)) else none }

/-- The code of a slot state (R146). -/
def slotStateCode : SlotState → Nat
  | .empty => 0
  | .commissioning => 1
  | .active => 2

/-- A slot's hot state without its link area (R146). -/
def slotBytes (n : Nat) (x : Slot) (link : Bytes) : Bytes :=
  le 8 x.eui.toNat ++ le 8 x.title.toNat ++ le 4 n ++ le 1 (slotStateCode x.state) ++ le 1 x.medium ++ le 1 x.suite
    ++ le 1 (flag 0 x.imported) ++ le 1 x.keyPlan ++ le 1 x.plan ++ le 1 x.ruleSet ++ le 1 x.layout ++ le 2 x.gen
    ++ le 2 (x.staged.getD 0) ++ le 8 x.asn ++ (if x.accepted = 0 then zeros 12 else le 12 (stamp96 x.accepted))
    ++ le 4 (flag 0 x.staged.isSome + flag 1 x.generating + flag 2 x.exhausted) ++ le 8 x.commEnd
    ++ ((List.range 8).flatMap fun i => le 4 (min (x.counters.getD i 0) (2 ^ 32 - 1))) ++ zeros 160
    ++ billingBytes x.bill ++ slice (encodeValid x.valid) 0 512 ++ lossBytes x.loss ++ slice link 0 256
    ++ ((List.range 56).flatMap fun i => match x.cache[i]? with | some r => regBytes r | none => zeros 32)
    ++ (List.range 256).flatMap fun i => match x.ring[i]? with | some r => intervalBytes r | none => zeros 48

/-- The 16 KiB of hot state of a slot (R146). -/
def hotState (s : State) (n : Nat) : Bytes :=
  let x := slot s n
  slotBytes n x (encodeLink (Tbl.get s.br.conns n) x.icNext (x.icBlock.getD 0) (s.dl.cmds.filter fun c => c.slot == n))

/-- A slot as 16 KiB of hot state spell it. -/
def slotOfBytes (b : Bytes) (capture start : Nat) (last : Tbl Nat) (blob staged : Option Bytes) : Slot :=
  let f := field b 0x34 4
  { eui := BitVec.ofNat 64 (field b 0 8), title := BitVec.ofNat 64 (field b 8 8),
    state := if field b 0x14 1 = 1 then .commissioning else if field b 0x14 1 = 2 then .active else .empty,
    medium := field b 0x15 1, suite := field b 0x16 1, imported := field b 0x17 1 == 1, keyPlan := field b 0x18 1,
    plan := field b 0x19 1, ruleSet := field b 0x1A 1, layout := field b 0x1B 1, gen := field b 0x1C 2,
    staged := if f % 2 = 1 then some (field b 0x1E 2) else none, asn := field b 0x20 8,
    accepted := nsOf (field b 0x28 12) * nsUnit, generating := f / 2 % 2 == 1, exhausted := f / 4 % 2 == 1,
    commEnd := field b 0x38 8, counters := (List.range 8).map fun i => field b (0x40 + 4 * i) 4,
    blob, stagedBlob := staged, bill := billingOf (slice b 0x100 1024) start last, valid := decodeValid (slice b 0x500 512),
    loss := lossOf (slice b 0x700 256), icNext := decodeIc (slice b 0x800 256), icBlock := some (decodeIc (slice b 0x800 256)),
    cache := ((List.range 56).map fun i => slice b (0x900 + 32 * i) 32).filterMap fun r => if allZero r then none else some (regOf r),
    ring := ((List.range 256).map fun i => slice b (0x1000 + 48 * i) 48).filterMap fun r =>
      if allZero r then none else some (intervalOf capture r) }

end Sys2Proof.Machine
end

