-- ==== Sys2Proof/Machine/Commands.lean ====
section
/-!
DEFINITION. How a host command runs, whatever its opcode: the check order, sessions, tags, signatures, tokens,
completions and the commands that wait (03, 20). A family gives each opcode a `CmdDef`; `runCmd` does the rest.
-/

namespace Sys2Proof.Machine

/-! ### Status codes (table Status codes) -/

def stDone : Nat := 0x0000
def stAccepted : Nat := 0x0001
def stPending : Nat := 0x0002
def stBadArgument : Nat := 0x0010
def stBadLength : Nat := 0x0011
def stOutOfRange : Nat := 0x0012
def stBusy : Nat := 0x0020
def stNoResource : Nat := 0x0021
def stSignatureFailed : Nat := 0x0030
def stStaleNonce : Nat := 0x0031
def stStateConflict : Nat := 0x0040
def stIgnored : Nat := 0x007F
def stInternal : Nat := 0x00FF

/-- Role codes (table Role codes). -/
inductive Role where
  /-- 0: any, session 0 included. -/
  | any
  /-- A: any open session. -/
  | opened
  /-- O: OPERATOR or SECURITY. -/
  | oper
  /-- S: SECURITY. -/
  | secur
  /-- G: SECURITY, signed-only. -/
  | signed
  /-- M: MAINTENANCE. -/
  | maint
  deriving DecidableEq, Repr

/-- What a command's own rules see: its descriptor, its argument bytes (inline; for a signed-only command the payload
before the nonce, R392) and its payload (before the nonce). -/
structure Ctx where
  /-- The descriptor. -/
  d : Desc
  /-- The argument bytes. -/
  args : Bytes
  /-- The payload. -/
  payload : Bytes

/-- An unsigned argument of `n` bytes at an offset. -/
def Ctx.arg (c : Ctx) (off n : Nat) : Nat := field c.args off n

/-- What a command's effect answers. -/
inductive Reply where
  /-- It is complete, with its result. -/
  | result (bs : Bytes)
  /-- Its completion comes later. -/
  | later

/-- One opcode: who may issue it, what it checks at each step of the check order, and its effect. -/
structure CmdDef where
  /-- The opcode. -/
  opcode : Nat
  /-- Its role code; two commands have one that depends on the state (R259, R386). -/
  role : State → Role
  /-- Its Result column reads W (R393). -/
  token : Bool := false
  /-- The payload length is the one the opcode requires (before nonce and signature). -/
  lenOk : State → Desc → Nat → Bool := fun _ _ n => n == 0
  /-- A completion to return in its place (R399). -/
  repeated : State → Ctx → Option Completion := fun _ _ => none
  /-- Step 6, after the role of R395 and the address. -/
  args : State → Ctx → Option Nat := fun _ _ => none
  /-- Step 7, after R381. -/
  state : State → Ctx → Option Nat := fun _ _ => none
  /-- Step 8, before the count of tokens. -/
  res : State → Ctx → Option Nat := fun _ _ => none
  /-- What a failure at steps 6 to 8 leaves behind. -/
  failed : Ctx → Nat → State → State := fun _ _ s => s
  /-- The objects it changes (R396). -/
  objects : State → Ctx → List (Nat × Nat) := fun _ _ => []
  /-- It waits though no running command holds its objects. -/
  waits : State → Ctx → Bool := fun _ _ => false
  /-- Its effect. -/
  act : Ctx → State → Reply × State

/-- A status when a condition fails. -/
def orElse (c : Bool) (st : Nat) (rest : Option Nat) : Option Nat := if c then rest else some st

/-- A status when a condition fails, nothing else to check. -/
def orFail (c : Bool) (st : Nat) : Option Nat := if c then none else some st

/-! ### Completion rings (R63, R73) -/

/-- Entries of a completion ring (table CQ_CTRL). -/
def cqEntries (r : Ring) : Nat := 64 * 2 ^ bits r.cqCtrl 0 4

/-- The device may write the next entry: CQ_ENABLE is set and the entry lies before CQ_HEAD minus one (R63). -/
def cqRoom (r : Ring) : Bool :=
  r.cqCtrl.getLsbD 4 && (r.cqTail.toNat + 1) % cqEntries r != r.cqHead.toNat % cqEntries r

/-- The coalescing count of CQ_CTRL or ER_CTRL: 0 means 1. -/
def coalesceCount (ctrl : Word) : Nat := max 1 (bits ctrl 8 8)

/-- An entry of completion ring `n` awaits its interrupt: at the count the vector fires; the first starts the time. -/
def cqInterrupt (n : Nat) (s : State) : State :=
  let r := ring s n
  if ¬ r.cqCtrl.getLsbD 5 then s
  else if coalesceCount r.cqCtrl ≤ r.cqUnsignalled + 1 then
    signal n (modRing n (fun x => { x with cqUnsignalled := 0, cqDeadline := none }) s)
  else
    let time := bits r.cqCtrl 16 16
    modRing n (fun x =>
      { x with cqUnsignalled := x.cqUnsignalled + 1,
               cqDeadline := if x.cqUnsignalled = 0 ∧ time ≠ 0 then some (tb6 s + time * 1000) else x.cqDeadline }) s

/-- Submission enable of RING_CTRL. -/
def Ring.submits (r : Ring) : Bool := r.ringCtrl.getLsbD 0

/-- Descriptors between head and tail are fetched, at most 4,095 outstanding, while the ring submits, its completion ring has
room and the device serves it; their contents come as the commands that follow (R62, R63, assumption log 22). -/
def fetch (n : Nat) (s : State) : State :=
  let r := ring s n
  let served := match s.dev.phase with
    | .running => s.dev.mboxReady
    | .romRecovery code => n == 0 && code != 1 && code != 2
    | _ => false
  if served && r.submits && r.heldCq.isEmpty && cqRoom r then
    modRing n (fun x =>
      let k := min (x.sqTail - x.sqHead).toNat (4095 - x.outstanding)
      { x with sqHead := x.sqHead + BitVec.ofNat 12 k, outstanding := x.outstanding + k }) s
  else s

/-- One completion entry is written with the ring's phase, which inverts at the wrap; it frees a descriptor slot, and
fetching goes on. -/
def writeEntry (n : Nat) (c : Completion) (noIrq : Bool) (s : State) : State :=
  let r := ring s n
  let next := (r.cqTail.toNat + 1) % cqEntries r
  let s1 := emit (.completion n r.cqTail.toNat r.cqPhase c) s
  let s2 := modRing n (fun x =>
    { x with cqTail := BitVec.ofNat 12 next, cqPhase := if next = 0 then !x.cqPhase else x.cqPhase,
             outstanding := x.outstanding - 1 }) s1
  fetch n (if noIrq then s2 else cqInterrupt n s2)

/-- Held completions are written in finishing order while there is room (R63). -/
def drainHeld (n : Nat) : List (Completion × Bool) → State → State
  | [], s => modRing n (fun x => { x with heldCq := [] }) s
  | (c, q) :: rest, s =>
    if cqRoom (ring s n) then drainHeld n rest (writeEntry n c q s)
    else modRing n (fun x => { x with heldCq := (c, q) :: rest }) s

/-- A finished command's completion is written, or held behind those already held (R63). -/
def complete (n : Nat) (c : Completion) (noIrq : Bool) (s : State) : State :=
  let r := ring s n
  if r.heldCq = [] && cqRoom r then writeEntry n c noIrq s
  else modRing n (fun x => { x with heldCq := x.heldCq ++ [(c, noIrq)] }) s

/-- A command's own completion: none for one fetched before a reset of the HOST island, whose completion is kept and returned
when the host submits its tag again (R57). -/
def reply (n : Nat) (c : Completion) (noIrq : Bool) (s : State) : State := if s.host.quiet then s else complete n c noIrq s

/-- The ring a command's later completion goes to. -/
def replyRings (d : Desc) (s : State) : List (Nat × Bool) := if s.host.quiet then [] else [(d.ring.val, Desc.noIrq d)]

/-- A completion without a token. -/
def plain (tag : Word) (status : Nat) (result : Bytes) : Completion :=
  { tag, status, token := false, len := result.length, result }

/-! ### Sessions and tags (R47, R48, R67) -/

/-- The session has passed its expiry (R67, R260). -/
def expired (s : State) (x : Session) : Bool :=
  (match x.expiryTb7 with | some t => decide (t ≤ tb7 s) | none => false)
    || (x.role == 2 && tb2Valid s && decide (x.notAfter ≤ tb2s s))

/-- The open session of an ID. -/
def session (s : State) (id : Word) : Option Session :=
  if id = 0#32 then none else s.host.sessions.find? fun x => x.id == id && !expired s x

/-- A session changed. -/
def modSession (id : Word) (f : Session → Session) (s : State) : State :=
  s.onHost fun h => { h with sessions := h.sessions.map fun x => if x.id = id then f x else x }

/-- A session closes: it goes, and a maintenance unlock of its own locks again (R67, R70). -/
def closeSession (id : Word) (s : State) : State :=
  (s.onHost fun h => { h with sessions := h.sessions.filter fun x => x.id != id }).onVlt fun v =>
    { v with maintUnlocked := if v.maintUnlocked = some id then none else v.maintUnlocked }

/-- A tag lies below the window of 65,536 tags at and below the highest (R48). -/
def belowWindow (x : Session) (tag : Word) : Bool :=
  match x.highest with
  | none => false
  | some h => !serialAfter32 tag h && decide (65535 < (h - tag).toNat)

/-- The highest tag seen rises to a tag above it; records that leave the window go (R48). A use of the session is noted
(R68). -/
def seeTag (id tag : Word) (s : State) : State :=
  let s1 := modSession id (fun x =>
    let h := match x.highest with
      | none => tag
      | some h => if serialAfter32 tag h then tag else h
    { x with highest := some h, records := x.records.filter fun r => decide ((h - r.tag).toNat ≤ 65535),
             lastUse := tb2s s, useOrder := s.host.useCount }) s
  s1.onHost fun h => { h with useCount := h.useCount + 1 }

/-- A recorded command of a session's window. -/
def recorded (x : Session) (tag : Word) : Option CmdRecord := x.records.find? fun r => r.tag == tag

/-- A command's record is made or given its completion. -/
def record (id tag : Word) (c : Option Completion) (s : State) : State :=
  modSession id (fun x =>
    { x with records := { tag, completion := c } :: x.records.filter fun r => r.tag != tag }) s

/-- The original completion as it is returned again: the result length is zero once its token is released (R48). -/
def again (s : State) (c : Completion) : Completion :=
  if c.token && !(s.host.tokens.any fun t => le 4 t.id.toNat == slice c.result 0 4) then { c with len := 0 } else c

/-- A session's role admits a role code (table Role codes, R67). -/
def admits (r : Role) (x : Option Session) : Bool :=
  match r, x with
  | .any, _ => true
  | _, none => false
  | .opened, some _ => true
  | .oper, some y => y.role == 1 || y.role == 2
  | .secur, some y => y.role == 2
  | .signed, some y => y.role == 2
  | .maint, some y => y.role == 3

/-- Step 2 passes: the session a descriptor names is open, and it admits the role code (R66, R259, table Check order). -/
def admitted (r : Role) (d : Desc) (s : State) : Bool :=
  admits r (session s d.session) && (d.session == 0#32 || (session s d.session).isSome)

/-! ### Deferred completions (R48, R304, R416) -/

/-- A running command finishes: its completion goes to every ring that holds a descriptor with its tag, and into its
session's record (R48). -/
def finishRunning (id tag : Word) (c : Completion) (s : State) : State :=
  match s.host.running.find? fun x => x.session == id && x.tag == tag with
  | none => s
  | some x =>
    let s1 := s.onHost fun h => { h with running := h.running.erase x }
    let s2 := record id tag (some c) s1
    x.rings.foldl (fun t p => complete p.1 c p.2 t) s2

/-! ### Signatures (R69) -/

/-- The message a signed command's signature covers. -/
def signedMessage (opcode : Nat) (d : Desc) (body nonce : Bytes) : Bytes :=
  ascii "KHCMD" ++ le 2 opcode ++ le 2 d.flags.toNat ++ le 4 d.tag.toNat ++ le 4 d.session.toNat ++ le 4 d.plen.toNat
    ++ body ++ nonce

/-- The signature under a fixed slot's public key. -/
def verifyUnder (s : State) (keySlot : Nat) (msg sig : Bytes) : Bool :=
  match Tbl.get s.vlt.keys keySlot with
  | some k => Config.falconVerify k.key msg sig
  | none => false

/-- Resource 6 of Hawthorn, the Falcon-1024 unit, is free and Holly's requests are heard (R261, R359, R364). -/
def falconFree (s : State) : Bool := (Tbl.get s.pwr.owners 6).isNone && !s.pwr.disabled.getLsbD 17

/-- Holly claims the Falcon-1024 unit for a verification or a signature, which counts as a grant without a wait (R261, R361). -/
def claimFalcon (s : State) : State :=
  s.onPwr fun p => { p with res := Tbl.upd p.res 6 (0#32, 0#32) fun w => (BitVec.ofNat 32 (min (w.1.toNat + 1) (2 ^ 32 - 1)), w.2) }

/-- A count per hour under a key: how many, and whether the window is still open (R262, R223, R281). -/
def hourCount (key : Nat) (s : State) : Nat :=
  match s.yew.bursts.find? fun b => b.1 == key with
  | some (_, t, n, _) => if tb6 s < t + nsHour then n else 0
  | none => 0

/-- One more written in the hour of a key. -/
def hourBump (key : Nat) (written : Bool) (s : State) : State :=
  s.onYew fun y =>
    let old := y.bursts.find? fun b => b.1 == key
    let fresh : Nat × Nat × Nat × Nat := match old with
      | some (_, t, n, m) => if tb6 s < t + nsHour then (key, t, if written then n + 1 else n, if written then m else m + 1)
                             else (key, tb6 s, if written then 1 else 0, if written then 0 else 1)
      | none => (key, tb6 s, if written then 1 else 0, if written then 0 else 1)
    { y with bursts := fresh :: y.bursts.filter fun b => b.1 != key }

/-- How many were left unwritten in an hour of a key that has passed. -/
def hourLeft (key : Nat) (s : State) : Nat :=
  match s.yew.bursts.find? fun b => b.1 == key with
  | some (_, t, _, m) => if t + nsHour ≤ tb6 s then m else 0
  | none => 0

/-- The record of the count left unwritten under a key: a tamper change or an unreadable sector of the device, a lost connection,
a session's failed signature (R135, R223, R262, R281; its layout is a DESIGN CHOICE, assumption log 59). -/
def hourSummary (key left : Nat) (s : State) : State :=
  let code := key / 2 ^ 40
  if code = 0x4001 then yew 0x4001 kDevice 0 (le 2 0 ++ le 4 left) s
  else if code = 0x6002 then yew 0x6002 kDevice 0 (le 4 left) s
  else if code = 0x9201 then yew 0x9201 kDevice 0 (le 4 0 ++ le 4 left) s
  else yew code kSession (key % 2 ^ 40) (le 2 0 ++ le 4 left) s

/-- The hour of a key is closed: the count left unwritten, if any, is written. -/
def closeHour (key : Nat) (s : State) : State :=
  let left := hourLeft key s
  if left = 0 then s else hourSummary key left (s.onYew fun y => { y with bursts := y.bursts.filter fun b => b.1 != key })

/-- Every hour that has passed with something left unwritten is closed. -/
def closeHours (s : State) : State := (s.yew.bursts.map Prod.fst).foldl (fun t k => closeHour k t) s

/-- Something written at most `most` times an hour under a key; the count left unwritten follows once the hour has passed. -/
def hourly (key most : Nat) (write : State → State) (s : State) : State :=
  let s1 := closeHour key s
  if hourCount key s1 < most then hourBump key true (write s1) else hourBump key false s1

/-- SIGNATURE_FAILED is recorded, at most 16 an hour per session (R262). -/
def signatureFailed (sess : Word) (opcode : Nat) (s : State) : State :=
  hourly (limitKey 0x3021 sess.toNat) 16
    (report 0x3021 kSession sess.toNat (le 2 opcode) 0x0C04 1 sess.toNat (le 2 opcode)) s

/-! ### The check order (R66) -/

/-- The payload the device reads: from BAR2 or from host memory (R65). -/
def payloadOf (s : State) (d : Desc) : Bytes :=
  if Desc.inBar2 d then Memory.readN s.host.bar2 d.paddr.toNat d.plen.toNat else slice d.payload 0 d.plen.toNat

/-- The payload is within 16 MiB and within BAR2 when it lies there (R65). -/
def payloadFits (d : Desc) : Bool :=
  decide (d.plen.toNat ≤ 2 ^ 24) && (!Desc.inBar2 d || d.plen == 0#32 || decide (d.paddr.toNat + d.plen.toNat ≤ 2 ^ 28))

/-- No part of the payload lies in a line of BAR2 lost to an uncorrectable error (R288). -/
def payloadSound (s : State) (d : Desc) : Bool :=
  !Desc.inBar2 d || d.plen == 0#32 ||
    s.host.badLines.all fun a => decide (a * 128 + 128 ≤ d.paddr.toNat) || decide (d.paddr.toNat + d.plen.toNat ≤ a * 128)

/-- Bytes a signed-only command adds to its payload: nonce and signature (R392). -/
def sealBytes : Nat := 8 + 1280

/-- The payload length a command's own rule judges. -/
def bodyLength (r : Role) (d : Desc) : Option Nat :=
  if r = .signed then (if sealBytes ≤ d.plen.toNat then some (d.plen.toNat - sealBytes) else none) else some d.plen.toNat

/-- What the command's own rules see (R392). -/
def ctxOf (s : State) (r : Role) (d : Desc) : Ctx :=
  let p := payloadOf s d
  if r = .signed then { d, args := p.take (p.length - sealBytes), payload := p.take (p.length - sealBytes) }
  else { d, args := d.inline, payload := p }

/-- Opcodes that run only in core role, and only in field role (R395). -/
def coreOnly (op : Nat) : Bool := op / 256 == 5 || op == 0x0F0F
def fieldOnly (op : Nat) : Bool := op ∈ [0x0301, 0x0302, 0x0303, 0x0304, 0x0307, 0x020A, 0x0305, 0x0306]

/-- The device's role admits the opcode (R395). -/
def roleFits (s : State) (op : Nat) : Bool := if s.dev.core then !fieldOnly op else !coreOnly op

/-- Step 6: the role of R395, the payload address, the inline bytes of a signed-only command, then its own arguments. -/
def checkArgs (x : CmdDef) (s : State) (c : Ctx) : Option Nat :=
  orElse (roleFits s x.opcode) stOutOfRange
    (orElse (c.d.plen == 0#32 || c.d.paddr.toNat % 8 == 0) stBadArgument
      (orElse (x.role s != .signed || allZero c.d.inline) stBadArgument (x.args s c)))

/-- A command of a group that waits for DEV_READY (R381). -/
def needsReady (x : CmdDef) (s : State) : Bool :=
  let g := x.opcode / 256
  (g == 4 || g == 5 || g == 6 || g == 0xF || (g == 2 && x.role s != .any))
    && !(x.opcode == 0x0501 && s.dev.held.contains 5)

/-- Step 7: R381, then the command's own state checks. -/
def checkState (x : CmdDef) (s : State) (c : Ctx) : Option Nat :=
  orElse (s.dev.devReady || !needsReady x s) stStateConflict (x.state s c)

/-- Step 8: the command's own resources, then the 256 tokens (R72). -/
def checkRes (x : CmdDef) (s : State) (c : Ctx) : Option Nat :=
  match x.res s c with
  | some st => some st
  | none => orFail (!x.token || decide (s.host.tokens.length < 256)) stNoResource

/-- Steps 6 to 8. -/
def checkRest (x : CmdDef) (s : State) (c : Ctx) : Option Nat :=
  match checkArgs x s c with
  | some st => some st
  | none => match checkState x s c with
    | some st => some st
    | none => checkRes x s c

/-- A completion is written, and recorded when the command is (R47, R48). -/
def answer (recordIt : Bool) (d : Desc) (c : Completion) (s : State) : State :=
  let s1 := if recordIt then record d.session d.tag (some c) s else s
  reply d.ring.val c (Desc.noIrq d) s1

/-- The command's effect with its completion: inline, by token, or later (R47, R393). -/
def perform (x : CmdDef) (c : Ctx) (s : State) : State :=
  let d := c.d
  let durable := x.role s != .any
  let open_ := (session s d.session).isSome
  match x.act c s with
  | (.later, s1) =>
    let r : Running := { session := d.session, tag := d.tag, rings := replyRings d s, objects := x.objects s c }
    record d.session d.tag none (s1.onHost fun h => { h with running := h.running ++ [r] })
  | (.result bs, s1) =>
    let s2 := if durable then commit s1 else s1
    if x.token then
      let id := BitVec.ofNat 32
        (freshWord (Config.tokenValue s2.host.tokenCount).toNat (s2.host.tokens.map fun t => t.id.toNat) 257)
      let s3 := s2.onHost fun h =>
        { h with tokens := h.tokens ++ [{ id, status := stDone, result := bs, readyAt := tb6 s2 + Config.openNat s2.free }], tokenCount := h.tokenCount + 1 }
      answer (durable && open_) d
        { tag := d.tag, status := stAccepted, token := true, len := bs.length, result := le 4 id.toNat ++ zeros 16 } s3.draw
    else answer (durable && open_) d (plain d.tag stDone bs) s2

/-- The command has Holly verify or sign on the Falcon-1024 unit: a signed-only command, SESSION_OPEN by token or challenge, ATTEST,
KEY_ATTEST, AUTHORITY_ENROL, IMAGE_VERIFY and METER_IMAGE_VERIFY (R261). -/
def usesFalcon (x : CmdDef) (d : Desc) (s : State) : Bool :=
  decide (x.role s = .signed) || (x.opcode == 0x0101 && inl d 0 1 != 1) || decide (x.opcode ∈ [0x0801, 0x0802, 0x080C, 0x0B03, 0x0F09])

/-- The unit claimed where the command uses it (R261). -/
def claimed (x : CmdDef) (d : Desc) (s : State) : State := if usesFalcon x d s then claimFalcon s else s

/-- Steps 2 to 8 and the effect; a command that names a session which is not open is refused at step 2 whatever its role code
(R66, R259). -/
def judge (x : CmdDef) (d : Desc) (s : State) : State :=
  let r := x.role s
  let rec_ := r != .any && (session s d.session).isSome
  let fail (st : Nat) (t : State) : State := answer rec_ d (plain d.tag st []) t
  if ¬ admitted r d s then fail stIgnored s
  else
    match bodyLength r d with
    | none => fail stBadLength s
    | some n =>
      if ¬ (payloadFits d && x.lenOk s d n) then fail stBadLength s
      else if ¬ payloadSound s d then fail stInternal s
      else
        let c := ctxOf s r d
        match x.repeated s c with
        | some o => reply d.ring.val o (Desc.noIrq d) s
        | none =>
          let u := claimed x d s
          let p := payloadOf s d
          let nonce := slice p n 8
          let sig := slice p (n + 8) 1280
          if r = .signed ∧ ¬ verifyUnder s 2 (signedMessage x.opcode d (p.take n) nonce) sig then
            fail stSignatureFailed (signatureFailed d.session x.opcode u)
          else
            let next := match session s d.session with | some y => y.nextNonce | none => 0#64
            if r = .signed ∧ ofLe nonce ≠ next.toNat then fail stStaleNonce u
            else
              let s1 := if r = .signed then modSession d.session (fun y => { y with nextNonce := y.nextNonce + 1 }) u else u
              match checkRest x s1 c with
              | some st =>
                let s2 := x.failed c st s1
                fail st (if st = stSignatureFailed then signatureFailed d.session x.opcode s2 else s2)
              | none => perform x c s1

/-- A descriptor of a defined opcode from step 1 on: the tag's window, a tag already seen, then the rest (R48, R66). -/
def startCmd (x : CmdDef) (d : Desc) (s : State) : State :=
  match session s d.session with
  | none => judge x d s
  | some y =>
    if belowWindow y d.tag then reply d.ring.val (plain d.tag stIgnored []) (Desc.noIrq d) s
    else
      let s1 := seeTag d.session d.tag s
      match recorded y d.tag with
      | none => judge x d s1
      | some r =>
        if x.role s = .any then judge x d s1
        else
          match r.completion with
          | some c => reply d.ring.val (again s c) (Desc.noIrq d) s1
          | none => s1.onHost fun h =>
              { h with running := h.running.map fun z =>
                  if z.session = d.session ∧ z.tag = d.tag then { z with rings := z.rings ++ replyRings d s } else z }

/-- A command shares an object with a list. -/
def sharesObject (l m : List (Nat × Nat)) : Bool := l.any fun o => decide (o ∈ m)

/-- A descriptor waits for its ring alone: an earlier command of it waits, or it has FENCE with an earlier command still running
(R62). -/
def ringWaits (d : Desc) (s : State) : Bool :=
  (s.host.waiting.any fun w => w.ring == d.ring.val)
    || (Desc.fence d && s.host.running.any fun z => z.rings.any fun p => p.1 == d.ring.val)

/-- The command must wait: an earlier command of its ring waits; FENCE with an earlier command of its ring still running;
an object that an earlier command holds or waits for; the Falcon-1024 unit it uses held; or the command's own rule (R62, R261, R396). -/
def mustWait (x : CmdDef) (d : Desc) (s : State) : Bool :=
  let c := ctxOf s (x.role s) d
  let duplicate := match session s d.session with | some y => (recorded y d.tag).isSome | none => false
  ringWaits d s
    || (!duplicate && (x.waits s c || (usesFalcon x d s && !falconFree s)
      || (s.host.running.any fun z => sharesObject z.objects (x.objects s c))
      || s.host.waiting.any fun w => sharesObject w.objects (x.objects s c)))

/-- Descriptors of a ring that have been started and not completed: those whose command runs or waits, and those whose completion is
held (R62, R63). -/
def startedOn (n : Nat) (s : State) : Nat :=
  (s.host.running.map fun z => (z.rings.filter fun p => p.1 == n).length).sum
    + (s.host.waiting.filter fun w => w.ring == n && !w.quiet).length + (ring s n).heldCq.length

/-- The device has fetched a descriptor of the ring that it has not started yet (R62); one fetched before a reset of the HOST island
is done for no ring (R57; assumption log 22). -/
def fetched (d : Desc) (s : State) : Bool := s.host.quiet || decide (startedOn d.ring.val s < (ring s d.ring.val).outstanding)

/-- ROM recovery serves ring 0 in session 0 for the four image commands; every other command completes with
STATE_CONFLICT; with a failed die link or Holly nothing is served (R387). -/
def recoveryCmd (x : CmdDef) (d : Desc) (code : Nat) (s : State) : State :=
  if code = 1 ∨ code = 2 ∨ d.ring.val ≠ 0 ∨ ¬ fetched d s then s
  else if x.opcode ∈ [0x0B01, 0x0B02, 0x0B03, 0x0B04] ∧ d.session = 0#32 then
    judge { x with role := fun _ => .any } d s
  else complete 0 (plain d.tag stStateConflict []) (Desc.noIrq d) s

/-- A host command: once fetched from its ring, it starts, or waits behind what it must wait for (R62). -/
def runCmd (x : CmdDef) (i : Instr) (d : Desc) (s : State) : Host.Outcome State Fault Refusal :=
  match s.dev.phase with
  | .running =>
    if ¬ s.dev.mboxReady ∨ ¬ fetched d s then .next s
    else if mustWait x d s then
      .next (s.onHost fun h => { h with waiting := h.waiting ++
        [{ ring := d.ring.val, objects := x.objects s (ctxOf s (x.role s) d), cmd := i, quiet := s.host.quiet }] })
    else .next (settle s (startCmd x d s))
  | .romRecovery code => .next (recoveryCmd x d code s)
  | _ => .next s

end Sys2Proof.Machine
end

