-- ==== Sys2Proof/Machine/Routing.lean ====
section
/-!
DEFINITION. The APDU of a taken frame, its security header, and the slot the frame routes to (R144, R147).
-/

namespace Sys2Proof.Machine

/-- The payload of a Hedgerow frame: after the header and the route extension, its length from the header (R106). -/
def hrPayload (f : Bytes) : Bytes :=
  slice f (20 + 2 * (field f 14 1 / 16)) (field f 12 2)

/-- The payload of a Bramble frame (R125). -/
def brPayload (f : Bytes) : Bytes := slice f 20 (field f 16 2)

/-- The APDU of an intake entry's frame: the link frame's payload, or the APDU of the RAW_FRAME record (R162, R433). -/
def apduOf (origin : Nat) (f : Bytes) : Bytes :=
  if origin = 0 then hrPayload f else if origin = 1 then brPayload f else (f.drop 80).take (field f 64 2)

/-- The link address of a frame: End address or Address of a link frame, the record's own for an ingested one (R144). -/
def linkAddress (origin : Nat) (f : Bytes) : Nat :=
  if origin = 0 ∨ origin = 1 then field f 10 2 else field f 74 2

/-- The link sequence of a frame (R106, R125, R162). -/
def linkSequence (origin : Nat) (f : Bytes) : Nat :=
  if origin = 0 then field f 4 2 else if origin = 1 then field f 8 2 else field f 72 2

/-- A length of BER form: one byte below 0x80, or 0x81 to 0x84 and that many bytes big-endian. -/
def berLength : Bytes → Option (Nat × Bytes)
  | [] => none
  | b :: bs =>
    if b.toNat < 128 then some (b.toNat, bs)
    else
      let n := b.toNat - 128
      if n = 0 ∨ 4 < n ∨ bs.length < n then none else some (ofBe (bs.take n), bs.drop n)

/-- The security header of a ciphered APDU and what it protects. -/
structure Ciphered where
  /-- general-ded-ciphering rather than general-glo-ciphering. -/
  dedicated : Bool
  /-- System title, as read. -/
  title : Bytes
  /-- Security control byte. -/
  control : Nat
  /-- Invocation counter. -/
  counter : Nat
  /-- Ciphertext, or the body where bit 5 is clear. -/
  body : Bytes
  /-- Authentication tag, 12 B. -/
  tag : Bytes
  deriving DecidableEq, Repr

/-- The APDU is in one of the two ciphered forms (R147). -/
def isCiphered (a : Bytes) : Bool := a.head? == some 0xDB#8 || a.head? == some 0xDC#8

/-- The system title a ciphered APDU yields: 8 bytes behind their length (R144, R147). -/
def titleOf (a : Bytes) : Option Bytes :=
  if isCiphered a && (a.drop 1).head? == some 8#8 && decide (10 ≤ a.length) then some (slice a 2 8) else none

/-- The parts of a ciphered APDU; none where its structure is malformed (R147). -/
def cipheredOf (a : Bytes) : Option Ciphered :=
  match titleOf a with
  | none => none
  | some t =>
    match berLength (a.drop 10) with
    | none => none
    | some (n, rest) =>
      if rest.length = n ∧ 17 ≤ n then
        some { dedicated := a.head? == some 0xDC#8, title := t, control := field rest 0 1, counter := ofBe (slice rest 1 4),
               body := (rest.drop 5).take (n - 17), tag := rest.drop (n - 12) }
      else none

/-- The slot held under a system title (R143). A title is eight octets in order; the state keeps it little-endian. -/
def slotByTitle (s : State) (t : Bytes) : Option Nat :=
  (s.met.slots.find? fun p => p.2.state != .empty && p.2.title == BitVec.ofNat 64 (ofLe t)).map Prod.fst

/-- The slot held under an EUI-64 (R143). -/
def slotByEui (s : State) (e : DWord) : Option Nat :=
  (s.met.slots.find? fun p => p.2.state != .empty && p.2.eui == e).map Prod.fst

/-- A slot number that is not EMPTY. -/
def occupied (s : State) (n : Nat) : Option Nat := if (slot s n).state = .empty then none else some n

/-- The slot a frame routes to; none is UNROUTED (R144). -/
def route (s : State) (origin : Nat) (f : Bytes) : Option Nat :=
  let link := origin == 0 || origin == 1
  let addr := linkAddress origin f
  match titleOf (apduOf origin f) with
  | some t =>
    match slotByTitle s t with
    | none => none
    | some n => if link && n != addr then none else some n
  | none =>
    if link then occupied s addr
    else if s.dev.core then slotByEui s (BitVec.ofNat 64 (field f 44 8)) else none

/-- The slot a frame of a transparent shard is forwarded under: the slot its link address names, or its route (R32, R144). -/
def forwardSlot (s : State) (e : Intake) : Option Nat :=
  if e.origin = 0 ∨ e.origin = 1 then some (linkAddress e.origin e.frame) else route s e.origin e.frame

/-- The mode of the shard a frame belongs to, when it is taken (R161). -/
def takenTransparent (s : State) (origin : Nat) (f : Bytes) : Bool :=
  if s.dev.core then false
  else if origin = 0 ∨ origin = 1 then (shard s (linkAddress origin f / 4096)).transparent
  else match route s origin f with
    | some n => (shard s (shardOf n)).transparent
    | none => false

end Sys2Proof.Machine
end

