-- ==== Sys2Proof/Machine/Directory.lean ====
section
/-!
DEFINITION. The directory of meters: a two-choice bucketed hash (R143, R145, R245).
-/

namespace Sys2Proof.Machine

/-- The secret of the directory, as the engines' hash registers hold it (R145, R244). -/
def directoryKey (s : State) : Nat := s.met.hashKey

/-- Buckets of eight entries: as many as two names of every slot of the role need, and what the implementation has beyond them (R143,
R145; assumption log 2). -/
def buckets (s : State) : Nat := (if s.dev.core then 1048576 else 65536) / 4 + Config.dirBuckets s.dev.core

/-- The two candidate buckets of a name under the secret (R145). -/
def homesOf (s : State) (e : DirEntry) : Nat × Nat :=
  let k := directoryKey s
  let n := buckets s
  (Config.dirHash k 0 e.title e.key % n, Config.dirHash k 1 e.title e.key % n)

/-- Entries in a bucket. -/
def bucketLoad (l : List DirEntry) (b : Nat) : Nat := (l.filter fun e => e.bucket == b).length

/-- An entry goes into the emptier of its two buckets, eight entries each; where both are full it takes the place of an entry of
theirs, which moves on in the same way, at most as many times as the fuel says (R145; DESIGN CHOICE, assumption log 2). -/
def placeEntry (homes : DirEntry → Nat × Nat) (victim : Nat → Nat) : Nat → DirEntry → List DirEntry → Option (List DirEntry)
  | 0, e, l =>
    let h := homes e
    let b := if bucketLoad l h.1 ≤ bucketLoad l h.2 then h.1 else h.2
    if bucketLoad l b < 8 then some (l ++ [{ e with bucket := b }]) else none
  | f + 1, e, l =>
    let h := homes e
    let b := if bucketLoad l h.1 ≤ bucketLoad l h.2 then h.1 else h.2
    if bucketLoad l b < 8 then some (l ++ [{ e with bucket := b }])
    else
      let held := l.filter fun x => x.bucket == h.1 || x.bucket == h.2
      match held[victim f % max 1 held.length]? with
      | none => none
      | some v => placeEntry homes victim f v (l.filter (fun x => x != v) ++ [{ e with bucket := v.bucket }])

/-- The places of a name among the entries: at most 256 relocations (R145). -/
def placeName (s : State) (e : DirEntry) (l : List DirEntry) : Option (List DirEntry) :=
  placeEntry (homesOf s) (fun i => Config.dirVictim (directoryKey s) e.key i) 256 e l

/-- The two entries of a meter, before they have a place (R143). -/
def namesOf (n : Nat) (eui title : DWord) : List DirEntry :=
  [{ title := false, key := eui, slot := n, bucket := 0 }, { title := true, key := title, slot := n, bucket := 0 }]

/-- The directory with a meter entered under both names; none where one finds no place (R143, R145). -/
def enterNames (s : State) (n : Nat) (eui title : DWord) : Option (List DirEntry) :=
  (namesOf n eui title).foldl (fun (l : Option (List DirEntry)) e => l.bind (placeName s e)) (some s.met.dir)

/-- Two entries are of one name. -/
def sameName (x y : DirEntry) : Bool := x.title == y.title && x.key == y.key && x.slot == y.slot

/-- The directory holds exactly the names of the slots in use: entries gone leave it and names that came with a shard's parts or a
new secret take their places; such a name is held even where 256 relocations find it none (R143, R245, R312; assumption log 2). -/
def syncDirectory (s : State) : State :=
  let names := s.met.slots.flatMap fun p => if p.2.state = .empty then [] else namesOf p.1 p.2.eui p.2.title
  let kept := s.met.dir.filter fun e => names.any (sameName e)
  let missing := names.filter fun e => !kept.any (sameName e)
  let dir := missing.foldl (fun l e => (placeName s e l).getD (l ++ [{ e with bucket := (homesOf s e).1 }])) kept
  s.onMet fun m => { m with dir }

/-- The directory is built anew, under a new secret (R245). -/
def rebuildDirectory (s : State) : State := syncDirectory (s.onMet fun m => { m with dir := [] })

end Sys2Proof.Machine
end

