-- ==== Sys2Proof/Machine/DeviceCmds.lean ====
section
/-!
DEFINITION. The commands of the device group (R398 to R400), but for SOFT_RESET, which stands with the resets.
-/

namespace Sys2Proof.Machine

/-- A command of code 0 that returns a token with bytes worked out from the state. -/
def tokenRead (opcode : Nat) (f : State → Ctx → Bytes) : CmdDef :=
  { opcode, role := fun _ => .any, token := true, act := fun c s => (.result (f s c), s) }

/-- A command of code 0 that returns inline bytes worked out from the state. -/
def inlineRead (opcode : Nat) (f : State → Ctx → Bytes) : CmdDef :=
  { opcode, role := fun _ => .any, act := fun c s => (.result (f s c), s) }

/-- A random draw is not to be had while the TRNG is stopped: the command completes with INTERNAL (R254). -/
def needsTrng (s : State) : Option Nat := orFail (!s.vlt.trngFailed) stInternal

/-! ### Sessions -/

/-- The client nonce of a SESSION_OPEN. -/
def clientNonce (c : Ctx) : Bytes := slice c.args 4 16

/-- The checks of a session token before its signature (R260). -/
def tokenFieldsOk (s : State) (t : Bytes) : Bool :=
  field t 0 1 == 1 && field t 1 1 == 2 && BitVec.ofNat 32 (field t 4 4) == s.dev.deviceId
    && BitVec.ofNat 64 (field t 8 8) == s.dev.fit.serial

/-- The checks of a session token, in order (R260). -/
def tokenCheck (s : State) (t : Bytes) : Option Nat :=
  orElse (tokenFieldsOk s t) stBadArgument
    (orElse (verifyUnder s 2 (ascii "KHTOKEN" ++ slice t 0 32) (slice t 32 1280)) stSignatureFailed
      (orElse (match s.vlt.tokenId with
          | none => true
          | some h => serialAfter32 (BitVec.ofNat 32 (field t 16 4)) h) stStaleNonce
        (orFail (!tb2Valid s || decide (tb2s s < field t 20 6)) stOutOfRange)))

/-- An unspent challenge within its 60 s of TB6 (R399). -/
def liveChallenge (s : State) : Option Bytes :=
  match s.vlt.challenge with
  | some (ch, t) => if tb6 s < t + 60 * nsPerS then some ch else none
  | none => none

/-- A MAINTENANCE response against the challenge, under slot 3 (R399). -/
def maintCheck (s : State) (resp : Bytes) : Option Nat :=
  match liveChallenge s with
  | none => some stStateConflict
  | some ch => orFail (verifyUnder s 3 (ascii "KHMAINT" ++ ch ++ le 8 s.dev.fit.serial.toNat) resp) stSignatureFailed

/-- Sessions that have not passed their expiry. -/
def liveSessions (s : State) : List Session := s.host.sessions.filter fun x => !expired s x

/-- The OPERATOR session least recently used (R68). -/
def leastUsed (s : State) : Option Session :=
  (liveSessions s).foldl (fun best x =>
    if x.role = 1 then
      match best with
      | none => some x
      | some b => if x.useOrder < b.useOrder then some x else some b
    else best) none

/-- The expiry SESSION_OPEN returns, TAI seconds (R67, R398). -/
def openExpiry (s : State) (role : Nat) (t : Bytes) : Nat :=
  if role = 2 then min (field t 20 6) (tb2s s + 7 * 86400) else if role = 3 then tb2s s + 8 * 3600 else 0

/-- Sessions that have passed their expiry close, and a maintenance unlock of their own locks again (R67, R70). -/
def closeExpired (s : State) : State :=
  (s.host.sessions.filter fun x => expired s x).foldl (fun t x => closeSession x.id t) s

/-- SESSION_OPEN's effect: room is made, the session opens, and its credential is used up (R67, R68, R257, R260, R399). -/
def openSession (c : Ctx) (s : State) : Reply × State :=
  let role := c.arg 0 1
  let s0 := closeExpired s
  let s1 := if role ≠ 1 ∧ 16 ≤ s0.host.sessions.length then
      match leastUsed s0 with
      | some v => yew 0x3022 kSession v.id.toNat [] (closeSession v.id s0)
      | none => s0
    else s0
  let id := BitVec.ofNat 32 (freshWord (ofLe (trngBytes 4 s1)) (s1.host.sessions.map fun x => x.id.toNat) 17)
  let expiry := openExpiry s role c.payload
  let result := le 4 id.toNat ++ le 6 expiry ++ le 1 role
  let ses : Session :=
    { id, role, clientNonce := clientNonce c, opened := plain c.d.tag stDone result, highest := none, records := [],
      nextNonce := 1#64, notAfter := if role = 2 then field c.payload 20 6 else 0,
      expiryTb7 := if role = 2 then some (tb7 s + 7 * nsDay) else if role = 3 then some (tb7 s + 8 * nsHour) else none,
      expiry, lastUse := tb2s s, useOrder := s.host.useCount }
  let s2 := trngStep (s1.onHost fun h => { h with sessions := h.sessions ++ [ses], useCount := h.useCount + 1 })
  let s3 := if role = 1 then s2 else yew 0x3020 kSession id.toNat (le 1 role) s2
  let s4 :=
    if role = 2 then s3.onVlt fun v => { v with tokenId := some (BitVec.ofNat 32 (field c.payload 16 4)) }
    else if role = 3 then
      (match s.vlt.challenge with | some (ch, _) => extend 5 ch s3 | none => s3).onVlt fun v => { v with challenge := none }
    else s3
  (.result result, commit s4)

def sessionOpenDef : CmdDef :=
  { opcode := 0x0101, role := fun _ => .any
    lenOk := fun _ d n =>
      let r := inl d 0 1
      if r = 2 then n == 1312 else if r = 3 then n == 1280 else n == 0
    repeated := fun s c => ((liveSessions s).find? fun x => x.clientNonce == clientNonce c).map fun x => x.opened
    args := fun s c =>
      let r := c.arg 0 1
      orElse (r == 1 || r == 2 || r == 3) stBadArgument (if r = 2 then tokenCheck s c.payload else none)
    state := fun s c => if c.arg 0 1 = 3 then maintCheck s c.payload else none
    res := fun s c =>
      orElse (decide ((liveSessions s).length < 16) || (c.arg 0 1 != 1 && (leastUsed s).isSome)) stNoResource (needsTrng s)
    failed := fun c st s =>
      if c.arg 0 1 = 3 ∧ st ≠ stBadArgument ∧ (liveChallenge s).isSome then s.onVlt fun v => { v with challenge := none } else s
    act := openSession }

/-- SESSION_CLOSE closes the session that issues it (R67). -/
def sessionCloseDef : CmdDef :=
  { opcode := 0x0102, role := fun _ => .opened, act := fun c s => (.result [], closeSession c.d.session s) }

/-- SESSION_STATUS (R398). -/
def sessionStatusDef : CmdDef :=
  { opcode := 0x0103, role := fun _ => .any
    args := fun s c => orFail (session s (BitVec.ofNat 32 (c.arg 0 4))).isSome stOutOfRange
    act := fun c s =>
      (.result (match session s (BitVec.ofNat 32 (c.arg 0 4)) with
        | some x => le 1 x.role ++ le 1 0 ++ le 4 ((x.highest.getD 0#32).toNat) ++ le 8 x.nextNonce.toNat ++ le 6 x.expiry
        | none => []), s) }

/-- MAINT_CHALLENGE: a fresh challenge replaces an unspent one (R399). -/
def maintChallengeDef : CmdDef :=
  { opcode := 0x0104, role := fun _ => .any, token := true, res := fun s _ => needsTrng s
    act := fun _ s =>
      let ch := trngBytes 32 s
      (.result (slice ch 0 32), trngStep (s.onVlt fun v => { v with challenge := some (slice ch 0 32, tb6 s) })) }

/-- MAINT_UNLOCK (R70). -/
def maintUnlockDef : CmdDef :=
  { opcode := 0x0105, role := fun _ => .maint
    act := fun c s => (.result [], s.onVlt fun v => { v with maintUnlocked := some c.d.session }) }

/-- SESSION_LIST (R68, R398). -/
def sessionListDef : CmdDef :=
  tokenRead 0x0111 fun s _ =>
    let l := liveSessions s
    let count (r : Nat) : Nat := (l.filter fun x => x.role == r).length
    le 2 (count 1) ++ le 1 (count 2) ++ le 1 (count 3) ++
      (l.filter fun x => x.role == 1).flatMap fun x => le 4 x.id.toNat ++ slice x.clientNonce 0 16 ++ le 6 x.lastUse ++ zeros 6

/-! ### The device itself -/

/-- The time a key is created: TB2, zero while it is invalid (table Key record). -/
def createdNow (s : State) : Nat := if tb2Valid s then s.tim.tb2 else 0

/-- A secret of slot 6 drawn by Holly (R243, R245). -/
def directorySecret (s : State) : Key :=
  { use := 5, alg := 10, origin := 0, factory := false, label := 0, key := trngBytes 16 s, pub := [], created := createdNow s }

/-- Holly loads the directory secret into the engines' hash registers (R145, R244). -/
def loadDirectory (s : State) : State :=
  s.onMet fun m => { m with hashKey := match Tbl.get s.vlt.keys 6 with | some k => ofLe k.key | none => 0 }

/-- A new directory secret in slot 6, in the hash registers at once (R243, R245). -/
def drawDirectory (s : State) : State := loadDirectory (onKeys (fun l => Tbl.put l 6 (directorySecret s)) s)

/-- DEVICE_ID_SET (R20, R399). -/
def deviceIdSetDef : CmdDef :=
  { opcode := 0x0106, role := fun _ => .oper
    args := fun _ c => orFail (c.arg 0 4 != 0 && c.arg 0 4 != 0xFFFFFFFF) stBadArgument
    state := fun s _ => orFail (s.dev.deviceId == 0#32) stStateConflict
    res := fun s _ => needsTrng s
    objects := fun _ _ => [(8, 0)]
    act := fun c s =>
      (.result [], rebuildDirectory (trngStep (drawDirectory (s.onDev fun d => { d with deviceId := BitVec.ofNat 32 (c.arg 0 4) })))) }

/-- SHARE_SET (R23). -/
def shareSetDef : CmdDef :=
  { opcode := 0x0107, role := fun _ => .oper
    args := fun _ c => orFail (decide (2 ≤ c.arg 0 1) && decide (c.arg 0 1 ≤ 25)) stOutOfRange
    objects := fun _ _ => [(8, 0)]
    act := fun c s => (.result [], s.onDev fun d => { d with share := c.arg 0 1 }) }

/-- The background share of each quad over the last 1 s window, greatest over its engines, in %: the model times no engine, so
each is a free value up to 100 (R23, assumption log 2). -/
def measuredShare (s : State) : List Nat := (List.range 4).map fun q => Config.openNat (s.free + q) % 101

/-- TELEMETRY_READ (R23, R398). -/
def telemetryReadDef : CmdDef :=
  { opcode := 0x0108, role := fun _ => .any
    act := fun _ s =>
      let used := measuredShare s
      (.result (le 1 s.dev.share ++ (used.flatMap fun x => le 1 x) ++ le 4 s.dev.late.toNat ++ le 2 (unsigned 2 s.dev.junction)),
        { (s.onDev fun d => { d with shareUsed := used }) with free := s.free + 4 }) }

/-- COUNTERS_READ: eight counts since reset (R398). -/
def countersReadDef : CmdDef := tokenRead 0x0109 fun s _ => s.dev.counters.flatMap fun x => le 8 x

/-! ### Ingest -/

/-- The records of an ingest payload, by their Lengths; none where a record breaks R400. -/
def ingestRecords : Nat → Bytes → Option (List Bytes)
  | 0, bs => if bs = [] then some [] else none
  | n + 1, bs =>
    if bs = [] then some [] else
    let len := field bs 2 2
    let r := slice bs 0 len
    if len = 0 ∨ len % 64 ≠ 0 ∨ bs.length < len ∨ field bs 0 1 ≠ 3 then none
    else if (crc32c (slice r 0 60 ++ r.drop 64)).toNat ≠ field r 60 4 then none
    else (ingestRecords n (bs.drop len)).map fun l => r :: l

/-- An ingested record is taken (R26, R400). -/
def takeRaw (origin : Nat) (r : Bytes) (s : State) : State :=
  take s.tim.tb2 r origin 0xFF 0xFF 0 (takenTransparent s origin r) s

/-- Bytes the intake entries of records take. -/
def ingestSize (l : List Bytes) : Nat := (l.map intakeSize).sum

/-- The slot a record names lies in a shard the device's role has (R18). -/
def slotNamed (s : State) (r : Bytes) : Bool := s.dev.core || decide (field r 8 4 / 4096 % 256 ≤ 0x0F)

/-- INGEST takes every record or none (R400); BUSY while taking is refused or the records would pass S (R39, R53). -/
def ingestDef : CmdDef :=
  { opcode := 0x0110, role := fun _ => .oper
    lenOk := fun _ _ n => decide (0 < n) && decide (n ≤ 262144)
    args := fun s c => match ingestRecords 256 c.payload with
      | none => some stBadArgument
      | some l => orElse (l.length == c.arg 0 2) stBadArgument (orFail (l.all fun r => slotNamed s r) stOutOfRange)
    res := fun s c => match ingestRecords 256 c.payload with
      | none => some stBusy
      | some l => orFail (mayTake (ingestSize l) s) stBusy
    failed := fun c st s => match ingestRecords 256 c.payload with
      | some l => if st = stBusy then refuseTake l.length (latchRefusal (ingestSize l) s) else s
      | none => s
    act := fun c s => match ingestRecords 256 c.payload with
      | some l => (.result (le 2 l.length), l.foldl (fun t r => takeRaw 2 r t) s)
      | none => (.result [], s) }

/-! ### The meanings -/

/-- An undefined opcode completes with IGNORED at step 1 (R389), in its ring's order (R62); in ROM recovery too, on the ring it
serves (R387). -/
def execDescriptorUndefinedOpcode (d : Desc) (opcode : Nat) (s : State) : Host.Outcome State Fault Refusal :=
  match s.dev.phase with
  | .running =>
    if ¬ s.dev.mboxReady ∨ ¬ fetched d s then .next s
    else if ringWaits d s then
      .next (s.onHost fun h => { h with waiting := h.waiting ++
        [{ ring := d.ring.val, objects := [], cmd := .descriptorUndefinedOpcode d opcode, quiet := s.host.quiet }] })
    else .next (settle s (reply d.ring.val (plain d.tag stIgnored []) (Desc.noIrq d) s))
  | .romRecovery code =>
    if code = 1 ∨ code = 2 ∨ d.ring.val ≠ 0 ∨ ¬ fetched d s then .next s
    else .next (complete 0 (plain d.tag stIgnored []) (Desc.noIrq d) s)
  | _ => .next s

def execSessionOpen (d : Desc) (s : State) : Host.Outcome State Fault Refusal := runCmd sessionOpenDef (.sessionOpen d) d s
def execSessionClose (d : Desc) (s : State) : Host.Outcome State Fault Refusal := runCmd sessionCloseDef (.sessionClose d) d s
def execSessionStatus (d : Desc) (s : State) : Host.Outcome State Fault Refusal := runCmd sessionStatusDef (.sessionStatus d) d s
def execMaintChallenge (d : Desc) (s : State) : Host.Outcome State Fault Refusal := runCmd maintChallengeDef (.maintChallenge d) d s
def execMaintUnlock (d : Desc) (s : State) : Host.Outcome State Fault Refusal := runCmd maintUnlockDef (.maintUnlock d) d s
def execDeviceIdSet (d : Desc) (s : State) : Host.Outcome State Fault Refusal := runCmd deviceIdSetDef (.deviceIdSet d) d s
def execShareSet (d : Desc) (s : State) : Host.Outcome State Fault Refusal := runCmd shareSetDef (.shareSet d) d s
def execTelemetryRead (d : Desc) (s : State) : Host.Outcome State Fault Refusal := runCmd telemetryReadDef (.telemetryRead d) d s
def execCountersRead (d : Desc) (s : State) : Host.Outcome State Fault Refusal := runCmd countersReadDef (.countersRead d) d s
def execSessionList (d : Desc) (s : State) : Host.Outcome State Fault Refusal := runCmd sessionListDef (.sessionList d) d s
def execIngest (d : Desc) (s : State) : Host.Outcome State Fault Refusal := runCmd ingestDef (.ingest d) d s

end Sys2Proof.Machine
end

