-- ==== Sys2Proof/Machine/Ready.lean ====
section
/-!
DEFINITION. The recorder's staged records appended, the holds of a start, and DEV_READY (R323, R382, R384, R388).
-/

namespace Sys2Proof.Machine

/-- The staged records are appended in order with STAGED set, and LOST_DURING_FREEZE after them when some were lost;
appends resume (R323, R388). -/
def unstage (s : State) : State :=
  let s1 := s.onYew fun y => { y with staged := [], lost := 0, frozen := false, hard := false }
  let s2 := s.yew.staged.foldl (fun t e => yewPut e true t) s1
  if s.yew.lost = 0 then s2
  else
    (yew 0x6011 kDevice 0 (le 4 s.yew.lost ++ le 12 s.yew.firstLost.toNat) s2).onYew fun y =>
      { y with lostCount := min (y.lostCount + s.yew.lost) (2 ^ 32 - 1) }

/-- A hold of the table Held reasons applies: recorded once, with its notice (R382, R388). -/
def hold (code : Nat) (s : State) : State :=
  if s.dev.held.contains code then s
  else
    report 0x1051 kDevice 0 (le 1 code) 0x1011 0 0 (le 1 code)
      (s.onDev fun d => { d with held := (List.range 7).filter fun x => x == code || d.held.contains x })

/-- DEV_READY rises once step 12 is done and no hold applies (R382). -/
def raiseReady (s : State) : State :=
  if s.dev.phase = .running ∧ s.dev.bootStep = 12 ∧ s.dev.held = [] ∧ ¬ s.dev.devReady then
    let time := min (tb6 s / 10 ^ 7) 65535
    let s1 := (s.onDev fun d => { d with devReady := true, bootStep := 13, readyTime := time }).onLau fun l => { l with code := 0 }
    let s2 := unstage s1
    let data := le 1 s.dev.cause ++ le 1 (flag 0 s.fw.runningB) ++ le 1 (flag 0 s.dev.core) ++ le 1 0 ++ le 2 time
    report 0x1050 kDevice 0 data 0x1010 3 0 data s2
  else s

/-- A hold ends (R382). -/
def release (code : Nat) (s : State) : State :=
  raiseReady (s.onDev fun d => { d with held := d.held.filter fun x => x != code })

/-- A key plan has its master in Holly (R246). -/
def masterOf (s : State) (plan : Nat) : Option Key :=
  (s.vlt.keys.find? fun p => p.2.use == 5 && p.2.alg == 3 && p.2.origin == 1 && p.2.label == plan).map Prod.snd

/-- The hold of a lost vault store ends once the authority, every master named by a slot and, in core role, the ledger key
are back (R245, R382). -/
def vaultRefilled (s : State) : Bool :=
  enrolled s && (s.met.slots.all fun p => p.2.state == .empty || p.2.imported || (masterOf s p.2.keyPlan).isSome)
    && (!s.dev.core || (Tbl.get s.vlt.keys 1).isSome)

/-- Hold 5 judged again after a key has entered Holly. -/
def judgeVault (s : State) : State := if s.dev.held.contains 5 && vaultRefilled s then release 5 s else s

end Sys2Proof.Machine
end

