-- ==== Sys2Proof/Machine/Keys.lean ====
section
/-!
DEFINITION. What Holly works out from its keys: key records, derived meter keys, blobs, the cache (R243 to R249).
-/

namespace Sys2Proof.Machine

/-- The key ID of a public key (R197, table Key record). -/
def keyId (pub : Bytes) : DWord := BitVec.ofNat 64 (ofLe (hashHead 8 (ascii "KHKEYID" ++ pub)))

/-- The check value of a symmetric key or secret, 3 B. -/
def checkValue (key : Bytes) : Bytes := hashHead 3 (ascii "KHKCV" ++ key)

/-- The algorithm is asymmetric. -/
def asymmetric (k : Key) : Bool := decide (4 ≤ k.alg) && decide (k.alg ≤ 9)

/-- Slots 0 to 15 are fixed (R243). -/
def fixedSlot (n : Nat) : Bool := decide (n < 16)

/-- The 32 B key record of a slot (table Key record). -/
def keyRecord (n : Nat) (k : Key) : Bytes :=
  le 2 n ++ le 1 k.use ++ le 1 k.alg ++ le 1 k.origin ++ le 1 (flag 1 k.factory + flag 2 (fixedSlot n)) ++ le 2 k.label
    ++ (if asymmetric k then le 8 (keyId k.pub).toNat else checkValue k.key ++ zeros 5)
    ++ (if k.created = 0 then zeros 12 else le 12 (stamp96 k.created)) ++ zeros 4

/-- Key bytes of a suite: 16 B for suites 0 and 1, 32 B for suite 2 (R147, R246). -/
def keyBytes (suite : Nat) : Nat := if suite < 2 then 16 else 32

/-- A derived meter key: purpose 1 EK, 2 AK, 3 KEK (R246). -/
def derive (master : Bytes) (p : Nat) (title : DWord) (gen suite : Nat) : Bytes :=
  Config.shake (keyBytes suite) (ascii "KHKDF" ++ master ++ le 1 p ++ le 8 title.toNat ++ le 2 gen ++ le 1 suite)

/-- The key slot a blob names as its unwrap key. -/
def blobSlot (blob : Bytes) : Nat := field blob 4 2

/-- The blob asks Holly to unwrap with a key of another use (R242). -/
def blobMisuse (s : State) (blob : Bytes) : Bool :=
  match Tbl.get s.vlt.keys (blobSlot blob) with
  | some k => k.use != 4
  | none => false

/-- The blob's unwrap key is there, with that use (R242, R248). -/
def unwrapKeyHeld (s : State) (blob : Bytes) : Bool :=
  match Tbl.get s.vlt.keys (blobSlot blob) with
  | some k => k.use == 4
  | none => false

/-- The 64 B a blob unwraps to under a title; none where R248 fails it. -/
def unwrapBlob (s : State) (blob title : Bytes) : Option Bytes :=
  if blob.length ≠ 80 ∨ field blob 0 1 ≠ 1 then none
  else
    match Tbl.get s.vlt.keys (blobSlot blob) with
    | none => none
    | some k =>
      if k.use ≠ 4 then none
      else
        match Config.keyUnwrap (Config.shake 32 (ascii "KHBLOB" ++ k.key ++ title)) (slice blob 0 8) (slice blob 8 72) with
        | none => none
        | some p => if p.length = 64 then some p else none

/-- EK and AK of a meter blob, its padding zero (R248). -/
def meterBlob (s : State) (blob : Bytes) (title : DWord) : Option (Bytes × Bytes) :=
  let n := keyBytes (field blob 1 1)
  if 2 < field blob 1 1 then none
  else
    match unwrapBlob s blob (le 8 title.toNat) with
    | none => none
    | some p =>
      if allZero (slice p n (32 - n)) && allZero (slice p (32 + n) (32 - n)) then some (slice p 0 n, slice p 32 n) else none

/-- The secret of a blob of kind 0x10 or 0x11 under its label (R248, R252). -/
def secretBlob (s : State) (blob : Bytes) (label : Nat) : Option Bytes :=
  match unwrapBlob s blob (le 2 label ++ zeros 6) with
  | none => none
  | some p => if allZero (slice p 32 32) then some (slice p 0 32) else none

/-- The blob of a slot's generation: the current one, the staged one, or the older one (R148, R149). -/
def blobOf (x : Slot) (gen : Nat) : Option Bytes :=
  if gen = x.gen then x.blob
  else if x.staged = some gen then x.stagedBlob
  else match x.older with
    | some (g, b) => if g = gen then b else none
    | none => none

/-- A slot's EK and AK at a generation: derived from its plan's master, or from the blob of that generation (R148). -/
def meterKey (s : State) (x : Slot) (gen : Nat) : Option (Bytes × Bytes) :=
  if x.imported then
    match blobOf x gen with
    | some b => meterBlob s b x.title
    | none => none
  else
    (masterOf s x.keyPlan).map fun m => (derive m.key 1 x.title gen x.suite, derive m.key 2 x.title gen x.suite)

/-- A slot's KEK: derived under purpose 3, or for an imported slot a WRAP key of a host slot; the manual does not say which
host slot serves which meter, and the model takes the lowest (R250, assumption log 12). -/
def kekOf (s : State) (x : Slot) : Option Bytes :=
  if x.imported then (s.vlt.keys.find? fun p => p.2.use == 3).map fun p => p.2.key
  else (masterOf s x.keyPlan).map fun m => derive m.key 3 x.title x.gen x.suite

/-- The cache's entry for a slot at a generation (R247). -/
def cached (s : State) (n gen : Nat) : Option CacheEntry := s.vlt.cache.find? fun e => e.slot == n && e.gen == gen

/-- EK and AK of a slot at a generation: from the cache, else derived or unwrapped (R148, R247). -/
def keysOf (s : State) (n gen : Nat) : Option (Bytes × Bytes) :=
  match cached s n gen with
  | some e => some e.keys
  | none => meterKey s (slot s n) gen

/-- A slot's keys at a generation are used: they head the cache, most recently used first, 8,192 entries (R247). -/
def cacheTouch (n gen : Nat) (keys : Bytes × Bytes) (s : State) : State :=
  let e := (cached s n gen).getD { slot := n, gen, keys }
  s.onVlt fun v => { v with cache := (e :: v.cache.filter fun e => !(e.slot == n && e.gen == gen)).take 8192 }

/-- A slot's cache entries are dropped (R247). -/
def cacheDrop (n : Nat) (s : State) : State :=
  s.onVlt fun v => { v with cache := v.cache.filter fun e => e.slot != n }

/-- The cache entries behind the key of key slot `n` that goes are dropped: those of the key plan a master serves, those
of the blobs an UNWRAP key unwraps (R247). -/
def cacheDropKey (n : Nat) (k : Key) (s : State) : State :=
  s.onVlt fun v => { v with cache := v.cache.filter fun e =>
    let x := slot s e.slot
    !((k.use == 5 && k.alg == 3 && !x.imported && x.keyPlan == k.label)
      || (k.use == 4 && x.imported && (match blobOf x e.gen with | some b => blobSlot b == n | none => true))) }

/-- KEY_MISUSE, at most once an hour per key slot (R242). -/
def keyMisuse (n : Nat) (s : State) : State :=
  limited (limitKey 0x3006 n) nsHour (yew 0x3006 kDevice 0 (le 2 n)) s

/-- A signature of slot 0 or 1 over a message (R255, R200). -/
def signWith (s : State) (n : Nat) (msg : Bytes) : Bytes :=
  match Tbl.get s.vlt.keys n with
  | some k => slice (Config.falconSign (keyId k.pub) msg s.vlt.draws) 0 1280
  | none => zeros 1280

/-- The lowest free host slot (R252). -/
def freeHostSlot (s : State) : Option Nat :=
  ((List.range 1008).map (· + 16)).find? fun n => (Tbl.get s.vlt.keys n).isNone

/-- A key enters a slot. -/
def putKey (n : Nat) (k : Key) (s : State) : State := onKeys (fun l => Tbl.put l n k) s

end Sys2Proof.Machine
end

