-- ==== Sys2Proof/Machine/VaultCmds.lean ====
section
/-!
DEFINITION. The commands of the vault group (R409), but for the two that stage generations, which are mirrored.
-/

namespace Sys2Proof.Machine

/-- The key of a slot argument. -/
def keyAt (s : State) (n : Nat) : Option Key := Tbl.get s.vlt.keys n

/-- A key slot number above 1,023 is out of range (R243). -/
def slotInRange (n : Nat) (rest : Option Nat) : Option Nat := orElse (decide (n < 1024)) stOutOfRange rest

/-- A fixed slot named as the one to be written or emptied (R243). -/
def notFixed (n : Nat) (rest : Option Nat) : Option Nat := orElse (!fixedSlot n) stIgnored rest

/-- A signing operation counts as a use of Holly's randomness in the model, so that no two signatures share a draw. -/
def signedResult (f : State → Bytes) (s : State) : Reply × State := (.result (f s), trngStep s)

/-- The statement ATTEST signs, bytes 0 to 335 (table ATTEST result). -/
def attestBody (s : State) (nonce : Bytes) : Bytes :=
  le 1 1 ++ zeros 3 ++ le 4 s.dev.deviceId.toNat ++ le 8 s.dev.fit.serial.toNat ++ le 4 s.dev.ildinRel.toNat
    ++ le 4 (fwSlotWord s).toNat ++ le 12 (stamp96 s.tim.tb2) ++ le 4 (devStatus s).toNat ++ nonce
    ++ s.vlt.meas.flatMap hashBytes ++ le 8 (match keyAt s 0 with | some k => (keyId k.pub).toNat | none => 0)

/-- ATTEST (R258). -/
def attestDef : CmdDef :=
  { opcode := 0x0801, role := fun _ => .any, token := true
    act := fun c s => signedResult (fun s =>
      let b := attestBody s (slice c.args 0 32)
      b ++ signWith s 0 (ascii "KHATTEST" ++ b)) s }

/-- The statement KEY_ATTEST signs, bytes 0 to 87 (table Key statement). -/
def keyAttestBody (s : State) (n : Nat) (k : Key) (nonce : Bytes) : Bytes :=
  le 1 1 ++ le 1 2 ++ slice (keyRecord n k) 0 30 ++ le 4 s.dev.deviceId.toNat ++ le 8 s.dev.fit.serial.toNat ++ nonce
    ++ le 12 (stamp96 s.tim.tb2)

/-- KEY_ATTEST (R256). -/
def keyAttestDef : CmdDef :=
  { opcode := 0x0802, role := fun _ => .any, token := true
    args := fun _ c => slotInRange (c.arg 0 2) none
    state := fun s c => orFail (keyAt s (c.arg 0 2)).isSome stStateConflict
    act := fun c s => signedResult (fun s =>
      match keyAt s (c.arg 0 2) with
      | some k =>
        let b := keyAttestBody s (c.arg 0 2) k (slice c.args 4 32)
        b ++ signWith s 0 (ascii "KHKEYATT" ++ b)
      | none => []) s }

/-- A certificate: the fields the model knows over Azeidor's own bytes (R255). -/
def certificateBytes (s : State) (kind : Nat) : Bytes :=
  let b := slice (Config.certificate kind) 0 3108
  let b1 := patch (patch (patch b 0 (le 1 1 ++ le 1 kind ++ zeros 2)) 26 (zeros 6)) 1825 (zeros 3)
  if kind = 3 then
    patch (patch (patch b1 4 (le 8 s.dev.fit.serial.toNat)) 12 (le 8 (keyId (slice (Config.certificate 2) 32 1793)).toNat))
      32 (slice (match keyAt s 0 with | some k => k.pub | none => []) 0 1793)
  else b1

/-- CERTIFICATE_READ (R255). -/
def certificateReadDef : CmdDef :=
  { opcode := 0x0803, role := fun _ => .any, token := true
    args := fun _ c => orFail (c.arg 0 1 == 2 || c.arg 0 1 == 3) stBadArgument
    act := fun c s => (.result (certificateBytes s (c.arg 0 1)), s) }

/-- PUBLIC_KEY_READ (R409). -/
def publicKeyReadDef : CmdDef :=
  { opcode := 0x0804, role := fun _ => .any, token := true
    args := fun _ c => slotInRange (c.arg 0 2) none
    state := fun s c => orFail (match keyAt s (c.arg 0 2) with | some k => asymmetric k | none => false) stStateConflict
    act := fun c s => (.result (match keyAt s (c.arg 0 2) with | some k => k.pub | none => []), s) }

/-- KEY_LIST (R409). -/
def keyListDef : CmdDef := tokenRead 0x0805 fun s _ => s.vlt.keys.flatMap fun p => keyRecord p.1 p.2

/-- A P-384 private key with use DERIVE generated inside (R251, R409). -/
def generatedKey (s : State) : Key :=
  let k := trngBytes 48 s
  { use := 5, alg := 8, origin := 0, factory := false, label := 0, key := k, pub := Config.publicOf k, created := createdNow s }

/-- KEY_GENERATE (R409). -/
def keyGenerateDef : CmdDef :=
  { opcode := 0x0806, role := fun _ => .secur
    args := fun _ c => slotInRange (c.arg 0 2) (notFixed (c.arg 0 2) none)
    state := fun s c => orFail (keyAt s (c.arg 0 2)).isNone stStateConflict
    res := fun s _ => needsTrng s
    objects := fun _ c => [(4, c.arg 0 2)]
    act := fun c s =>
      let k := generatedKey s
      (.result (le 8 (keyId k.pub).toNat), trngStep (putKey (c.arg 0 2) k s)) }

/-- The key is a P-384 private key with use DERIVE. -/
def isDeriveKey (k : Option Key) : Bool := match k with | some k => k.use == 5 && k.alg == 8 | none => false

/-- TRANSPORT_ESTABLISH (R251). The algorithm code of the secret is the model's choice (assumption log 12). -/
def transportEstablishDef : CmdDef :=
  { opcode := 0x0807, role := fun _ => .signed
    lenOk := fun _ _ n => n == 101
    args := fun _ c =>
      slotInRange (c.arg 0 2) (slotInRange (c.arg 2 2) (notFixed (c.arg 2 2)
        (orFail (Config.p384Valid (slice c.args 4 97)) stBadArgument)))
    state := fun s c => orFail (isDeriveKey (keyAt s (c.arg 0 2)) && (keyAt s (c.arg 2 2)).isNone) stStateConflict
    objects := fun _ c => [(4, c.arg 0 2), (4, c.arg 2 2)]
    act := fun c s =>
      match keyAt s (c.arg 0 2) with
      | none => (.result [], s)
      | some k =>
        let secret := Config.shake 32
          (ascii "KHTRANSPORT" ++ Config.ecdh k.key (slice c.args 4 97) ++ le 8 s.dev.fit.serial.toNat)
        let new : Key := { use := 4, alg := 3, origin := 2, factory := false, label := 0, key := secret, pub := [],
                           created := createdNow s }
        let s1 := onKeys (fun l => Tbl.del l (c.arg 0 2)) (putKey (c.arg 2 2) new s)
        (.result (checkValue secret), yew 0x3005 kDevice 0 (le 2 (c.arg 2 2) ++ checkValue secret) s1) }

/-- The host slot a KEY_IMPORT fills: the lowest free one for a master, the one named for a WRAP key (R252, R409). -/
def importTarget (s : State) (c : Ctx) : Option Nat := if c.arg 0 1 = 0x10 then freeHostSlot s else some (c.arg 2 2)

/-- The secret a KEY_IMPORT's blob unwraps to. -/
def importSecret (s : State) (c : Ctx) : Option Bytes :=
  let blob := slice c.args 4 80
  if field blob 1 1 = c.arg 0 1 then secretBlob s blob (c.arg 2 2) else none

/-- KEY_IMPORT (R252). -/
def keyImportDef : CmdDef :=
  { opcode := 0x0808, role := fun _ => .signed
    lenOk := fun _ _ n => n == 84
    args := fun s c =>
      orElse (c.arg 0 1 == 0x10 || c.arg 0 1 == 0x11) stBadArgument
        (orElse (c.arg 0 1 != 0x10 || decide (c.arg 2 2 < 256)) stBadArgument
          (orElse (c.arg 0 1 != 0x11 || decide (c.arg 2 2 < 1024)) stOutOfRange
            (orElse (c.arg 0 1 != 0x11 || !fixedSlot (c.arg 2 2)) stIgnored
              (slotInRange (blobSlot (slice c.args 4 80))
                (orElse (!blobMisuse s (slice c.args 4 80)) stIgnored
                  (orFail (importSecret s c).isSome stBadArgument))))))
    state := fun s c =>
      orFail (if c.arg 0 1 = 0x10 then (masterOf s (c.arg 2 2)).isNone else (keyAt s (c.arg 2 2)).isNone) stStateConflict
    res := fun s c => orFail (importTarget s c).isSome stNoResource
    failed := fun c st s => if st = stIgnored ∧ blobMisuse s (slice c.args 4 80) then keyMisuse (blobSlot (slice c.args 4 80)) s else s
    objects := fun s c => [(4, (importTarget s c).getD 0)]
    act := fun c s =>
      match importTarget s c, importSecret s c with
      | some n, some secret =>
        let master := c.arg 0 1 == 0x10
        let k : Key := { use := if master then 5 else 3, alg := if master then 3 else 2, origin := 1, factory := false,
                         label := if master then c.arg 2 2 else 0, key := secret, pub := [], created := createdNow s }
        (.result (le 2 n ++ checkValue secret),
          judgeVault (yew 0x3003 kDevice 0 (le 2 n ++ checkValue secret) (putKey n k s)))
      | _, _ => (.result [], s) }

/-- KEY_DELETE (R243, R247). -/
def keyDeleteDef : CmdDef :=
  { opcode := 0x0809, role := fun _ => .secur
    args := fun _ c => slotInRange (c.arg 0 2) (notFixed (c.arg 0 2) none)
    state := fun s c => orFail (keyAt s (c.arg 0 2)).isSome stStateConflict
    objects := fun _ c => [(4, c.arg 0 2)]
    act := fun c s =>
      let s1 := match keyAt s (c.arg 0 2) with | some k => cacheDropKey (c.arg 0 2) k s | none => s
      (.result [], yew 0x3004 kDevice 0 (le 2 (c.arg 0 2)) (onKeys (fun l => Tbl.del l (c.arg 0 2)) s1)) }

/-- The proof of possession of an enrolment (R259). -/
def proofOk (s : State) (p : Bytes) : Bool :=
  Config.falconVerify (slice p 0 1793) (ascii "KHENROL" ++ le 8 s.dev.fit.serial.toNat ++ slice p 0 1793) (slice p 1793 1280)

/-- An enrolled public key with use VERIFY. -/
def verifyKey (s : State) (pub : Bytes) : Key :=
  { use := 7, alg := 5, origin := 1, factory := false, label := 0, key := pub, pub, created := createdNow s }

/-- AUTHORITY_ENROL (R259). -/
def authorityEnrolDef : CmdDef :=
  { opcode := 0x080C, role := fun s => if enrolled s then .signed else .oper
    lenOk := fun _ _ n => n == 3073
    args := fun s c => orFail (proofOk s c.payload) stSignatureFailed
    objects := fun _ _ => [(4, 2)]
    act := fun c s =>
      let pub := slice c.payload 0 1793
      let replaced := enrolled s
      let id := le 8 (keyId pub).toNat
      let s1 := extend 3 pub (putKey 2 (verifyKey s pub) s)
      let s2 := report (if replaced then 0x3002 else 0x3001) kDevice 0 id 0x0C02 1 0 id s1
      let s3 := if replaced then s2.onHost fun h => { h with sessions := h.sessions.filter fun x => x.role != 2 } else s2
      (.result [], judgeVault s3) }

/-- COSIGN_ENROL (R259). -/
def cosignEnrolDef : CmdDef :=
  { opcode := 0x080D, role := fun _ => .signed
    lenOk := fun _ _ n => n == 3073
    args := fun s c => orFail (proofOk s c.payload) stSignatureFailed
    objects := fun _ _ => [(4, 5)]
    act := fun c s =>
      let pub := slice c.payload 0 1793
      (.result [], extend 3 pub (putKey 5 (verifyKey s pub) s)) }

/-- MEASURE_EXTEND (R257). -/
def measureExtendDef : CmdDef :=
  { opcode := 0x080E, role := fun _ => .oper
    lenOk := fun _ _ n => decide (1 ≤ n) && decide (n ≤ 65536)
    args := fun _ c => orElse (decide (c.arg 0 1 ≤ 7)) stOutOfRange (orFail (decide (6 ≤ c.arg 0 1)) stIgnored)
    act := fun c s => (.result [], extend (c.arg 0 1) c.payload s) }

/-- BROADCAST_GENERATION_SET (R341). -/
def broadcastGenerationSetDef : CmdDef :=
  { opcode := 0x080F, role := fun _ => .oper
    state := fun s c => orFail (masterOf s (c.arg 0 1)).isSome stStateConflict
    objects := fun _ _ => [(8, 1)]
    act := fun c s => (.result [], s.onVlt fun v => { v with bcastGen := Tbl.put v.bcastGen (c.arg 0 1) (c.arg 2 2) }) }

/-! ### The meanings -/

def execAttest (d : Desc) (s : State) : Host.Outcome State Fault Refusal := runCmd attestDef (.attest d) d s
def execKeyAttest (d : Desc) (s : State) : Host.Outcome State Fault Refusal := runCmd keyAttestDef (.keyAttest d) d s
def execCertificateRead (d : Desc) (s : State) : Host.Outcome State Fault Refusal := runCmd certificateReadDef (.certificateRead d) d s
def execPublicKeyRead (d : Desc) (s : State) : Host.Outcome State Fault Refusal := runCmd publicKeyReadDef (.publicKeyRead d) d s
def execKeyList (d : Desc) (s : State) : Host.Outcome State Fault Refusal := runCmd keyListDef (.keyList d) d s
def execKeyGenerate (d : Desc) (s : State) : Host.Outcome State Fault Refusal := runCmd keyGenerateDef (.keyGenerate d) d s
def execTransportEstablish (d : Desc) (s : State) : Host.Outcome State Fault Refusal := runCmd transportEstablishDef (.transportEstablish d) d s
def execKeyImport (d : Desc) (s : State) : Host.Outcome State Fault Refusal := runCmd keyImportDef (.keyImport d) d s
def execKeyDelete (d : Desc) (s : State) : Host.Outcome State Fault Refusal := runCmd keyDeleteDef (.keyDelete d) d s
def execAuthorityEnrol (d : Desc) (s : State) : Host.Outcome State Fault Refusal := runCmd authorityEnrolDef (.authorityEnrol d) d s
def execCosignEnrol (d : Desc) (s : State) : Host.Outcome State Fault Refusal := runCmd cosignEnrolDef (.cosignEnrol d) d s
def execMeasureExtend (d : Desc) (s : State) : Host.Outcome State Fault Refusal := runCmd measureExtendDef (.measureExtend d) d s
def execBroadcastGenerationSet (d : Desc) (s : State) : Host.Outcome State Fault Refusal := runCmd broadcastGenerationSetDef (.broadcastGenerationSet d) d s

end Sys2Proof.Machine
end

