-- ==== Sys2Proof/Machine/MeterCmds.lean ====
section
/-!
DEFINITION. The commands of the meters and shards group (R401 to R403), but for METER_REMOVE, which opens frames.
-/

namespace Sys2Proof.Machine

/-! ### Slots and shards as arguments (R18) -/

/-- A slot number argument: bits 31..20 are ignored (R18). -/
def Ctx.slotArg (c : Ctx) : Nat := c.arg 0 4 % 2 ^ 20

/-- The shard exists in this role (R18). -/
def shardExists (s : State) (k : Nat) : Bool := s.dev.core || decide (k < 16)

/-- A command that names a slot of a shard the role lacks is out of range (R18). -/
def slotExists (s : State) (c : Ctx) (rest : Option Nat) : Option Nat :=
  orElse (shardExists s (shardOf c.slotArg)) stOutOfRange rest

/-- The slot is not EMPTY. -/
def inUse (s : State) (n : Nat) : Bool := (slot s n).state != .empty

/-- Slots of a shard that are not EMPTY. -/
def slotsIn (s : State) (k : Nat) : List Nat :=
  (s.met.slots.filter fun p => shardOf p.1 == k && p.2.state != .empty).map Prod.fst

/-- The object a command on a slot changes (R396). -/
def slotObject (c : Ctx) : List (Nat × Nat) := [(1, c.slotArg)]

/-! ### What the mode leaves a slot (R161) -/

/-- The shard's slots are in transparent mode; in core role every shard opens (R161). -/
def bare (s : State) (k : Nat) : Bool := !s.dev.core && (shard s k).transparent

/-- What a slot of a transparent shard holds: identity, key generation and link state. Its high-water ASN and blobs belong to the key
generation, the group it is the reference of to the group (R161, R402; DESIGN CHOICE, assumption log 29). -/
def linkOnly (x : Slot) : Slot :=
  { x with plan := 0, nextPlan := none, ruleSet := 0, layout := 0, accepted := 0, generating := false,
           counters := [0, 0, 0, 0, 0, 0, 0, 0], bill := {}, valid := {}, loss := { reference := x.loss.reference },
           cache := [], ring := [] }

/-- A slot changed keeps to what its shard's mode leaves it. -/
def keepBare (n : Nat) (s : State) : State := if (shard s (shardOf n)).stripped then modSlot n linkOnly s else s

/-- Frames of the shard taken in forward-and-open mode wait to be opened. -/
def openingsWait (s : State) (k : Nat) : Bool :=
  s.prot.intake.any fun e => !e.transparent && (forwardSlot s e).map shardOf == some k

/-- The transparent mode reaches the shard's slots once the frames taken before it are opened (R161). -/
def settleMode (k : Nat) (s : State) : State :=
  if bare s k ∧ (shard s k).stripped = false ∧ openingsWait s k = false then
    modShard k (fun x => { x with stripped := true })
      (s.onMet fun m => { m with slots := Tbl.mapVals m.slots fun n x => if shardOf n = k then linkOnly x else x })
  else s

/-- A shard's mode and its EXPORT_OPENED bit are set; slots that leave transparent mode join their plan (R161). -/
def setMode (k : Nat) (transparent exportOpened : Bool) (s : State) : State :=
  let was := (shard s k).stripped
  let s1 := modShard k (fun x => { x with transparent, exportOpened, stripped := x.stripped && transparent }) s
  if transparent then settleMode k s1
  else if was then (slotsIn s1 k).foldl (fun t n => joinPlan n t) s1
  else s1

/-! ### METER_ENTER (R401, R402) -/

/-- A blob's header gives a generation and the meter-key kind of a suite (R248, R402). -/
def blobFits (blob : Bytes) (suite gen : Nat) : Bool := field blob 1 1 == suite && field blob 2 2 == gen

/-- The blob of a METER_ENTER is good; no key is asked for in a transparent shard (R161, R402). -/
def enterBlobOk (s : State) (c : Ctx) : Bool :=
  c.arg 22 1 != 1 ||
    (blobFits c.payload (c.arg 21 1) (c.arg 28 2) &&
      (bare s (shardOf c.slotArg) || (meterBlob s c.payload (BitVec.ofNat 64 (c.arg 12 8))).isSome))

/-- The slot METER_ENTER makes (R402). -/
def enteredSlot (c : Ctx) : Slot :=
  { eui := BitVec.ofNat 64 (c.arg 4 8), title := BitVec.ofNat 64 (c.arg 12 8), state := .active, medium := c.arg 20 1,
    suite := c.arg 21 1, imported := c.arg 22 1 == 1, keyPlan := c.arg 23 1, plan := c.arg 24 1, ruleSet := c.arg 25 1,
    layout := c.arg 26 1, generating := c.arg 27 1 % 2 == 1, gen := c.arg 28 2,
    blob := if c.arg 22 1 = 1 then some c.payload else none }

def meterEnterDef : CmdDef :=
  { opcode := 0x0201, role := fun _ => .oper
    lenOk := fun _ d n => if inl d 22 1 = 1 then n == 80 else n == 0
    args := fun s c =>
      orElse (decide (c.arg 20 1 ≤ 2) && decide (c.arg 21 1 ≤ 2) && decide (c.arg 22 1 ≤ 1) && decide (c.arg 24 1 < 64)
          && decide (c.arg 25 1 < 64)) stBadArgument
        (orElse (c.arg 22 1 != 1 || decide (blobSlot c.payload < 1024)) stOutOfRange
          (orElse (c.arg 22 1 != 1 || !blobMisuse s c.payload) stIgnored
            (orElse (enterBlobOk s c) stBadArgument
              (slotExists s c (orFail (decide ((shard s (shardOf c.slotArg)).state = .held)) stOutOfRange)))))
    state := fun s c =>
      orFail (!inUse s c.slotArg && (slotByEui s (BitVec.ofNat 64 (c.arg 4 8))).isNone
        && (slotByTitle s (slice c.args 12 8)).isNone) stStateConflict
    res := fun s c =>
      orFail (enterNames s c.slotArg (BitVec.ofNat 64 (c.arg 4 8)) (BitVec.ofNat 64 (c.arg 12 8))).isSome stNoResource
    failed := fun c st s => if st = stIgnored then keyMisuse (blobSlot c.payload) s else s
    objects := fun _ c => slotObject c
    act := fun c s =>
      let x := { enteredSlot c with loss := (slot s c.slotArg).loss }
      let dir := (enterNames s c.slotArg x.eui x.title).getD s.met.dir
      (.result [], keepBare c.slotArg (joinPlan c.slotArg (s.onMet fun m => { m with slots := Tbl.put m.slots c.slotArg x, dir }))) }

/-! ### METER_UPDATE, SLOT_READ, COMMISSIONING_SET -/

/-- The entry is a scaler_unit that overrides a layout (R154). -/
def isScalerUnit (r : RegEntry) : Bool :=
  (r.attr == 3 && (r.classId == 3 || r.classId == 4)) || (r.attr == 4 && r.classId == 5)

/-- A bit of METER_UPDATE's mask. -/
def updates (c : Ctx) (n : Nat) : Bool := c.arg 4 1 / 2 ^ n % 2 == 1

/-- METER_UPDATE's change of a slot, rolled first where the plan changes at the next PERIOD_END; a new layout ends every scaler_unit override (R154, R402). -/
def updatedSlot (c : Ctx) (x : Slot) : Slot :=
  { x with
    nextPlan := if updates c 0 then some (c.arg 5 1) else x.nextPlan
    ruleSet := if updates c 1 then c.arg 6 1 else x.ruleSet
    layout := if updates c 2 then c.arg 7 1 else x.layout
    cache := if updates c 2 then x.cache.filter fun r => !isScalerUnit r else x.cache
    keyPlan := if updates c 3 then c.arg 8 1 else x.keyPlan
    generating := if updates c 4 then c.arg 9 1 == 1 else x.generating }

def meterUpdateDef : CmdDef :=
  { opcode := 0x0203, role := fun _ => .oper
    args := fun s c =>
      orElse ((!updates c 0 || decide (c.arg 5 1 < 64)) && (!updates c 1 || decide (c.arg 6 1 < 64))
        && (!updates c 4 || decide (c.arg 9 1 ≤ 1))) stBadArgument (slotExists s c none)
    state := fun s c => orFail (inUse s c.slotArg) stStateConflict
    objects := fun _ c => slotObject c
    act := fun c s =>
      let s1 := keepBare c.slotArg (modSlot c.slotArg (updatedSlot c) (if updates c 0 then roll c.slotArg s else s))
      (.result [], if updates c 3 then cacheDrop c.slotArg s1 else s1) }

/-- The length SLOT_READ names, 0 meaning 16,384. -/
def readLength (c : Ctx) : Nat := if c.arg 6 2 = 0 then 16384 else c.arg 6 2

def slotReadDef : CmdDef :=
  { tokenRead 0x0204 (fun s c => slice (hotState s c.slotArg) (c.arg 4 2) (readLength c)) with
    args := fun s c => slotExists s c (orFail (decide (c.arg 4 2 + readLength c ≤ 16384)) stOutOfRange) }

/-- COMMISSIONING_SET (R151). -/
def commissioningSetDef : CmdDef :=
  { opcode := 0x0205, role := fun _ => .oper
    args := fun s c => slotExists s c (orFail (decide (c.arg 4 6 ≤ tb2s s + 86400)) stOutOfRange)
    state := fun s c => orFail (inUse s c.slotArg) stStateConflict
    objects := fun _ c => slotObject c
    act := fun c s =>
      (.result [], modSlot c.slotArg (fun x =>
        if c.arg 4 6 = 0 then { x with state := .active } else { x with state := .commissioning, commEnd := c.arg 4 6 }) s) }

/-- A slot's commissioning end passes and it returns to ACTIVE (R151). -/
def commissioningEnd (n : Nat) (s : State) : State :=
  guarded (decide ((slot s n).state = .commissioning) && decide ((slot s n).commEnd ≤ tb2s s))
    (modSlot n fun x => { x with state := .active }) s

/-! ### Layouts and rule sets (R153, R157) -/

/-- A column as its 16 bytes spell it. -/
def columnOf (b : Bytes) : Column :=
  { classId := field b 0 2, obis := slice b 2 6, attr := field b 8 1, index := field b 9 1, target := field b 10 1,
    scaler := fieldS b 11 1, unit := field b 12 1 }

/-- A layout as its bytes spell it. -/
def layoutOf (b : Bytes) : Layout :=
  { isList := field b 1 1 == 1, capture := field b 4 4, cols := (List.range (field b 0 1)).map fun i => columnOf (slice b (8 + 16 * i) 16) }

def layoutLoadDef : CmdDef :=
  { opcode := 0x0206, role := fun _ => .oper
    lenOk := fun _ _ n => decide (8 ≤ n) && (n - 8) % 16 == 0 && decide (n ≤ 264)
    args := fun _ c =>
      let l := layoutOf c.payload
      orFail (c.payload.length == 8 + 16 * field c.payload 0 1 && decide (field c.payload 1 1 ≤ 1)
        && decide (l.capture ∈ [300, 600, 900, 1800, 3600]) && (l.cols.all fun x => decide (x.target ≤ 18))) stBadArgument
    objects := fun _ c => [(5, c.arg 0 1)]
    act := fun c s => (.result [], s.onMet fun m => { m with layouts := Tbl.put m.layouts (c.arg 0 1) (layoutOf c.payload) }) }

/-- A rule as its 16 bytes spell it. -/
def ruleOf (b : Bytes) : Rule :=
  { type := field b 0 1, qty := field b 1 1, n := field b 2 2, a := fieldS b 4 4, b := fieldS b 8 4 }

/-- The quantities a rule type accepts (table Rule types). -/
def ruleQtyOk (r : Rule) : Bool :=
  match r.type with
  | 1 | 4 => decide (r.qty ≤ 7) || r.qty == 0xFF
  | 2 | 3 | 6 | 7 | 11 => decide (r.qty ≤ 3) || r.qty == 0xFF
  | 5 => r.qty == 1 || r.qty == 0xFF
  | 8 => (decide (4 ≤ r.qty) && decide (r.qty ≤ 7)) || r.qty == 0xFF
  | 9 | 10 => r.qty == 0xFF
  | _ => false

/-- The parameters of a rule are in range (table Rule types). -/
def ruleParamsOk (r : Rule) : Bool :=
  let inR (lo x hi : Int) : Bool := decide (lo ≤ x) && decide (x ≤ hi)
  match r.type with
  | 2 => inR 16 r.a 255 && inR 2 r.n 32
  | 3 => inR 1 r.n 96
  | 4 => inR 2 r.n 96
  | 9 => inR 1 r.a 255
  | 10 => inR 1 r.a 3600
  | 11 => inR 1 r.n 28 && decide (0 ≤ r.a)
  | _ => true

/-- The rules of a rule set. -/
def rulesOf (b : Bytes) : List Rule := (List.range (b.length / 16)).map fun i => ruleOf (slice b (16 * i) 16)

def ruleSetLoadDef : CmdDef :=
  { opcode := 0x0207, role := fun _ => .oper
    lenOk := fun _ _ n => n % 16 == 0 && decide (16 ≤ n) && decide (n ≤ 256)
    args := fun _ c =>
      orFail (decide (c.arg 0 1 < 64) && (rulesOf c.payload).all fun r => ruleQtyOk r && ruleParamsOk r) stBadArgument
    objects := fun _ c => [(6, c.arg 0 1)]
    act := fun c s => (.result [], s.onMet fun m => { m with ruleSets := Tbl.put m.ruleSets (c.arg 0 1) (rulesOf c.payload) }) }

/-! ### Shards (R403, R161, R50) -/

/-- A shard argument exists in this role (R18). -/
def shardArg (s : State) (c : Ctx) (rest : Option Nat) : Option Nat := orElse (shardExists s (c.arg 0 1)) stOutOfRange rest

/-- The epoch after an epoch; 0x0001 after 0xFFFF and at the first placement (R19). -/
def nextEpoch (e : Nat) : Nat := if e = 0 ∨ e = 0xFFFF then 1 else e + 1

/-- The object a command on a shard changes (R396). -/
def shardObject (c : Ctx) : List (Nat × Nat) := [(2, c.arg 0 1)]

def shardCreateDef : CmdDef :=
  { opcode := 0x0208, role := fun _ => .oper
    args := fun s c => shardArg s c none
    state := fun s c => orFail (decide ((shard s (c.arg 0 1)).state = .unheld)) stStateConflict
    objects := fun _ c => shardObject c
    act := fun c s => (.result [], modShard (c.arg 0 1) (fun x => { x with state := .held, epoch := nextEpoch x.epoch }) s) }

def shardDeleteDef : CmdDef :=
  { opcode := 0x0209, role := fun _ => .oper
    args := fun s c => shardArg s c none
    state := fun s c => orFail (decide ((shard s (c.arg 0 1)).state = .held) && (slotsIn s (c.arg 0 1)).isEmpty) stStateConflict
    objects := fun _ c => shardObject c
    act := fun c s => (.result [], modShard (c.arg 0 1) (fun x => { x with state := .unheld }) s) }

/-- A member of a balance group stands in the shard (R207). -/
def hasMember (s : State) (k : Nat) : Bool :=
  s.lt.groups.any fun g => g.2.members.any fun m => shardOf m.1 == k

def shardModeSetDef : CmdDef :=
  { opcode := 0x020A, role := fun _ => .oper
    args := fun s c => orElse (decide (c.arg 1 1 ≤ 1) && decide (c.arg 2 1 ≤ 1)) stBadArgument (shardArg s c none)
    state := fun s c => orFail (!(c.arg 1 1 == 1 && hasMember s (c.arg 0 1))) stStateConflict
    objects := fun _ c => shardObject c
    act := fun c s =>
      (.result [], setMode (c.arg 0 1) (c.arg 1 1 == 1) (c.arg 2 1 == 1) s) }

/-- Records held back by a shard's move take their sequences on the new ring, in order (R30, R50). -/
def placeHeld (k : Nat) (s : State) : State :=
  let s1 := modShard k (fun x => { x with moving := none }) s
  let held := s1.met.records.filter fun r => r.shard == some k && r.seq == 0
  let s2 := s1.onMet fun m => { m with records := m.records.filter fun r => !(r.shard == some k && r.seq == 0) }
  let s3 := held.foldl (fun t r => commitRec { r with ring := ringOf t k } t) s2
  if held = [] then s3 else commit s3

/-- The last record of a shard on a ring that its cursor has not passed. -/
def lastOn (s : State) (k r : Nat) : Option Nat :=
  (s.met.records.filter fun x => x.shard == some k && x.ring == r && decide ((ring s r).erCursor.toNat < x.seq)).foldl
    (fun b x => some (max (b.getD 0) x.seq)) none

/-- A shard is mapped to a ring: at once when the old ring's cursor has passed its last record, else held back (R50). -/
def moveShard (k r : Nat) (s : State) : State :=
  let old := match (shard s k).moving with | some (o, _) => o | none => ringOf s k
  let s1 := modShard k (fun x => { x with ring := some r }) s
  if old = r then placeHeld k s1
  else
    match lastOn s k old with
    | some q => modShard k (fun x => { x with moving := some (old, q) }) s1
    | none => placeHeld k s1

def shardRingSetDef : CmdDef :=
  { opcode := 0x020B, role := fun _ => .oper
    args := fun s c => shardArg s c (orFail (decide (c.arg 1 1 ≤ 15)) stOutOfRange)
    objects := fun _ c => shardObject c
    act := fun c s => (.result [], moveShard (c.arg 0 1) (c.arg 1 1) s) }

/-- The code of a shard state (R401). -/
def shardStateCode : ShardState → Nat
  | .unheld => 0
  | .held => 1
  | .incoming => 2
  | .frozen => 3
  | .draining => 4

/-- CEILING of a power domain (table PWR_LIMIT). -/
def domCeiling (s : State) (d : Nat) : Nat := bits (Tbl.getD s.pwr.doms d {}).limit 4 3

/-- An engine of a quad holds a grant or a lock of Hawthorn's (table Refusers, code 1). -/
def quadGrant (s : State) (q : Nat) : Bool := s.pwr.owners.any fun p => p.2.who / 4 == q && decide (p.2.who < 16)

/-- A quad is in RUN, with no entry in progress (R346). -/
def quadRuns (s : State) (q : Nat) : Bool := domRuns s q

/-- An engine takes work: neither failed nor cut off for good, and its quad not held down; a quad whose engine still holds a grant
is not held down yet (R16, R351, R353, R364, table Power and arbitration coincidences). -/
def engineUp (s : State) (e : Nat) : Bool :=
  !decide (e ∈ s.pwr.deadEngines) && !decide (e ∈ s.pwr.dead) && (domCeiling s (e / 4) == 0 || quadGrant s (e / 4))

/-- Where the shards of an engine stand: with the engine, or else with another of its quad, or of another quad (R16). Which engine
of the quad, or of which quad, the manual does not say: the model gives them all to the next one up in ring order (DESIGN CHOICE,
assumption log 75). -/
def standIn (s : State) (e : Nat) : Nat :=
  let near := (List.range 4).map fun i => e / 4 * 4 + (e + i) % 4
  let far := (List.range 16).map fun i => (i / 4 * 4 + (e + i) % 4) % 16
  ((near ++ far).find? (engineUp s)).getD e

/-- The engine that owns a shard (R15, R16). When and whether shards return to an engine that is up again the manual does not say:
the model returns them at once (DESIGN CHOICE, assumption log 75). -/
def ownerOf (s : State) (k : Nat) : Nat := standIn s ((shard s k).owner.getD (k % 16))

/-- The quad of the engine that owns a slot's shard is in RUN: background work on the slot has it to run on (R15, R25, table When
background and foreground meet). -/
def ownerRuns (s : State) (n : Nat) : Bool := quadRuns s (ownerOf s (shardOf n) / 4)

def shardStatusDef : CmdDef :=
  { inlineRead 0x020C (fun s c =>
      let k := c.arg 0 1
      let x := shard s k
      le 1 (shardStateCode x.state) ++ le 1 (ownerOf s k) ++ le 1 (ringOf s k) ++ le 1 (flag 0 x.transparent) ++ le 2 x.epoch
        ++ le 2 (slotsIn s k).length) with
    args := fun s c => shardArg s c none }

/-- DIRECTORY_LOOKUP (R145). -/
def directoryLookupDef : CmdDef :=
  { inlineRead 0x020D (fun s c =>
      le 4 ((if c.arg 0 1 = 0 then slotByEui s (BitVec.ofNat 64 (c.arg 4 8)) else slotByTitle s (slice c.args 4 8)).getD 0xFFFFFFFF)) with
    args := fun _ c => orFail (decide (c.arg 0 1 ≤ 1)) stBadArgument }

/-- The CP moves a shard to another engine when the owner has none of its frames in progress (R15, R16). -/
def reassign (k e : Nat) (s : State) : State :=
  guarded (shardExists s k && decide (e < 16) && engineUp s e) (modShard k fun x => { x with owner := some e }) s

/-! ### The meanings -/

def execMeterEnter (d : Desc) (s : State) : Host.Outcome State Fault Refusal := runCmd meterEnterDef (.meterEnter d) d s
def execMeterUpdate (d : Desc) (s : State) : Host.Outcome State Fault Refusal := runCmd meterUpdateDef (.meterUpdate d) d s
def execSlotRead (d : Desc) (s : State) : Host.Outcome State Fault Refusal := runCmd slotReadDef (.slotRead d) d s
def execCommissioningSet (d : Desc) (s : State) : Host.Outcome State Fault Refusal := runCmd commissioningSetDef (.commissioningSet d) d s
def execLayoutLoad (d : Desc) (s : State) : Host.Outcome State Fault Refusal := runCmd layoutLoadDef (.layoutLoad d) d s
def execRuleSetLoad (d : Desc) (s : State) : Host.Outcome State Fault Refusal := runCmd ruleSetLoadDef (.ruleSetLoad d) d s
def execShardCreate (d : Desc) (s : State) : Host.Outcome State Fault Refusal := runCmd shardCreateDef (.shardCreate d) d s
def execShardDelete (d : Desc) (s : State) : Host.Outcome State Fault Refusal := runCmd shardDeleteDef (.shardDelete d) d s
def execShardModeSet (d : Desc) (s : State) : Host.Outcome State Fault Refusal := runCmd shardModeSetDef (.shardModeSet d) d s
def execShardRingSet (d : Desc) (s : State) : Host.Outcome State Fault Refusal := runCmd shardRingSetDef (.shardRingSet d) d s
def execShardStatus (d : Desc) (s : State) : Host.Outcome State Fault Refusal := runCmd shardStatusDef (.shardStatus d) d s
def execDirectoryLookup (d : Desc) (s : State) : Host.Outcome State Fault Refusal := runCmd directoryLookupDef (.directoryLookup d) d s
def execCommissioningEnd (n : Nat) (s : State) : Host.Outcome State Fault Refusal := whileRunning (commissioningEnd n) s
def execShardOwnerReassign (k e : Nat) (s : State) : Host.Outcome State Fault Refusal := whileRunning (reassign k e) s

end Sys2Proof.Machine
end

