-- ==== Sys2Proof/Machine/Lanes.lean ====
section
/-!
DEFINITION. Sample ports and link channels: their fields, their counters, and transmissions cut short (R78, R90, R97, R300).
-/

namespace Sys2Proof.Machine

/-! ### Ports and channels -/

/-- A sample port. -/
def port (s : State) (p : Nat) : Port := Tbl.getD s.lane.ports p {}

/-- A sample port changed. -/
def modPort (p : Nat) (f : Port → Port) (s : State) : State :=
  s.onLane fun l => { l with ports := Tbl.upd l.ports p {} f }

/-- A link channel. -/
def chan (s : State) (c : Nat) : Chan := Tbl.getD s.lane.chans c {}

/-- A link channel changed. -/
def modChan (c : Nat) (f : Chan → Chan) (s : State) : State :=
  s.onLane fun l => { l with chans := Tbl.upd l.chans c {} f }

/-- A port is in UP. -/
def portUp (s : State) (p : Nat) : Bool := decide ((port s p).state = .up)

/-- Flags of the port configuration (table Port configuration record). -/
def Port.halfDuplex (p : Port) : Bool := p.flags.getLsbD 1
def Port.txEnable (p : Port) : Bool := p.flags.getLsbD 3

/-- The format is configured. -/
def Port.configured (p : Port) : Bool := p.format != 0xFF#8

/-- Fields of BIND and MAC. -/
def ChanCfg.port (c : ChanCfg) : Nat := bits c.bind 0 4
def ChanCfg.plan (c : ChanCfg) : Nat := bits c.bind 4 4
def ChanCfg.centre (c : ChanCfg) : Nat := bits c.bind 8 8
def ChanCfg.macType (c : ChanCfg) : Nat := bits c.mac 0 2
def ChanCfg.txEn (c : ChanCfg) : Bool := c.mac.getLsbD 4
def ChanCfg.rxEn (c : ChanCfg) : Bool := c.mac.getLsbD 5

/-- NETWORK_ID of a channel in force, whichever its MAC. -/
def ChanCfg.netId (c : ChanCfg) : Nat := if c.macType = 1 then bits c.hrNet 0 16 else bits c.brNet 0 16

/-- The channel's binding and MAC work: a plan and a MAC in force. -/
def ChanCfg.bound (c : ChanCfg) : Bool := c.plan != 0 && c.macType != 0

/-- Channels in force of a MAC and a network, by number. -/
def netChans (s : State) (mac net : Nat) : List Nat :=
  (s.lane.chans.filter fun c => c.2.act.bound && c.2.act.macType == mac && c.2.act.netId == net).map Prod.fst

/-- The present instant of the base a channel launches against: TB4 for Hedgerow, TB5 for Bramble (R95). -/
def macNow (s : State) (c : ChanCfg) : Nat := if c.macType = 1 then tb4 s else tb5 s

/-! ### Statistics (R97) -/

/-- A counter of a channel rises, saturating (R97). -/
def countStat (c off k : Nat) (s : State) : State :=
  modChan c (fun x => { x with stats := Tbl.upd x.stats off 0#32 fun w => BitVec.ofNat 32 (min (w.toNat + k) (2 ^ 32 - 1)) }) s

/-- Common statistics (table Common statistics). -/
def stRxDetect : Nat := 0x80
def stRxFcsFail : Nat := 0x84
def stRxTaken : Nat := 0x88
def stRxBlankDrop : Nat := 0x8C
def stTxFrames : Nat := 0x98
def stTxAborted : Nat := 0x9C
def stNoiseFloor : Nat := 0xA0
def stRssiLast : Nat := 0xA4
def stRefusedTake : Nat := 0xA8
def stHalfDuplexLost : Nat := 0xAC

/-! ### Transmissions cut short (R90, R300) -/

/-- Transmissions of a port still in progress. -/
def inProgress (s : State) (p : Nat) : List Launch :=
  (port s p).active.filter fun l => decide (macNow s (chan s l.lc).act < l.launch + l.airtime)

/-- A transmission cut short at its next symbol boundary: what is sent of it still erases. Where the manual states no symbol, of an OFDM
mode of Bramble, the boundary is an open value (R90, R96, R300; assumption log 76). -/
def cutShort (now draw : Nat) (l : Launch) : Launch :=
  let e := now - l.launch
  let boundary := if l.symbol.1 = 0 then e + draw else ceilDiv (ceilDiv (e * l.symbol.2) l.symbol.1 * l.symbol.1) l.symbol.2
  { l with airtime := min l.airtime boundary }

/-- Transmissions of a port that a test names end at their next symbol boundary and are counted; launches it names are not sent
(R90, R300). -/
def cutPort (p : Nat) (named : Launch → Bool) (s : State) : State :=
  let s1 := ((inProgress s p).filter named).foldl (fun t l => emit (.txAbort l.lc) (countStat l.lc stTxAborted 1 t)) s
  modPort p (fun x =>
    { x with queue := x.queue.filter fun l => !named l
             active := x.active.map fun l =>
               if named l then cutShort (macNow s (chan s l.lc).act) (Config.openNat s.free) l else l }) s1.draw

end Sys2Proof.Machine
end

