-- ==== Sys2Proof/Machine/Zoryen.lean ====
section
/-!
DEFINITION. Zoryen frames, the right to transmit, and the mirroring queue (R291 to R305).
-/

namespace Sys2Proof.Machine

/-- Milliseconds and microseconds in ns. -/
def nsMs : Nat := 10 ^ 6
def nsUs : Nat := 1000

/-- Zoryen message types (table Zoryen messages). -/
def zHeartbeat : Nat := 1
def zGrant : Nat := 2
def zMirror : Nat := 3
def zAck : Nat := 4
def zCutoff : Nat := 5
def zRoot : Nat := 6
def zShardRoots : Nat := 7
def zResyncReq : Nat := 8
def zResyncData : Nat := 9
def zLeafHashes : Nat := 10

/-- The device ID that stands for Etkijo. -/
def etkijo : Word := 0xFFFFFFFF#32

/-! ### Links -/

/-- A link: pair ID, the other party, the key slots for sending and receiving, and the term this side speaks for. -/
structure Link where
  /-- Pair ID. -/
  pair : Word
  /-- The other party's device ID. -/
  peer : Word
  /-- Key slot for sending. -/
  send : Nat
  /-- Key slot for receiving. -/
  recv : Nat
  /-- Highest term known on this pair. -/
  term : Nat
  /-- The other party's addresses on the ETH-A and ETH-B sides. -/
  macs : Bytes × Bytes
  /-- The place of the pair in the witness table, for a link of a witnessed pair: index, first or second device. -/
  witness : Option (Nat × Bool)
  deriving DecidableEq, Repr

/-- The links of the device's own pair: partner, then witness. -/
def ownLinks (s : State) : List Link :=
  match s.pair.record with
  | none => []
  | some r =>
    let (ps, pr, ws, wr) := r.keys
    [{ pair := r.id, peer := r.partner, send := ps, recv := pr, term := s.pair.term,
       macs := (slice r.bytes 8 6, slice r.bytes 14 6), witness := none },
     { pair := r.id, peer := r.witness, send := ws, recv := wr, term := s.pair.term,
       macs := (slice r.bytes 24 6, slice r.bytes 30 6), witness := none }]

/-- The links of the pairs the device witnesses (R303). -/
def witnessLinks (s : State) : List Link :=
  (s.pair.witnessed.zip (List.range 16)).flatMap fun p =>
    let w := p.1
    [{ pair := w.id, peer := w.devs.1, send := w.slots.1.1, recv := w.slots.1.2, term := w.term,
       macs := (slice w.bytes 12 6, slice w.bytes 18 6), witness := some (p.2, false) },
     { pair := w.id, peer := w.devs.2, send := w.slots.2.1, recv := w.slots.2.2, term := w.term,
       macs := (slice w.bytes 24 6, slice w.bytes 30 6), witness := some (p.2, true) }]

/-- Every link. -/
def links (s : State) : List Link := ownLinks s ++ witnessLinks s

/-- The link to the partner. -/
def partnerLink (s : State) : Option Link := (ownLinks s).head?

/-! ### Sending (R296) -/

/-- A link key with the use a direction needs; Holly does nothing with a key of another use, nor with a slot that is empty (R242). -/
def keyForUse (s : State) (n use : Nat) : Option Bytes :=
  match keyAt s n with
  | some k => if k.use = use then some k.key else none
  | none => none

/-- The tag of a frame: GMAC under the link key over the frame to the end of its body. -/
def zTag (key : Bytes) (sender : Word) (seq : Nat) (head : Bytes) : Bytes :=
  slice (Config.gcmSeal key (le 4 sender.toNat ++ le 8 seq) head []) 0 12

/-- A frame with its tag, padded to the Ethernet minimum. -/
def zFrame (s : State) (key : Bytes) (l : Link) (type seq : Nat) (body : Bytes) : Bytes :=
  let head := le 1 1 ++ le 1 type ++ le 2 body.length ++ le 4 s.dev.deviceId.toNat ++ le 4 l.peer.toNat ++ le 4 l.term
    ++ le 8 seq ++ le 4 l.pair.toNat ++ body
  let f := head ++ zTag key s.dev.deviceId seq head
  f ++ zeros (46 - f.length)

/-- Ethernet ports whose link is up. -/
def portsUp (s : State) : List Nat := (if s.tim.ethA.up then [0] else []) ++ (if s.tim.ethB.up then [1] else [])

/-- A frame goes out on some ports under the next sequence toward its receiver; with no ENCRYPT key for the link there is none. -/
def zSendOn (ports : List Nat) (l : Link) (type : Nat) (body : Bytes) (s : State) : State :=
  match keyForUse s l.send 1 with
  | none => s
  | some key =>
    let seq := Tbl.getD s.pair.sent l.peer.toNat 0 + 1
    let f := zFrame s key l type seq body
    ports.foldl (fun t p => emitEth p (if p = 0 then l.macs.1 else l.macs.2) 0x88B5 f t) (s.onPair fun p => { p with sent := Tbl.put p.sent l.peer.toNat seq })

/-- A frame to a party on the first port that is up (R229, assumption log 16). -/
def zSend (l : Link) (type : Nat) (body : Bytes) (s : State) : State := zSendOn ((portsUp s).take 1) l type body s

/-- A frame to the partner; nothing without one. -/
def zToPartner (type : Nat) (body : Bytes) (s : State) : State :=
  match partnerLink s with
  | some l => zSend l type body s
  | none => s

/-! ### The right to transmit (R300, R301, R302) -/

/-- The device may transmit to meters: alone, or holding the token, not fenced and past the hold. -/
def maySend (s : State) : Bool :=
  s.pair.record.isNone || (s.pair.holder && !s.pair.fenced && s.pair.holdUntil.isNone)

/-- The device holds the downlink token, or is alone (R300). -/
def holdsToken (s : State) : Bool := s.pair.record.isNone || s.pair.holder

/-- Every transmission stops at its next symbol boundary and nothing waits to be launched (R300, R301). -/
def stopTransmitting (s : State) : State := (s.lane.ports.map Prod.fst).foldl (fun t p => cutPort p (fun _ => true) t) s

/-- A higher term is learned: the token, if held, is lost (R300, R302). -/
def learnTerm (t : Nat) (s : State) : State :=
  if t ≤ s.pair.term then s
  else
    let s1 := s.onPair fun p => { p with term := t, holder := false, grant := none, holdUntil := none, fenced := false }
    if s.pair.holder then report 0x7003 kDevice 0 (le 4 t) 0x0E02 1 0 (le 4 t) (stopTransmitting s1) else s1

/-! ### Receiving (R297) -/

/-- The parts of a frame. -/
structure ZMsg where
  /-- Type. -/
  type : Nat
  /-- Sender. -/
  sender : Word
  /-- Term. -/
  term : Nat
  /-- Sequence. -/
  seq : Nat
  /-- Body. -/
  body : Bytes
  /-- The link it came over. -/
  link : Link
  deriving DecidableEq, Repr

/-- The link a frame names: this device the receiver, the sender a party of the pair. -/
def zLink (s : State) (b : Bytes) : Option Link :=
  if field b 8 4 ≠ s.dev.deviceId.toNat then none
  else (links s).find? fun l => l.pair.toNat == field b 24 4 && l.peer.toNat == field b 4 4

/-- The tag of a frame verifies under the link's receiving key, one of use DECRYPT (R242, R297). -/
def zTagOk (s : State) (l : Link) (b : Bytes) : Bool :=
  let n := 28 + field b 2 2
  match keyForUse s l.recv 2 with
  | some k => (Config.gcmOpen k (slice b 4 4 ++ slice b 16 8) (b.take n) [] (slice b n 12)).isSome && decide (n + 12 ≤ b.length)
  | none => false

/-- A frame that is to be accepted: version, link, tag and a sequence above the last accepted. -/
def zParse (s : State) (b : Bytes) : Option ZMsg :=
  match zLink s b with
  | none => none
  | some l =>
    if field b 0 1 = 1 ∧ zTagOk s l b ∧ Tbl.getD s.pair.accepted l.peer.toNat 0 < field b 16 8 then
      some { type := field b 1 1, sender := l.peer, term := field b 12 4, seq := field b 16 8,
             body := slice b 28 (field b 2 2), link := l }
    else none

/-- A frame is discarded: counted, and recorded at most once a minute (R297). -/
def zDiscard (s : State) : State :=
  limited (limitKey 0x7008 0) nsMin (yew 0x7008 kDevice 0 []) (s.onPair fun p => { p with discard := p.discard + 1 })

/-- The frame comes from the partner. -/
def fromPartner (s : State) (m : ZMsg) : Bool :=
  m.link.witness.isNone && match s.pair.record with | some r => m.sender == r.partner | none => false

/-- The witness notes a higher term of a pair. -/
def witnessTerm (i t : Nat) (s : State) : State :=
  s.onPair fun p => { p with witnessed := p.witnessed.modify i fun w => if w.term < t then { w with term := t } else w }

/-- An authenticated frame breaks its sender's silence: a witnessed device's toward the witness, the witness's toward its
devices (R299). -/
def zHeard (m : ZMsg) (s : State) : State :=
  s.onPair fun p =>
    match m.link.witness with
    | some (i, second) =>
      { p with witnessed := p.witnessed.modify i fun w =>
          { w with heard := if second then (w.heard.1, tb6 s) else (tb6 s, w.heard.2) } }
    | none =>
      match p.record with
      | some r => if m.sender = r.witness then { p with witnessHeard := some (tb6 s) } else p
      | none => p

/-- A frame of a type arrives: accepted, its term learned, and handled; or discarded. -/
def zReceive (type : Nat) (r : ZorRx) (f : ZMsg → State → State) (s : State) : State :=
  match zParse s r.bytes with
  | none => zDiscard s
  | some m =>
    if m.type ≠ type then s
    else
      let s1 := zHeard m (s.onPair fun p => { p with accepted := Tbl.put p.accepted m.sender.toNat m.seq })
      match m.link.witness with
      | some (i, _) => f m (witnessTerm i m.term s1)
      | none => f m (learnTerm m.term s1)

/-! ### The mirroring queue (R298, R304) -/

/-- Items are to be acknowledged by the partner before use; in PARTNER_LOST they are committed here instead (R304). -/
def mirrorNeeded (s : State) : Bool :=
  s.pair.record.isSome && s.pair.state != .partnerLost

/-- The MIRROR messages of an item: fragments of 8,192 B. -/
def mirrorFragments (seq kind : Nat) (item : Bytes) : List Bytes :=
  (List.range (max 1 (ceilDiv item.length 8192))).map fun i =>
    le 8 seq ++ le 1 kind ++ zeros 3 ++ le 4 item.length ++ le 4 (8192 * i) ++ (item.drop (8192 * i)).take 8192

/-- An item's messages are sent to the partner. -/
def sendMirror (m : MirrorItem) (s : State) : State :=
  (mirrorFragments m.seq m.kind m.item).foldl (fun t b => zToPartner zMirror b t) s

/-- An item joins the queue and is sent; `used` when it is used without waiting, with the command that waits for it. -/
def queueItem (kind : Nat) (item : Bytes) (used : Bool) (command : Option (Nat × Word × Word × Bytes)) (s : State) : State :=
  if s.pair.record.isNone then s
  else
    let m : MirrorItem := { seq := s.pair.mirrorSeq + 1, kind, item, used, command }
    sendMirror m (s.onPair fun p => { p with mirror := p.mirror ++ [m], mirrorSeq := m.seq })

/-- A command that loads a mirrored item: it completes after the partner's acknowledgement, or at once (R304). -/
def mirrorCmd (kind : Nat) (item : Bytes) (c : Ctx) (result : Bytes) (use : State → State) (s : State) : Reply × State :=
  if mirrorNeeded s then (.later, queueItem kind item false (some (c.d.ring.val, c.d.session, c.d.tag, result)) s)
  else (.result result, queueItem kind item true none (use s))

/-- The completion of a command that waited for its item (R47, R304). -/
def finishMirrored (m : MirrorItem) (s : State) : State :=
  match m.command with
  | some (_, session, tag, result) => finishRunning session tag (plain tag stDone result) (commit s)
  | none => s

end Sys2Proof.Machine
end

