-- ==== Sys2Proof/Machine/Ledger.lean ====
section
/-!
DEFINITION. The Box ledger: leaves, trees, entries, sealing, the comparison with the partner, and the ledger group (R183 to
R206, R406).
-/

namespace Sys2Proof.Machine

/-! ### Leaves (R193 to R196) -/

/-- The leaf's own period flags, and the flags local to this device (R186). -/
def leafMask : BitVec 16 := 0x04AF#16
def localMask : BitVec 16 := 0x0B50#16

/-- A demand entry, 6 B (R194). -/
def demandBytes (start : Nat) (m : MaxDemand) : Bytes :=
  if m.w = 0 then zeros 6
  else le 6 (min m.w 0xFFFFFF + 2 ^ 24 * (ceilDiv (m.end_ - start) 60 % 2 ^ 20) + flag 44 m.incomplete + flag 45 m.partial_
    + flag 46 m.sliding)

/-- The encoding flags of a determinant: those it came with, and those its values set (R194). -/
def encodingFlags (d : Determinant) : Nat :=
  flag 0 (d.enc.testBit 0 || d.e.any fun p => decide (2 ^ 32 ≤ p.2))
    + flag 1 (d.enc.testBit 1 || d.maxima.any fun p => decide (0xFFFFFF < p.2.w))

/-- The leaf flags: the period flags that follow from the records, the due instants and the plan alone (R186). -/
def leafFlags (d : Determinant) : BitVec 16 := d.flags &&& leafMask

/-- The determinant record, 256 B (R194). -/
def determinantBytes (d : Determinant) : Bytes :=
  le 1 1 ++ le 1 1 ++ le 1 (d.period / 2 ^ 26) ++ le 1 d.adjust.length ++ le 4 d.period ++ le 2 (leafFlags d).toNat
    ++ le 1 d.medium ++ le 1 (encodingFlags d) ++ le 8 d.eui.toNat ++ le 6 d.firstAsn ++ le 6 d.lastAsn
    ++ ((List.range 32).flatMap fun i => le 4 (min (Tbl.getD d.e i 0) (2 ^ 32 - 1)))
    ++ (List.range 16).flatMap fun i => demandBytes d.start (Tbl.getD d.maxima i {})

/-- An adjustment record, 256 B (R195). -/
def adjustmentBytes (period index : Nat) (a : Adjust) : Bytes :=
  le 1 1 ++ le 1 2 ++ le 1 (period / 2 ^ 26) ++ le 1 index ++ le 4 period ++ le 4 a.period ++ zeros 4
    ++ ((List.range 32).flatMap fun i => le 4 (unsigned 4 (Tbl.getD a.e i 0))) ++ zeros 112

/-- A leaf: the determinant record and its adjustment records (R193). -/
def leafOf (d : Determinant) : Bytes :=
  determinantBytes d ++ (d.adjust.zip (List.range 2)).flatMap fun p => adjustmentBytes d.period p.2 p.1

/-! ### The tree (R197, R198) -/

/-- The empty hash Z. -/
def zHash : Hash := 0#256

/-- A leaf hash. -/
def leafHash (b : Bytes) : Hash := Config.hash (ascii "KHLEAF" ++ b)

/-- An inner node; two empty children are not hashed. -/
def nodeHash (a b : Hash) : Hash :=
  if a = zHash ∧ b = zHash then zHash else Config.hash (ascii "KHNODE" ++ hashBytes a ++ hashBytes b)

/-- The node at a level over the leaves below it. -/
def treeNode : Nat → List (Nat × Hash) → Hash
  | 0, l => match l with | [] => zHash | p :: _ => p.2
  | n + 1, l =>
    if l.isEmpty then zHash
    else nodeHash (treeNode n (l.filter fun p => p.1 / 2 ^ n % 2 == 0)) (treeNode n (l.filter fun p => p.1 / 2 ^ n % 2 == 1))

/-- The hashes of leaves by slot. -/
def hashesOf (l : Tbl Bytes) : List (Nat × Hash) := l.map fun p => (p.1, leafHash p.2)

/-- The root of a shard. -/
def shardRoot (l : List (Nat × Hash)) (k : Nat) : Hash := treeNode 12 (l.filter fun p => shardOf p.1 == k)

/-- The device root. -/
def deviceRoot (l : List (Nat × Hash)) : Hash := treeNode 20 l

/-- The sibling at a level of a slot's path (R205). -/
def sibling (l : List (Nat × Hash)) (slotN i : Nat) : Hash :=
  treeNode i (l.filter fun p => p.1 / 2 ^ i == (if slotN / 2 ^ i % 2 = 0 then slotN / 2 ^ i + 1 else slotN / 2 ^ i - 1))

/-! ### The entry (R199) -/

/-- The key ID of slot 1; zero while it is empty. -/
def ledgerKeyId (s : State) : DWord := match keyAt s 1 with | some k => keyId k.pub | none => 0#64

/-- Bytes 0 to 127 of an entry (R199). -/
def entryHead (s : State) (e : Entry) : Bytes :=
  le 1 1 ++ zeros 3 ++ le 4 s.dev.deviceId.toNat ++ le 4 e.period ++ zeros 4 ++ le 8 e.number ++ le 6 e.start ++ le 6 e.end_
    ++ le 12 (stamp96 e.sealedAt) ++ le 4 e.leaves ++ le 4 e.adjusts ++ hashBytes e.root ++ hashBytes s.led.chain
    ++ le 8 (ledgerKeyId s).toNat

/-- The hash that links the next entry to this one. -/
def chainHash (e : Bytes) : Hash := Config.hash (ascii "KHCHAIN" ++ e)

/-- A determinant of a period is this device's to seal: its slot's shard is held (R198). -/
def sealsHere (s : State) (period : Nat) (d : Determinant) : Bool :=
  d.period == period && decide ((shard s (shardOf d.slot)).state = .held)

/-- Closed, unsealed determinants of a period, by slot, of the shards held (R198). -/
def determinantsOf (s : State) (period : Nat) : List Determinant := s.tar.store.filter (sealsHere s period)

/-- The entry of a period, signed (R199, R201). -/
def sealedEntry (s : State) (g : Sealing) : Entry :=
  let ds := determinantsOf s g.period
  let leaves : Tbl Bytes := ds.foldl (fun t d => Tbl.put t d.slot (leafOf d)) []
  let e : Entry :=
    { number := s.led.last + 1, period := g.period, start := g.span.1, end_ := g.span.2, sealedAt := s.tim.tb2,
      leaves := leaves.length, adjusts := (ds.map fun d => d.adjust.length).sum, root := deviceRoot (hashesOf leaves),
      bytes := [], leafBytes := leaves }
  let head := entryHead s e
  { e with bytes := head ++ signWith s 1 (ascii "KHENTRY" ++ head) }

/-! ### Sealing (R183, R185, R201, R204) -/

/-- A BILLING_DETERMINANT record (R203). -/
def determinantRec (s : State) (stamp : Nat) (d : Determinant) : Rec :=
  let f := flag 4 (!d.adjust.isEmpty) + flag 5 (encodingFlags d != 0)
  { slotRec s d.slot 5 (BitVec.ofNat 8 f) d.lastAsn stamp (leafOf d) with eui := d.eui, local_ := d.flags &&& localMask }

/-- A LEDGER_ENTRY record (R203). -/
def entryRec (s : State) (flags : Nat) (e : Entry) : Rec :=
  { seq := 0, ring := s.led.ring, type := 7, flags := BitVec.ofNat 8 flags, slot := 0, shard := none, epoch := 0,
    asn := e.number, stamp := e.sealedAt, eui := 0#64, local_ := 0#16, payload := e.bytes }

/-- The entry of a period. -/
def entryOf (s : State) (period : Nat) : Option Entry := s.led.entries.find? fun e => e.period == period

/-- A period has been sealed: its record and notice (R191). -/
def saySealed (period : Nat) (s : State) : State :=
  report 0x8004 kPlan (period / 2 ^ 26) (le 4 period) 0x0806 3 (period / 2 ^ 26) (le 4 period) s

/-- Step 7: the LEDGER_ENTRY record with the outcome of the comparison, the notice and the record (R201). -/
def endSealing (period flags : Nat) (s : State) : State :=
  match entryOf s period with
  | none => s
  | some e =>
    saySealed period (commitRec (entryRec s flags e) (commit (s.onLed fun l =>
      { l with sealings := l.sealings.filter fun g => g.period != period, cutoffs := Tbl.del l.cutoffs period,
               roots := Tbl.del l.roots period })))

/-- The comparison with the partner's root once both are known (R204). -/
def compareRoots (period : Nat) (s : State) : State :=
  match entryOf s period, Tbl.get s.led.roots period with
  | some e, some (root, leaves, adjusts) =>
    if e.root = root ∧ e.leaves = leaves ∧ e.adjusts = adjusts then endSealing period 0x10 s
    else
      let s1 := endSealing period 0x20 (report 0x8011 kPlan (period / 2 ^ 26) (le 4 period) 0x0901 0 0 (le 4 period) s)
      let h := hashesOf e.leafBytes
      zToPartner zShardRoots (le 4 period ++ (List.range 256).flatMap fun k => hashBytes (shardRoot h k)) s1
  | _, _ => s

/-- Energies of a table keyed t * 4 + q, by quantity under one tariff. -/
def underTariff (l : Tbl Nat) (t : Nat) : List Int := (List.range 4).map fun q => ((Tbl.getD l (t * 4 + q) 0 : Nat) : Int)

/-- The windows of a slot's closed period computed again from the records up to its cutoff: those its marks end, in order (R179, R185). -/
def recomputeClosed (n : Nat) (d : Determinant) (s : State) : State :=
  let x := slot s n
  let t := d.end_ * nsPerS
  let ends := ((endsOf s x t ++ cutsOf s x).filter fun e => decide (d.start * nsPerS < e) && decide (e ≤ t)).mergeSort.dedup
  if hasDemand s x (slotRule s x t) then ends.foldl (fun u e => (windowsAt u x e).foldl (fun v w => computeWindow n w v) u) s else s

/-- A slot's determinant goes back to what it held before the first booking above the slot's cutoff, whether the period was open or
closed then; what was booked since, all of it above the cutoff too, is adjustment, its flags those of the open period, and the windows
are those of the records up to the cutoff (R185, R186). -/
def moveAbove (period : Nat) (s : State) (c : Nat × Nat) : State :=
  match s.tar.store.find? fun d => d.slot == c.1 && d.period == period with
  | none => s
  | some d =>
    match d.undo.find? fun u => decide (c.2 < u.asn) with
    | none => s
    | some u =>
      let more (t : Nat) : List Int := ((underTariff d.e t).zip (underTariff u.e t)).map fun p => p.1 - p.2
      let less (t : Nat) : List Int := (more t).map fun e => -e
      let fl := (d.undo.filter fun b => decide (c.2 < b.asn)).foldl (fun f b => f ||| b.fl) 0#16
      let s1 := (List.range 8).foldl (fun v t => addClosed c.1 period 0 t 0#16 (less t) v) s
      let s2 := modDet c.1 period (fun d =>
        { d with e := u.e, maxima := u.maxima, flags := u.flags, firstAsn := u.firstAsn, lastAsn := u.lastAsn,
                 undo := [], hashed := false }) s1
      let s3 := recomputeClosed c.1 d (modSlot c.1 (fun y => { y with bill := { y.bill with flags := y.bill.flags ||| fl } }) s2)
      (List.range 8).foldl (fun v t => if (more t).all (· == 0) then v else adjustBook c.1 period t (more t) v) s3

/-- Steps 1 to 6 of a sealing (R201), once the records above the cutoff have left the period (R185). -/
def commitSealing (g : Sealing) (s0 : State) : State :=
  let s := (g.cutoff.getD []).foldl (moveAbove g.period) s0
  let ds := determinantsOf s g.period
  let e := sealedEntry s g
  let paired := s.pair.record.isSome
  let s1 := trngStep (s.onLed fun l =>
    { l with entries := e :: l.entries, last := e.number, chain := chainHash e.bytes, lastKey := ledgerKeyId s,
             sealings := l.sealings.map fun x =>
               if x.period = g.period then { x with committed := true, waitEnd := tb7 s + 600 * nsPerS } else x })
  let s2 := commit (s1.onTar fun t => { t with store := t.store.filter fun d => !sealsHere s g.period d })
  let s3 := ds.foldl (fun t d => commitRec (determinantRec s e.sealedAt d) t) s2
  if paired then
    compareRoots g.period (zToPartner zRoot (le 4 g.period ++ hashBytes e.root ++ le 4 e.leaves ++ le 4 e.adjusts) s3)
  else endSealing g.period 0 s3

/-- Every slot of the cutoff vector has been accepted up to its cutoff (R185). -/
def cutoffReached (s : State) (g : Sealing) : Bool :=
  match g.cutoff with
  | some l => l.all fun c => !inUse s c.1 || decide (c.2 ≤ (slot s c.1).asn)
  | none => false

/-- A sealing may proceed: the ledger key is there, and nothing is waited for (R185, R245). -/
def sealingReady (s : State) (g : Sealing) : Bool := (keyAt s 1).isSome && (g.waitEnd == 0 || cutoffReached s g)

/-- The next sealing, if it may proceed, is performed; one that waits for the partner's root ends first, so that periods are sealed
one at a time (R201). -/
def sealNext (s : State) : State :=
  match if s.led.sealings.any fun g => g.committed then none else s.led.sealings.head? with
  | some g => if sealingReady s g then commitSealing g s else s
  | none => s

/-- The parts of a cutoff vector as the holder sends them (R296). -/
def cutoffParts (period : Nat) (v : List (Nat × Nat)) : List Bytes :=
  let n := max 1 (ceilDiv v.length 128)
  (List.range n).map fun i =>
    le 4 period ++ le 2 i ++ le 2 n ++ ((v.drop (128 * i)).take 128).flatMap fun p => le 4 p.1 ++ le 8 p.2

/-- The cutoff vector received whole (R185). -/
def cutoffWhole (s : State) (period : Nat) : Option (List (Nat × Nat)) :=
  match Tbl.get s.led.cutoffs period with
  | some (n, got, l) => if (List.range n).all fun i => decide (i ∈ got) then some l else none
  | none => none

/-- A sealing begins in core role: the holder fixes and sends the cutoff vector, the other device waits for it (R185). -/
def beginSealing (period : Nat) (span : Nat × Nat) (s : State) : State :=
  let vec := (determinantsOf s period).map fun d => (d.slot, (slot s d.slot).asn)
  let alone := s.pair.record.isNone
  let g : Sealing :=
    { period, span, cutoff := if alone then none else if s.pair.holder then some vec else cutoffWhole s period,
      waitEnd := if alone || s.pair.holder then 0 else tb7 s + 600 * nsPerS, committed := false }
  let s1 := s.onLed fun l =>
    { l with sealings := (l.sealings.takeWhile fun x => x.committed || decide (x.period < period)) ++ [g]
               ++ l.sealings.dropWhile fun x => x.committed || decide (x.period < period) }
  if ¬ alone ∧ s.pair.holder then (cutoffParts period vec).foldl (fun t b => zToPartner zCutoff b t) s1 else s1

/-- TB7 at which the grace of a plan's oldest ended period ends (R183). -/
def graceEnd (ps : PlanState) : Option Nat := ps.closing.head?.map fun c => c.2.1 + ps.plan.grace * nsHour

/-- A plan's oldest ended period is sealed at its SEAL mark: the slots roll past it; in field role its determinants are freed, of
whatever shard (R183, R192). -/
def sealPlan (p : Nat) (s : State) : State :=
  match (planAt s p).bind fun ps => ps.closing.head? with
  | none => s
  | some (num, _, start, end_) =>
    let period := periodId p num
    let s1 := modPlan p (fun x => { x with closing := x.closing.drop 1, sealed_ := x.sealed_ ++ [(num, start, end_)] }) s
    let s2 := rollAll (slotsOfPlan s1 p) s1
    if s.dev.core then beginSealing period (start, end_) s2
    else saySealed period (s2.onTar fun t => { t with store := t.store.filter fun d => d.period != period })

/-- The SEAL mark of a plan's oldest ended period, once TB7 has passed the grace since its PERIOD_END's creation: marks TB3
has reached come first, and one mark stands for every plan whose grace ends at the same instant (R174, R183). -/
def sealMarkCreate (p : Nat) (s : State) : State :=
  match (planAt s p).bind graceEnd with
  | none => s
  | some t =>
    if s.dev.waitTb3 ∨ tb7 s < t then s
    else
      let s0 := match s.tim.zone with
        | some z => if marksMayRise s then markUpTo z (tb2s s) (markFuel s) s else s
        | none => s
      let due := (planList everyone s).filter fun q => graceEnd q.2 == some t
      let num := match due.head? with | some q => periodId q.1 ((q.2.closing.head?.map Prod.fst).getD 0) | none => 0
      (due.map Prod.fst).foldl (fun u q => sealPlan q u) (createMark mkSeal (tb2 s) (due.map Prod.fst) 0 0#16 num s0)

/-- 600 s without reaching the cutoff: the device seals with what it has accepted (R185). -/
def cutoffTimeout (s : State) : State :=
  s.onLed fun l => { l with sealings := l.sealings.map fun g =>
    if ¬ g.committed ∧ g.waitEnd ≠ 0 ∧ g.waitEnd ≤ tb7 s then { g with waitEnd := 0 } else g }

/-- 600 s without the partner's root: PARTNER_ABSENT (R204). -/
def rootTimeout (s : State) : State :=
  let late := s.led.sealings.filter fun g => g.committed && decide (g.waitEnd ≤ tb7 s)
  late.foldl (fun t g => endSealing g.period 0x40 (post 0x0902 1 0 (le 4 g.period) t)) s

/-- Leaves of closed, unsealed determinants are encoded and hashed ahead (R202). -/
def prebuild (slots : List Nat) (s : State) : State :=
  guarded s.dev.core (fun t => t.onTar fun x =>
    { x with store := x.store.map fun d => if d.slot ∈ slots ∧ ownerRuns s d.slot then { d with hashed := true } else d }) s

/-! ### The partner's messages (R185, R204, R298), of which no other sender's counts -/

/-- A CUTOFF message: a part of the holder's vector. -/
def cutoffMessage (m : ZMsg) (s : State) : State :=
  if ¬ fromPartner s m then s else
  let period := field m.body 0 4
  let part := field m.body 4 2
  let n := field m.body 6 2
  let l := (List.range ((m.body.length - 8) / 12)).map fun i => (field m.body (8 + 12 * i) 4 % 2 ^ 20, field m.body (12 + 12 * i) 8)
  let s1 := s.onLed fun x =>
    let old := Tbl.getD x.cutoffs period (n, [], [])
    { x with cutoffs := Tbl.put x.cutoffs period (if part ∈ old.2.1 then old else (n, old.2.1 ++ [part], old.2.2 ++ l)) }
  match cutoffWhole s1 period with
  | some v => s1.onLed fun x => { x with sealings := x.sealings.map fun g =>
      if g.period = period ∧ ¬ g.committed ∧ g.cutoff.isNone then { g with cutoff := some v } else g }
  | none => s1

/-- A hash in a message. -/
def hashAt (b : Bytes) (o : Nat) : Hash := BitVec.ofNat 256 (field b o 32)

/-- A ROOT message: compared when this device's entry is committed, else kept until it is. -/
def rootMessage (m : ZMsg) (s : State) : State :=
  if ¬ fromPartner s m then s else
  let period := field m.body 0 4
  let s1 := s.onLed fun x => { x with roots := Tbl.put x.roots period (hashAt m.body 4, field m.body 36 4, field m.body 40 4) }
  match s.led.sealings.find? fun g => g.period == period with
  | some g => if g.committed then compareRoots period s1 else s1
  | none => if (entryOf s period).isSome then s else s1

/-- The LEAF_HASHES frames of a shard: 16 of 256 hashes. -/
def leafHashFrames (period k : Nat) (l : List (Nat × Hash)) : List Bytes :=
  (List.range 16).map fun i =>
    le 4 period ++ le 1 k ++ zeros 1 ++ le 2 (256 * i) ++ le 2 256 ++ zeros 2
      ++ (List.range 256).flatMap fun j => hashBytes (treeNode 0 (l.filter fun p => p.1 == k * 4096 + 256 * i + j))

/-- A SHARD_ROOTS message: the leaf hashes of the first four shards whose roots differ are sent. -/
def shardRootsMessage (m : ZMsg) (s : State) : State :=
  if ¬ fromPartner s m then s else
  let period := field m.body 0 4
  match entryOf s period with
  | none => s
  | some e =>
    let h := hashesOf e.leafBytes
    let differ := ((List.range 256).filter fun k => shardRoot h k != hashAt m.body (4 + 32 * k)).take 4
    (differ.flatMap fun k => leafHashFrames period k h).foldl (fun t b => zToPartner zLeafHashes b t) s

/-- A LEAF_HASHES message: one LEDGER_LEAF_MISMATCH per differing slot, at most 64 per period (R204). -/
def leafHashesMessage (m : ZMsg) (s : State) : State :=
  if ¬ fromPartner s m then s else
  let period := field m.body 0 4
  let first := field m.body 4 1 * 4096 + field m.body 6 2
  match entryOf s period with
  | none => s
  | some e =>
    let h := hashesOf e.leafBytes
    let differ := (List.range (min 256 (field m.body 8 2))).filter fun j =>
      treeNode 0 (h.filter fun p => p.1 == first + j) != hashAt m.body (12 + 32 * j)
    let room := 64 - Tbl.getD s.led.mismatches period 0
    let l := differ.take room
    let s1 := l.foldl (fun t j => yew 0x8012 kSlot (first + j) (le 4 period) t) s
    s1.onLed fun x => { x with mismatches := Tbl.put x.mismatches period (Tbl.getD x.mismatches period 0 + l.length) }

/-! ### The ledger group (R406) -/

/-- A ledger key generated inside (R200). -/
def newLedgerKey (s : State) : Key :=
  let k := trngBytes 32 s
  { use := 6, alg := 4, origin := 0, factory := false, label := 0, key := k, pub := slice (Config.publicOf k) 0 1793,
    created := createdNow s }

/-- A ledger key enters slot 1 and is measured; with an entry signed under another key the change is recorded (R200, R245,
R257). -/
def installLedgerKey (old : DWord) (s : State) : Reply × State :=
  let k := newLedgerKey s
  let id := le 8 (keyId k.pub).toNat
  let s1 := extend 4 id (trngStep (putKey 1 k s))
  let s2 := if old = 0#64 then s1 else yew 0x3031 kDevice 0 (le 8 old.toNat ++ id) s1
  (.result id, judgeVault s2)

def ledgerKeyCreateDef : CmdDef :=
  { opcode := 0x0501, role := fun _ => .secur
    state := fun s _ => orFail (keyAt s 1).isNone stStateConflict
    res := fun s _ => needsTrng s
    objects := fun _ _ => [(4, 1)]
    act := fun _ s => installLedgerKey s.led.lastKey s }

def ledgerKeyRotateDef : CmdDef :=
  { opcode := 0x0502, role := fun _ => .signed
    state := fun s _ => orFail (keyAt s 1).isSome stStateConflict
    res := fun s _ => orElse s.led.sealings.isEmpty stBusy (needsTrng s)
    objects := fun _ _ => [(4, 1)]
    act := fun _ s => installLedgerKey (ledgerKeyId s) s }

/-- An inclusion proof (R205). -/
def proofBytes (s : State) (e : Entry) (n : Nat) : Bytes :=
  let h := hashesOf e.leafBytes
  let leaf := Tbl.getD e.leafBytes n []
  le 1 1 ++ le 1 (leaf.length / 256) ++ zeros 2 ++ le 4 n ++ le 4 e.period ++ le 4 s.dev.deviceId.toNat
    ++ ((List.range 20).flatMap fun i => hashBytes (sibling h n i)) ++ e.bytes ++ leaf

/-- The leaves of an entry are retained: its period lies within the ledger retention (R205, R206). -/
def leavesHeld (s : State) (e : Entry) : Bool := !passed s e.end_ s.led.retention && (e.leaves == 0 || !e.leafBytes.isEmpty)

/-- A period whose SEAL mark has not been rolled: not ended, or ended and not yet sealed (R205). -/
def notSealed (s : State) (period : Nat) : Bool :=
  match planAt s (period / 2 ^ 26) with
  | some ps => !(ps.sealed_.any fun c => c.1 == period % 2 ^ 26) || (s.led.sealings.any fun g => g.period == period && !g.committed)
  | none => true

def ledgerProofDef : CmdDef :=
  { tokenRead 0x0503 (fun s c => match entryOf s (c.arg 0 4) with | some e => proofBytes s e (c.arg 4 4 % 2 ^ 20) | none => []) with
    args := fun s c =>
      orFail (notSealed s (c.arg 0 4) || (match entryOf s (c.arg 0 4) with | some e => leavesHeld s e | none => false)) stOutOfRange
    state := fun s c => orFail (!notSealed s (c.arg 0 4)) stStateConflict }

def ledgerEntryReadDef : CmdDef :=
  { tokenRead 0x0504 (fun s c => match s.led.entries.find? fun e => e.number == c.arg 0 8 with | some e => e.bytes | none => []) with
    args := fun s c => orFail (s.led.entries.any fun e => e.number == c.arg 0 8) stOutOfRange }

def ledgerRetentionSetDef : CmdDef :=
  { opcode := 0x0505, role := fun _ => .oper
    args := fun _ c => orFail (decide (62 ≤ c.arg 0 2) && decide (c.arg 0 2 ≤ 1100)) stOutOfRange
    res := fun s c => orFail (Config.ledgerHolds (rawCapacity s) (c.arg 0 2)) stNoResource
    objects := fun _ _ => [(8, 2)]
    act := fun c s => (.result [], s.onLed fun l => { l with retention := c.arg 0 2 }) }

def ledgerStatusDef : CmdDef :=
  inlineRead 0x0506 fun s _ =>
    le 8 s.led.last ++ le 4 (match s.led.entries.head? with | some e => e.period | none => 0) ++ le 1 s.led.sealings.length
      ++ le 2 s.led.retention ++ le 1 s.led.ring

def ledgerRingSetDef : CmdDef :=
  { opcode := 0x0507, role := fun _ => .oper
    args := fun _ c => orFail (decide (c.arg 0 1 ≤ 15)) stOutOfRange
    objects := fun _ _ => [(8, 2)]
    act := fun c s => (.result [], s.onLed fun l => { l with ring := c.arg 0 1 }) }

/-! ### The meanings -/

def execLedgerKeyCreate (d : Desc) (s : State) : Host.Outcome State Fault Refusal := runCmd ledgerKeyCreateDef (.ledgerKeyCreate d) d s
def execLedgerKeyRotate (d : Desc) (s : State) : Host.Outcome State Fault Refusal := runCmd ledgerKeyRotateDef (.ledgerKeyRotate d) d s
def execLedgerProof (d : Desc) (s : State) : Host.Outcome State Fault Refusal := runCmd ledgerProofDef (.ledgerProof d) d s
def execLedgerEntryRead (d : Desc) (s : State) : Host.Outcome State Fault Refusal := runCmd ledgerEntryReadDef (.ledgerEntryRead d) d s
def execLedgerRetentionSet (d : Desc) (s : State) : Host.Outcome State Fault Refusal := runCmd ledgerRetentionSetDef (.ledgerRetentionSet d) d s
def execLedgerStatus (d : Desc) (s : State) : Host.Outcome State Fault Refusal := runCmd ledgerStatusDef (.ledgerStatus d) d s
def execLedgerRingSet (d : Desc) (s : State) : Host.Outcome State Fault Refusal := runCmd ledgerRingSetDef (.ledgerRingSet d) d s
def execSealMarkCreate (p : Nat) (s : State) : Host.Outcome State Fault Refusal := whileRunning (sealMarkCreate p) s
def execSealing (s : State) : Host.Outcome State Fault Refusal := whileRunning sealNext s
def execCutoffWaitTimeout (s : State) : Host.Outcome State Fault Refusal := whileRunning cutoffTimeout s
def execPartnerRootTimeout (s : State) : Host.Outcome State Fault Refusal := whileRunning rootTimeout s
def execLedgerPrebuild (slots : List Nat) (s : State) : Host.Outcome State Fault Refusal := whileRunning (prebuild slots) s
def execZoryenCutoff (z : ZorRx) (s : State) : Host.Outcome State Fault Refusal := whileRunning (zReceive zCutoff z cutoffMessage) s
def execZoryenRoot (z : ZorRx) (s : State) : Host.Outcome State Fault Refusal := whileRunning (zReceive zRoot z rootMessage) s
def execZoryenShardRoots (z : ZorRx) (s : State) : Host.Outcome State Fault Refusal := whileRunning (zReceive zShardRoots z shardRootsMessage) s
def execZoryenLeafHashes (z : ZorRx) (s : State) : Host.Outcome State Fault Refusal := whileRunning (zReceive zLeafHashes z leafHashesMessage) s

end Sys2Proof.Machine
end

