-- ==== Sys2Proof/Machine/TariffCmds.lean ====
section
/-!
DEFINITION. The tariffs and billing group, and what happens to plans and slots as time passes (R167 to R177, R405).
-/

namespace Sys2Proof.Machine

/-! ### Plans -/

/-- A plan is loaded: a new one starts its first period, with no schedule yet; one that slots use changes its demand and period fields
from its next PERIOD_END, its grace and clock-shift limit at once; slots that named it before join it (R167, R168; assumption
log 13). -/
def loadPlan (b : Bytes) (s : State) : State :=
  let p := field b 0 1
  match planAt s p with
  | some _ =>
    if ¬ s.met.slots.any (fun x => x.2.plan == p) then modPlan p (fun x => { x with plan := planOf b, nextPlan := none }) s
    else modPlan p (fun x =>
      { x with nextPlan := some (planOf b), plan := { x.plan with grace := (planOf b).grace, shift := (planOf b).shift } }) s
  | none =>
    let now := if tb3Valid s then tb2s s else 0
    let s1 := s.onTar fun t => { t with plans := Tbl.put t.plans p { plan := planOf b, start := now, issued := [now, now, now] } }
    sayNoSchedule p ((slotsOfPlan s1 p).foldl (fun u n => joinPlan n u) s1)

/-- A sealing of a plan is in progress. -/
def sealingOf (s : State) (p : Nat) : Bool := s.led.sealings.any fun g => g.period / 2 ^ 26 == p

def planLoadDef : CmdDef :=
  { opcode := 0x0401, role := fun _ => .oper
    lenOk := fun _ _ n => n == 32
    args := fun _ c => orFail (planOk c.payload) stBadArgument
    state := fun s _ => orFail (!s.dev.core || (keyAt s 1).isSome) stStateConflict
    objects := fun _ c => [(3, field c.payload 0 1)]
    waits := fun s c => sealingOf s (field c.payload 0 1)
    act := fun c s => (.result [], loadPlan c.payload s) }

/-! ### Switch lists and calendars -/

/-- A list enters as its plan's passive list (R170). -/
def useList (b : Bytes) (s : State) : State := modPlan (field b 4 1) (fun x => { x with passive := some (switchListOf b) }) s

/-- A calendar enters, to take effect at its activation (R172). -/
def useCalendar (b : Bytes) (s : State) : State := modPlan (field b 4 1) (fun x => { x with nextCalendar := some (calendarOf b) }) s

/-- The list's plan is loaded, and its ID is serially greater than that of the active list (R169). -/
def listIdOk (s : State) (b : Bytes) : Bool :=
  match planAt s (field b 4 1) with
  | none => false
  | some x => match x.active with
    | none => true
    | some l => serialAfter32 (BitVec.ofNat 32 (field b 0 4)) l.id

/-- An activation instant is at least 60 s after TB2 (R169). -/
def minuteAhead (s : State) (activation : Nat) : Bool :=
  decide (s.tim.tb2 + 60 * nsPerS * nsUnit ≤ activation * nsPerS * nsUnit)

/-- The mirrored item of a loaded record (R304): subkind, then the record. -/
def recordItem (sub : Nat) (b : Bytes) : Bytes := le 1 sub ++ zeros 3 ++ b

def switchListLoadDef : CmdDef :=
  { opcode := 0x0402, role := fun _ => .signed
    lenOk := fun s d n => decide (32 ≤ n) && n == 32 + 8 * field (payloadOf s d) 6 2
    args := fun s c =>
      orElse (switchListOk c.payload && listIdOk s c.payload) stBadArgument
        (orFail (minuteAhead s (field c.payload 8 6)) stOutOfRange)
    objects := fun _ c => [(3, field c.payload 4 1)]
    act := fun c s => mirrorCmd 5 (recordItem 0 c.payload) c [] (useList c.payload) s }

def calendarLoadDef : CmdDef :=
  { opcode := 0x0403, role := fun _ => .signed
    lenOk := fun _ _ n => n == 4320
    args := fun s c =>
      orElse (calendarOk c.payload && (planAt s (field c.payload 4 1)).isSome) stBadArgument
        (orFail (minuteAhead s (field c.payload 10 6)) stOutOfRange)
    objects := fun _ c => [(3, field c.payload 4 1)]
    act := fun c s => mirrorCmd 5 (recordItem 1 c.payload) c [] (useCalendar c.payload) s }

/-- Something passive of a kind is held: 0 a list, 1 a calendar. -/
def passiveHeld (s : State) (p kind : Nat) : Bool :=
  match planAt s p with
  | some x => if kind = 0 then x.passive.isSome else x.nextCalendar.isSome
  | none => false

def passiveDiscardDef : CmdDef :=
  { opcode := 0x0404, role := fun _ => .signed
    lenOk := fun _ _ n => n == 4
    args := fun _ c => orElse (decide (c.arg 0 1 < 64)) stOutOfRange (orFail (decide (c.arg 1 1 ≤ 1)) stBadArgument)
    state := fun s c => orFail (passiveHeld s (c.arg 0 1) (c.arg 1 1)) stStateConflict
    objects := fun _ c => [(3, c.arg 0 1)]
    act := fun c s =>
      (.result [], modPlan (c.arg 0 1) (fun x =>
        if c.arg 1 1 = 0 then { x with passive := none } else { x with nextCalendar := none }) s) }

/-! ### Reads -/

/-- The source of a plan's tariff: 0 list, 1 calendar, 2 none (R168, R405). -/
def sourceOf (x : PlanState) : Nat :=
  if x.active.isSome ∧ ¬ x.fallback then 0 else if x.calendar.isSome then 1 else 2

/-- SCHEDULE_STATUS's result. -/
def scheduleBytes (s : State) (p : Nat) : Bytes :=
  match planAt s p with
  | none => zeros 12 ++ le 1 2 ++ zeros 5
  | some x =>
    le 4 (match x.active with | some l => l.id.toNat | none => 0) ++ le 4 (match x.passive with | some l => l.id.toNat | none => 0)
      ++ le 4 (match x.calendar with | some c => c.id.toNat | none => 0) ++ le 1 (sourceOf x) ++ le 1 (x.tariff.getD 0)
      ++ le 4 (periodId p x.period)

def scheduleStatusDef : CmdDef :=
  { inlineRead 0x0405 (fun s c => scheduleBytes s (c.arg 0 1)) with
    args := fun _ c => orFail (decide (c.arg 0 1 < 64)) stOutOfRange }

/-- A slot's closed, unsealed determinant. -/
def storedDet (s : State) (n period : Nat) : Option Determinant :=
  s.tar.store.find? fun d => d.slot == n && d.period == period && !sealedForGood s period

/-- A period of a plan has been sealed. -/
def periodSealed (s : State) (period : Nat) : Bool :=
  match planAt s (period / 2 ^ 26) with
  | some x => x.sealed_.any fun c => c.1 == period % 2 ^ 26
  | none => false

def determinantReadDef : CmdDef :=
  { tokenRead 0x0406 (fun s c => match storedDet s c.slotArg (c.arg 4 4) with | some d => determinantBytes d | none => []) with
    args := fun s c => slotExists s c
      (orFail ((storedDet s c.slotArg (c.arg 4 4)).isSome || periodSealed s (c.arg 4 4)) stOutOfRange)
    state := fun s c => orFail (storedDet s c.slotArg (c.arg 4 4)).isSome stStateConflict }

/-- A boundary mark, 48 B (R174). -/
def markBytes (m : Mark) : Bytes :=
  le 8 m.index ++ stampNs m.due ++ le 12 (stamp96 m.created) ++ le 8 m.plans.toNat ++ le 1 m.kind ++ le 1 m.tariff ++ le 2 m.flags.toNat
    ++ le 4 m.period

def marksReadDef : CmdDef :=
  { tokenRead 0x0407 (fun s c => ((s.tar.marks.filter fun m => decide (c.arg 0 8 ≤ m.index)).take (c.arg 8 2)).flatMap markBytes) with
    args := fun s c =>
      orFail (decide (1 ≤ c.arg 8 2) && decide (c.arg 8 2 ≤ 1024) && (s.tar.marks.any fun m => m.index == c.arg 0 8)) stOutOfRange }

/-! ### What time brings -/

/-- Marks up to the instant at which a plan's schedule changes hands, once TB3 has reached it. -/
def reachHand (inst : PlanState → Option Nat) (p : Nat) (s : State) : State :=
  match s.tim.zone, (planAt s p).bind inst with
  | some z, some t => if marksMayRise s = true ∧ t ≤ tb2s s then markUpTo z t (markFuel s) (startPlans s) else s
  | _, _ => s

/-- A passive list's activation is reached (R170). -/
def listActivation (p : Nat) (s : State) : State := reachHand (fun x => x.passive.map fun l => l.activation) p s

/-- A loaded calendar's activation is reached (R172). -/
def calendarActivation (p : Nat) (s : State) : State := reachHand (fun x => x.nextCalendar.map fun c => c.activation) p s

/-- The active list's end of coverage is reached with no successor (R171). -/
def calendarFallback (p : Nat) (s : State) : State := reachHand fallbackInstant p s

/-- A slice of the sweep rolls slots past outstanding marks (R177). -/
def boundarySweep (slots : List Nat) (s : State) : State :=
  rollAll (slots.filter fun n => inUse s n && decide ((shard s (shardOf n)).state = .held) && ownerRuns s n) s

/-- A background activity falls behind, or is back within its bound (R25). -/
def activityLate (row : Nat) (late : Bool) (s : State) : State :=
  if s.dev.late.getLsbD row = late then s
  else
    let s1 := s.onDev fun d =>
      { d with late := if late then d.late ||| BitVec.ofNat 32 (2 ^ row) else d.late &&& ~~~ BitVec.ofNat 32 (2 ^ row) }
    report (Config.lateYew % 65536) kDevice 0 (le 1 row) (Config.lateNotice % 65536) 3 0 (le 1 row) s1

/-! ### The meanings -/

def execPlanLoad (d : Desc) (s : State) : Host.Outcome State Fault Refusal := runCmd planLoadDef (.planLoad d) d s
def execSwitchListLoad (d : Desc) (s : State) : Host.Outcome State Fault Refusal := runCmd switchListLoadDef (.switchListLoad d) d s
def execCalendarLoad (d : Desc) (s : State) : Host.Outcome State Fault Refusal := runCmd calendarLoadDef (.calendarLoad d) d s
def execPassiveDiscard (d : Desc) (s : State) : Host.Outcome State Fault Refusal := runCmd passiveDiscardDef (.passiveDiscard d) d s
def execScheduleStatus (d : Desc) (s : State) : Host.Outcome State Fault Refusal := runCmd scheduleStatusDef (.scheduleStatus d) d s
def execDeterminantRead (d : Desc) (s : State) : Host.Outcome State Fault Refusal := runCmd determinantReadDef (.determinantRead d) d s
def execMarksRead (d : Desc) (s : State) : Host.Outcome State Fault Refusal := runCmd marksReadDef (.marksRead d) d s
def execBoundaryMarkCreate (s : State) : Host.Outcome State Fault Refusal := whileRunning boundaryMarkCreate s
def execListActivation (p : Nat) (s : State) : Host.Outcome State Fault Refusal := whileRunning (listActivation p) s
def execCalendarActivation (p : Nat) (s : State) : Host.Outcome State Fault Refusal := whileRunning (calendarActivation p) s
def execCalendarFallback (p : Nat) (s : State) : Host.Outcome State Fault Refusal := whileRunning (calendarFallback p) s
def execBoundarySweep (slots : List Nat) (s : State) : Host.Outcome State Fault Refusal := whileRunning (boundarySweep slots) s
def execBackgroundActivityLate (row : Nat) (late : Bool) (s : State) : Host.Outcome State Fault Refusal := whileRunning (activityLate row late) s

end Sys2Proof.Machine
end

