-- ==== Sys2Proof/Machine/LossTheft.lean ====
section
/-!
DEFINITION. Tamper scores and alarms, balance groups, the detector, attribution, topology and the loss and theft group
(R207 to R223, R407).
-/

namespace Sys2Proof.Machine

/-! ### Shape estimates (R159) -/

/-- The capture period of a slot's layout; 0 while none is loaded. -/
def captureOf (s : State) (n : Nat) : Nat := match Tbl.get s.met.layouts (slot s n).layout with | some l => l.capture | none => 0

/-- The place of an interval end in its legal day. -/
def dayIndex (z : Zone) (end_ capture : Nat) : Nat := (legalS z (end_ - 1) % 86400) / max 1 capture

/-- The estimate of method 2: daily mean × weight ÷ sum of weights, half to even (R159). -/
def shapeEstimate (z : Zone) (x : Slot) (q end_ capture : Nat) : Nat :=
  let w := Tbl.getD x.valid.shape q []
  (halfEven (((Tbl.getD x.valid.mean q 0 : Nat) : Int) * w.getD (dayIndex z end_ capture) 0) (max 1 w.sum)).toNat

/-- The rules of a slot's rule set. -/
def slotRules (s : State) (n : Nat) : List Rule := Tbl.getD s.met.ruleSets (slot s n).ruleSet []

/-- The ESTIMATE rules of a slot's set, in rule order (R159). -/
def estimateRules (s : State) (n : Nat) : List Rule := (slotRules s n).filter fun r => r.type == 11

/-! ### EVENT records (R162) -/

/-- The slot's opened records are exported (R161). -/
def exportsOpened (s : State) (n : Nat) : Bool :=
  s.dev.core || ((shard s (shardOf n)).exportOpened && !(shard s (shardOf n)).transparent)

/-- An EVENT entry, 32 B; its time in units of 10^-12 ns. -/
def eventEntry (origin score code cls time : Nat) (data : Bytes) : Bytes :=
  le 1 origin ++ le 1 score ++ le 2 code ++ le 2 cls ++ zeros 2 ++ le 12 (stamp96 time) ++ slice data 0 12

/-- The head of 16 B that counts entries. -/
def countHead (n : Nat) : Bytes := le 2 n ++ zeros 14

/-- What a record carries from the frame or the moment it belongs to: ASN, header timestamp and ACCEPTED. -/
structure Source where
  /-- ASN. -/
  asn : Nat
  /-- Timestamp in units of 10^-12 ns. -/
  stamp : Nat
  /-- ACCEPTED (R49). -/
  accepted : Bool
  deriving DecidableEq, Repr

/-- A record of no frame: the slot's high-water ASN, TB2, ACCEPTED clear. -/
def noFrame (s : State) (n : Nat) : Source := { asn := (slot s n).asn, stamp := s.tim.tb2, accepted := false }

/-- The device holds a shard, so that its records carry the epoch of the device (R19): one that is only INCOMING has none here yet. -/
def recordsShard (s : State) (k : Nat) : Bool := (shard s k).state != .incoming && (shard s k).state != .unheld

/-- An EVENT record of a slot of a shard the device holds. -/
def eventRec (n : Nat) (src : Source) (inferred : Bool) (entries : List Bytes) (s : State) : State :=
  if exportsOpened s n && recordsShard s (shardOf n) then
    commitRec (slotRec s n 4 (BitVec.ofNat 8 (flag 0 src.accepted + flag 4 inferred)) src.asn src.stamp
      (countHead entries.length ++ entries.flatten)) s
  else s

/-! ### Tamper (R217, R218, R223) -/

/-- Tamper kinds. -/
def tkReversed : Nat := 0
def tkBypass : Nat := 1
def tkNeutral : Nat := 2

/-- An alarm changes: its record, its notice within 64 an hour, and an EVENT record with the origin that decided it. -/
def tamperChange (n k : Nat) (set : Bool) (src : Source) (origin : Nat) (s : State) : State :=
  let x := slot s n
  let score := combined x.loss k
  let code := if set then 0x4001 else 0x4002
  let data := le 1 k ++ le 1 score
  let bit : BitVec 4 := BitVec.ofNat 4 (2 ^ k)
  let turned (l : LossSlot) : LossSlot := { l with alarms := if set then l.alarms ||| bit else l.alarms &&& ~~~ bit }
  let s1 := modSlot n (fun y => { y with loss := turned y.loss }) s
  let s2 := hourly (limitKey 0x4001 0) 64
    (report code kSlot n data (if set then 0x0A01 else 0x0A02) (if set then 1 else 3) n data) s1
  eventRec n src (origin == 3) [eventEntry origin (if origin = 3 then score else 0) 0 code src.stamp data] s2

/-- The alarms of a slot follow its scores; `meter` is the origin of the meter event that changed them, if one did: it decides the
clearing that follows it, and the setting where its score is the larger (R223). -/
def judgeTamper (n : Nat) (src : Source) (meter : Option Nat) (s : State) : State :=
  (List.range 4).foldl (fun t k =>
    let l := (slot t n).loss
    let c := combined l k
    let on := l.alarms.getLsbD k
    let origin := match meter with
      | some o => if on ∨ c = l.reported.getD k 0 then o else 3
      | none => 3
    if ¬ on ∧ t.lt.params.set ≤ c then tamperChange n k true src origin t
    else if on ∧ c ≤ t.lt.params.clear then tamperChange n k false src origin t
    else t) s

/-- An inferred score is set, and the alarms follow. -/
def setInferred (n k v : Nat) (src : Source) (s : State) : State :=
  judgeTamper n src none (modSlot n (fun y => { y with loss := { y.loss with inferred := y.loss.inferred.set k v } }) s)

/-- A meter event meets the tamper map: an entry's code sets its kind's score, a clear code sets it to 0 (R218). -/
def meterTamper (n code origin : Nat) (src : Source) (s : State) : State :=
  let hit := s.lt.tamperMap.filter fun e => e.1 == code || (e.2.2.2 != 0 && e.2.2.2 == code)
  if hit.isEmpty then s
  else
    judgeTamper n src (some origin) (hit.foldl (fun t e =>
      modSlot n (fun y => { y with loss := { y.loss with
        reported := y.loss.reported.set e.2.1 (if e.1 = code then e.2.2.1 else 0) } }) t) s)

/-- The record of a slot for an interval end. -/
def recordAt (s : State) (n end_ : Nat) : Option Interval := (slot s n).ring.find? fun r => r.end_ == end_ && r.method == 0

/-- A group. -/
def group (s : State) (g : Nat) : Option Group := Tbl.get s.lt.groups g

/-- A group changed. -/
def modGroup (g : Nat) (f : Group → Group) (s : State) : State := s.onLt fun l => { l with groups := Tbl.mod l.groups g f }

/-- A flag of a group. -/
def gEnabled (g : Group) : Bool := g.flags.getLsbD 0
def gForeignRef (g : Group) : Bool := g.flags.getLsbD 1
def gForeignMem (g : Group) : Bool := g.flags.getLsbD 2
def gContributor (g : Group) : Bool := g.flags.getLsbD 3
def gNegative (g : Group) : Bool := g.flags.getLsbD 4

/-- The group has a resident reference. -/
def gHasRef (g : Group) : Bool := !gForeignRef g && !gContributor g

/-- The reference's record of a slot's group for an interval end. -/
def referenceAt (s : State) (x : Slot) (end_ : Nat) : Option Interval :=
  match x.loss.member.bind fun g => group s g with
  | some g => if gHasRef g then recordAt s g.reference end_ else none
  | none => none

/-- The lower median of a list. -/
def lowerMedian (l : List Nat) : Nat := (l.mergeSort).getD ((l.length - 1) / 2) 0

/-- `a` lies within `pct` per cent of `b`. -/
def within (a b pct : Nat) : Bool := decide ((if a ≤ b then b - a else a - b) * 100 ≤ pct * b)

/-- A meter of three phases: so loaded, or of unknown phase with voltage on L2 and L3. -/
def threePhase (x : Slot) (v : List Nat) : Bool :=
  x.loss.phase == 4 || (x.loss.phase == 0 && v.getD 1 0 != 0 && v.getD 2 0 != 0)

/-- The evidence for a missing neutral in a measured record (table Inferred tamper). -/
def neutralEvidence (s : State) (n : Nat) (r : Interval) : Bool :=
  let x := slot s n
  let v (i : Nat) : Nat := r.v.getD i 0
  if threePhase x r.v then
    let spread := max (v 0) (max (v 1) (v 2)) - min (v 0) (min (v 1) (v 2))
    decide (s.lt.params.nd < v 3) ||
      (decide (s.lt.params.spread < spread) && match referenceAt s x r.end_ with
        | some q => within (v 0 + v 1 + v 2) (q.v.getD 0 0 + q.v.getD 1 0 + q.v.getD 2 0) 5
        | none => false)
  else if 1 ≤ x.loss.phase ∧ x.loss.phase ≤ 3 then
    match referenceAt s x r.end_, x.loss.member.bind fun g => group s g with
    | some q, some g =>
      let vr := q.v.getD (x.loss.phase - 1) 0
      let others := (g.members.filter fun m => m.1 != n && m.2.1 == x.loss.phase).filterMap fun m =>
        (recordAt s m.1 r.end_).map fun z => z.v.getD 0 0
      !within (v 0) vr 15 && !others.isEmpty && within (lowerMedian others) vr 3
    | _, _ => false
  else false

/-- The number of bits set. -/
def popcount (b : BitVec 96) : Nat := ((List.range 96).filter fun i => b.getLsbD i).length

/-- Tamper inference from one measured interval record (R218). -/
def inferTamper (n : Nat) (r : Interval) (src : Source) (s : State) : State :=
  let x := slot s n
  let marked := decide (s.lt.params.revMin < r.e.getD 1 0) && !x.generating
  let rev := (x.loss.reverse <<< 1) ||| (if marked then 1#96 else 0#96)
  let c := if neutralEvidence s n r then min 8 (x.loss.neutral + 1) else x.loss.neutral - 1
  let s1 := modSlot n (fun y => { y with loss := { y.loss with
    reverse := rev, neutral := c
    inferred := (y.loss.inferred.set tkReversed (halfEven (255 * popcount rev) 96).toNat).set tkNeutral (min 255 (32 * c)) } }) s
  judgeTamper n src none s1

/-! ### Accumulators (R209) -/

/-- The group interval that holds an interval end. -/
def groupEnd (z : Zone) (g : Group) (end_ : Nat) : Nat := nextAligned z (end_ - 1) g.p

/-- An empty accumulator. -/
def emptyAccum (end_ : Nat) : Accum :=
  { end_, measured := [], estimated := [], reference := [], disturbed := false, foreign := (none, none), residual := none,
    revised := false, revisedAt := none }

/-- The accumulator of an interval end. -/
def accumOf (g : Group) (end_ : Nat) : Accum := (g.ring.find? fun a => a.end_ == end_).getD (emptyAccum end_)

/-- An accumulator put back, latest first: the 128 group intervals up to the latest (R209). -/
def putAccum (g : Group) (a : Accum) : Group :=
  let l := (g.ring.filter fun x => decide (a.end_ < x.end_)) ++ [a] ++ g.ring.filter fun x => decide (x.end_ < a.end_)
  { g with ring := l.filter fun x => decide ((l.head?.map fun y => y.end_).getD 0 ≤ x.end_ + 127 * g.p) }

/-- An interval end lies before the oldest accumulator interval. -/
def tooOld (g : Group) (end_ : Nat) : Bool :=
  match g.ring.head? with
  | some a => decide (end_ + 127 * g.p < a.end_)
  | none => false

/-- An interval that was evaluated is marked REVISED when its accumulator changes (R213). -/
def touched (a : Accum) : Accum := if a.done then { a with revised := true } else a

/-- A record of a member or of the reference reaches the group (R209). -/
def addRecord (z : Zone) (n : Nat) (r : Interval) (asRef : Bool) (g : Group) : Group :=
  let end_ := groupEnd z g r.end_
  if tooOld g end_ then { g with late := true }
  else
    let a := accumOf g end_
    let net : Int := if r.flags.getLsbD 0 then 0 else (r.e.getD 0 0 : Int) - r.e.getD 1 0
    let est := r.method != 0
    let a1 :=
      if asRef then
        { a with reference := (a.reference.filter fun q => !(q.1 == r.end_ && (q.2.2.2.2 || est))) ++
            [(r.end_, net, r.v.take 3, r.flags.getLsbD 0, est)] }
      else if est then { a with estimated := a.estimated ++ [(n, r.end_, net)] }
      else { a with measured := a.measured ++ [(n, r.end_, net)],
                    estimated := a.estimated.filter fun q => !(q.1 == n && q.2.1 == r.end_) }
    putAccum g (touched { a1 with disturbed := a1.disturbed || r.flags.getLsbD 2 || r.flags.getLsbD 3 })

/-- The enabled group a slot is a member of, unless excluded, and the one it is the reference of, changed alike. -/
def onGroupsOf (n : Nat) (f : Bool → Group → Group) (s : State) : State :=
  let x := slot s n
  let s1 := match x.loss.member with
    | some g => modGroup g (fun h => if gEnabled h && (h.members.any fun m => m.1 == n && !m.2.2) then f false h else h) s
    | none => s
  match x.loss.reference with
  | some g => modGroup g (fun h => if gEnabled h && gHasRef h && h.reference == n then f true h else h) s1
  | none => s1

/-- A booked or estimated record reaches the group its slot is a member of, unless excluded, and the group it is the
reference of. -/
def feedGroups (n : Nat) (r : Interval) (s : State) : State :=
  match s.tim.zone with
  | none => s
  | some z => onGroupsOf n (addRecord z n r) s

/-- A measured record of a member or of the reference leaves the group: it is about to come back as its parts (R166, R212). -/
def dropRecord (z : Zone) (n : Nat) (r : Interval) (asRef : Bool) (g : Group) : Group :=
  let end_ := groupEnd z g r.end_
  if tooOld g end_ then g
  else
    let a := accumOf g end_
    putAccum g (if asRef then { a with reference := a.reference.filter fun q => !(q.1 == r.end_ && !q.2.2.2.2) }
      else { a with measured := a.measured.filter fun q => !(q.1 == n && q.2.1 == r.end_) })

/-- Records booked whole that a meter clock shift splits reach their groups again as their PARTIAL parts (R166, R190, R212). -/
def regroup (n : Nat) (recs : List (Interval × List Interval)) (s : State) : State :=
  match s.tim.zone with
  | none => s
  | some z =>
    recs.foldl (fun t q => q.2.foldl (fun u h => feedGroups n h u) (onGroupsOf n (dropRecord z n q.1) t)) s

/-! ### The balance (R210 to R214) -/

/-- Every interval end of a capture period that the group interval holds is among the ends given; an inserted or omitted second
moves one by at most a second (R155, R209). -/
def endsMet (p cap end_ : Nat) (ends : List Nat) : Bool :=
  cap != 0 && p % cap == 0 &&
    (List.range (p / cap)).all fun i => ends.any fun e => decide (e + i * cap ≤ end_ + 1) && decide (end_ ≤ e + i * cap + 1)

/-- How a member stands in an interval: 0 measured, 1 estimated, 2 missing. -/
def memberStand (s : State) (g : Group) (a : Accum) (n : Nat) : Nat :=
  let meas := (a.measured.filter fun q => q.1 == n).map fun q => q.2.1
  let est := (a.estimated.filter fun q => q.1 == n).map fun q => q.2.1
  if ¬ inUse s n then 2
  else if endsMet g.p (captureOf s n) a.end_ meas then 0
  else if endsMet g.p (captureOf s n) a.end_ (meas ++ est) then 1 else 2

/-- Members that are not excluded. -/
def activeMembers (g : Group) : List Nat := (g.members.filter fun m => !m.2.2).map Prod.fst

/-- Members measured, estimated and missing. -/
def memberCounts (s : State) (g : Group) (a : Accum) : Nat × Nat × Nat :=
  let l := (activeMembers g).map (memberStand s g a)
  (l.count 0, l.count 1, l.count 2)

/-- The reference's records cover the interval; counted with or without estimates. -/
def refCovered (s : State) (g : Group) (a : Accum) (withEst : Bool) : Bool :=
  endsMet g.p (captureOf s g.reference) a.end_ ((a.reference.filter fun q => withEst || !q.2.2.2.2).map Prod.fst)

/-- Everything the interval waits for is there (R210). -/
def accumComplete (s : State) (g : Group) (a : Accum) : Bool :=
  (memberCounts s g a).1 == (activeMembers g).length
    && (gContributor g || (if gForeignRef g then a.foreign.2.isSome else refCovered s g a false))
    && (!gForeignMem g || a.foreign.1.isSome)

/-- Something has reached the interval. -/
def accumFed (a : Accum) : Bool := a.measured != [] || a.reference != [] || a.foreign != (none, none)

/-- The result code of an evaluation, tested in the order of its table (R212). -/
def resultCode (s : State) (g : Group) (a : Accum) : Nat :=
  let (_, est, miss) := memberCounts s g a
  let m := (activeMembers g).length
  if gHasRef g && (a.reference.any fun q => q.2.2.2.1) then 5
  else if gHasRef g ∧ ¬ refCovered s g a true then 3
  else if (gForeignRef g && !gContributor g && a.foreign.2.isNone) || (gForeignMem g && a.foreign.1.isNone) then 4
  else if a.disturbed then 6
  else if s.lt.params.missing * m < 100 * miss ∨ s.lt.params.est * m < 100 * est then 2
  else if est ≠ 0 then 1 else 0

/-- The net energy of the members, of the reference and of the foreign members. -/
def eMem (a : Accum) : Int := (a.measured.map fun q => q.2.2).sum + (a.estimated.map fun q => q.2.2).sum
def eRef (g : Group) (a : Accum) : Int := if gForeignRef g then a.foreign.2.getD 0 else (a.reference.map fun q => q.2.1).sum
def eFor (a : Accum) : Int := a.foreign.1.getD 0

/-- The technical loss: V is the reference's voltage sum over its phases, a mean over its measured records (R211). -/
def lossOfGroup (g : Group) (a : Accum) : Int :=
  let l := a.reference.filter fun q => !q.2.2.2.2
  let c := l.length
  let sum := (l.map fun q => (q.2.2.1.take g.phases).sum).sum
  if sum = 0 then halfEven ((g.a : Int) * g.p) 3600
  else
    halfEven ((g.a : Int) * g.p * 1000 * g.p * sum ^ 2 + (g.b : Int) * g.phases * (eRef g a * 36000) ^ 2 * c ^ 2)
      (3600000 * g.p * sum ^ 2)

/-- The residual and its per-mille (R211). -/
def residualOf (g : Group) (a : Accum) : Int := eRef g a - eMem a - eFor a - lossOfGroup g a
def perMille (s : State) (g : Group) (a : Accum) : Int :=
  max (-1000) (min 1000 (halfEven (residualOf g a * 1000) (max (eRef g a).natAbs s.lt.params.eFloor)))

/-- The allowance and threshold in force (R208, R215). -/
def kOf (s : State) (g : Group) : Int := if g.k = 0 then s.lt.params.k else g.k
def hOf (s : State) (g : Group) : Int := if g.h = 0 then s.lt.params.h else g.h

/-- One CUSUM step (R214). -/
def cusum (sum x k : Int) : Int := min 2147483647 (max 0 (sum + x - k))

/-- The detector after a result that feeds it (R214). -/
def detect (s : State) (x : Int) (end_ : Nat) (g : Group) : Group :=
  let p := cusum g.sPos x (kOf s g)
  let m := cusum g.sNeg (-x) (kOf s g)
  { g with
    sPos := p, sNeg := m
    onset := if g.sPos = 0 ∧ p ≠ 0 then end_ else g.onset
    alarmPos := decide (hOf s g < p) || (g.alarmPos && decide (p ≠ 0))
    alarmNeg := gNegative g && (decide (hOf s g < m) || (g.alarmNeg && decide (m ≠ 0))) }

/-- The slot whose header a group's records carry (R222). -/
def groupSlot (g : Group) : Nat :=
  if gHasRef g then g.reference else (g.members.map Prod.fst).foldl min (2 ^ 20 - 1)

/-- The head of a balance result. -/
def balanceHead (s : State) (g : Group) (a : Accum) (id kind code : Nat) : Bytes :=
  let (m, e, x) := memberCounts s g a
  le 1 kind ++ le 1 code ++ le 2 id ++ le 2 (activeMembers g).length ++ le 2 m ++ le 2 e ++ le 2 x ++ zeros 4

/-- A BALANCE_RESULT record, stamped in units of 10^-12 ns (R222). -/
def balanceRec (n : Nat) (flags stamp : Nat) (payload : Bytes) (s : State) : State :=
  commitRec (slotRec s n 6 (BitVec.ofNat 8 flags) (slot s n).asn stamp payload) (commit s)

/-- The body of an INTERVAL result. -/
def intervalBody (s : State) (g : Group) (a : Accum) : Bytes :=
  le 6 a.end_ ++ le 2 g.p ++ le 8 (unsigned 8 (eRef g a)) ++ le 8 (unsigned 8 (eMem a)) ++ le 8 (unsigned 8 (eFor a))
    ++ le 8 (unsigned 8 (lossOfGroup g a)) ++ le 8 (unsigned 8 (residualOf g a)) ++ le 4 (unsigned 4 (perMille s g a))
    ++ le 4 (unsigned 4 g.sPos) ++ le 4 (unsigned 4 g.sNeg) ++ le 1 (flag 0 g.alarmPos + flag 1 g.alarmNeg) ++ zeros 3

/-- The body of a PARTIAL result. -/
def partialBody (g : Group) (a : Accum) : Bytes := le 6 a.end_ ++ le 2 g.p ++ le 8 (unsigned 8 (eMem a)) ++ zeros 8

/-- Members no longer resident are recorded once per group per day (R223). -/
def sayAbsent (id : Nat) (g : Group) (s : State) : State :=
  if (activeMembers g).all fun n => inUse s n then s
  else limited (limitKey 0x4021 id) nsDay (report 0x4021 kGroup id (le 2 id) 0x0A05 2 id (le 2 id)) s

/-! ### Attribution (R216) -/

/-- Pearson correlation of two series in signed Q15, truncated; 0 where a series does not vary. -/
def pearson (x y : List Int) : Int :=
  let n : Int := x.length
  let sxy := n * ((x.zip y).map fun p => p.1 * p.2).sum - x.sum * y.sum
  let sxx := n * (x.map fun a => a * a).sum - x.sum * x.sum
  let syy := n * (y.map fun a => a * a).sum - y.sum * y.sum
  if sxx ≤ 0 ∨ syy ≤ 0 then 0
  else
    let q : Int := min 32767 (Nat.sqrt ((sxy * sxy * 2 ^ 30 / (sxx * syy)).toNat))
    if sxy < 0 then -q else q

/-- A member's energy in a group interval: measured, else estimated, if any. -/
def memberEnergy (a : Accum) (n : Nat) : Option Int :=
  let l := (a.measured.filter fun q => q.1 == n) ++ a.estimated.filter fun q => q.1 == n
  if l.isEmpty then none else some (l.map fun q => q.2.2).sum

/-- The shape expectation of a member for a group interval. -/
def shapeExpected (s : State) (z : Zone) (g : Group) (n end_ : Nat) : Int :=
  let cap := max 1 (captureOf s n)
  ((List.range (g.p / cap)).map fun i =>
    let e := end_ - i * cap
    (shapeEstimate z (slot s n) 0 e cap : Int) - shapeEstimate z (slot s n) 1 e cap).sum

/-- The deficit of a member beside the residual, over interval ends, the window before onset given; an interval the ring no longer
holds, one with no residual and one without the member's energy are left out (assumption log 19). -/
def deficits (s : State) (z : Zone) (g : Group) (n : Nat) (before ends : List Nat) : List (Int × Int) :=
  let prior := before.filterMap fun e => memberEnergy (accumOf g e) n
  let mean := halfEven prior.sum (max 1 prior.length)
  ends.filterMap fun e =>
    match memberEnergy (accumOf g e) n, (accumOf g e).residual with
    | some m, some r => some ((if estimateRules s n ≠ [] then shapeExpected s z g n e else mean) - m, r)
    | _, _ => none

/-- A member's score: slot, score, correlation, sum of deficits. -/
structure Score where
  slot : Nat
  score : Nat
  rho : Int
  sum : Int
  deriving DecidableEq, Repr

/-- The score of a member (R216). -/
def scoreOf (s : State) (z : Zone) (g : Group) (before during : List Nat) (n : Nat) : Score :=
  let all := deficits s z g n before (before ++ during)
  let rho := pearson (all.map Prod.fst) (all.map Prod.snd)
  let sd := ((deficits s z g n before during).map Prod.fst).sum
  let sr := (during.map fun e => (accumOf g e).residual.getD 0).sum
  let (num, den) : Int × Int := if sr < 0 then (-sd, -sr) else (sd, sr)
  let share := if den = 0 then 0 else min den (max 0 num)
  { slot := n, score := (halfEven (255 * max 0 rho * share) (32768 * max 1 den.natAbs)).toNat, rho, sum := sd }

/-- Scores in descending order, ties to the lower slot. -/
def ranked (l : List Score) : List Score :=
  l.mergeSort fun a b => decide (b.score < a.score) || (a.score == b.score && decide (a.slot ≤ b.slot))

/-- Attribution of a group's residual; one before TOPO_MINUTE leaves the day's own to come (R216). -/
def attribute_ (id : Nat) (s : State) : State :=
  match s.tim.zone, group s id with
  | some z, some g =>
    let n := max 4 (min 96 ((g.evaluated - g.onset) / max 1 g.p + 1))
    let during := ((List.range n).map fun i => g.evaluated - i * g.p).reverse
    let before := ((List.range n).map fun i => g.onset - (i + 1) * g.p).reverse
    let scores := (activeMembers g).map (scoreOf s z g before during)
    let top := (ranked (scores.filter fun x => decide (s.lt.params.attribMin ≤ x.score))).take 8
    let a := accumOf g g.evaluated
    let body := le 6 g.onset ++ le 6 g.evaluated ++ le 8 (unsigned 8 (during.map fun e => (accumOf g e).residual.getD 0).sum)
      ++ le 1 top.length ++ zeros 3
      ++ top.flatMap fun x => le 4 x.slot ++ le 1 x.score ++ zeros 1 ++ le 2 (unsigned 2 x.rho) ++ le 8 (unsigned 8 x.sum)
    let s1 := balanceRec (groupSlot g) 0 (g.evaluated * nsPerS * nsUnit) (balanceHead s g a id 2 0 ++ body) s
    let s2 := scores.foldl (fun t x => setInferred x.slot tkBypass x.score (noFrame t x.slot) t) s1
    let now := legalS z (tb2s s)
    modGroup id (fun h => { h with attributed := if s.lt.params.minute ≤ now % 86400 / 60 then now / 86400 else now / 86400 - 1 }) s2
  | _, _ => s

/-- The BYPASS scores of a group's members fall to 0 (R216). -/
def dropBypass (g : Group) (s : State) : State :=
  (activeMembers g).foldl (fun t n => setInferred n tkBypass 0 (noFrame t n) t) s

/-- The events of the alarms that changed (R214, R223). -/
def alarmEvents (id : Nat) (old new : Group) (s : State) : State :=
  let d := le 6 new.onset ++ le 4 (unsigned 4 new.sPos)
  let s1 := if new.alarmPos && !old.alarmPos then
      attribute_ id (report 0x4010 kGroup id (le 2 id ++ d) 0x0A03 1 id (le 2 id ++ le 4 (unsigned 4 new.sPos)) s)
    else if old.alarmPos && !new.alarmPos then dropBypass new (report 0x4011 kGroup id (le 2 id) 0x0A03 3 id (le 2 id) s) else s
  if new.alarmNeg && !old.alarmNeg then report 0x4012 kGroup id (le 2 id ++ le 4 (unsigned 4 new.sNeg)) 0x0A03 2 id (le 2 id) s1
  else if old.alarmNeg && !new.alarmNeg then report 0x4011 kGroup id (le 2 id) 0x0A03 3 id (le 2 id) s1 else s1

/-- REVISED results of intervals evaluated before, at most once an hour each (R213). -/
def exportRevised (id : Nat) (s : State) : State :=
  match group s id with
  | none => s
  | some g =>
    (g.ring.filter fun a => a.revised && (match a.revisedAt with | some t => decide (t + nsHour ≤ tb6 s) | none => true)).foldl
      (fun t a =>
        let body := if gContributor g then balanceHead t g a id 1 (resultCode t g a) ++ partialBody g a
          else balanceHead t g a id 0 (resultCode t g a) ++ intervalBody t g a
        modGroup id (fun h => putAccum h { a with revised := false, revisedAt := some (tb6 t), residual := some (residualOf g a) })
          (balanceRec (groupSlot g) 0x20 (a.end_ * nsPerS * nsUnit) body t)) s

/-- The next interval end to evaluate. -/
def nextEvaluation (z : Zone) (g : Group) : Option Nat :=
  if g.evaluated = 0 then (g.ring.getLast?).map fun a => a.end_ else some (nextAligned z g.evaluated g.p)

/-- One evaluation of a group's next interval, when it is complete or BAL_WAIT has passed (R210 to R214). -/
def balanceEvaluate (id : Nat) (s : State) : State :=
  match s.tim.zone, group s id with
  | some z, some g =>
    match (if gEnabled g then nextEvaluation z g else none) with
    | none => s
    | some e =>
      let a := accumOf g e
      let waited := tb3Valid s && decide (e + s.lt.params.balWait ≤ tb2s s)
      if ¬ (ownerRuns s (groupSlot g) && (accumFed a && accumComplete s g a || waited)) then s
      else
        let s0 := exportRevised id (sayAbsent id g s)
        let g0 := (group s0 id).getD g
        let code := resultCode s0 g0 a
        let late := flag 6 g0.late
        if gContributor g0 then
          modGroup id (fun h => { putAccum h { a with residual := none, done := true } with evaluated := e, result := code, late := false })
            (balanceRec (groupSlot g0) late (e * nsPerS * nsUnit) (balanceHead s0 g0 a id 1 code ++ partialBody g0 a) s0)
        else
          let g1 := if code ≤ 1 then detect s0 (perMille s0 g0 a) e g0 else g0
          let g2 := { putAccum g1 { a with residual := some (residualOf g0 a), done := true } with evaluated := e, result := code, late := false }
          let changed := g1.alarmPos != g0.alarmPos || g1.alarmNeg != g0.alarmNeg
          let s1 := modGroup id (fun _ => g2) s0
          let s2 := balanceRec (groupSlot g0) (flag 4 changed + late) (e * nsPerS * nsUnit)
            (balanceHead s1 g2 a id 0 code ++ intervalBody s1 g2 a) s1
          alarmEvents id g0 g2 s2
  | _, _ => s

/-- TOPO_MINUTE of the present legal day has come, on a day not yet done. -/
def dailyDue (s : State) (z : Zone) (done : Nat) : Bool :=
  let l := legalS z (tb2s s)
  tb3Valid s && decide (done < l / 86400) && decide (s.lt.params.minute ≤ l % 86400 / 60)

/-- A standing positive alarm is attributed again each legal day (R216). -/
def dailyAttribution (id : Nat) (s : State) : State :=
  match s.tim.zone, group s id with
  | some z, some g => if g.alarmPos && dailyDue s z g.attributed && ownerRuns s (groupSlot g) then attribute_ id s else s
  | _, _ => s

/-! ### Topology (R220, R221) -/

/-- The 240 records of 5 min that end at an instant, oldest first; none unless all are there and carry voltage. -/
def profile (s : State) (n end_ : Nat) : Option (List (List Nat)) :=
  if captureOf s n ≠ 300 ∨ ¬ inUse s n then none
  else
    let l := (List.range 240).map fun i => recordAt s n (end_ - (239 - i) * 300)
    if (l.all fun r => match r with | some x => x.v.any fun v => v != 0 | none => false) then
      some (l.filterMap fun r => r.map fun x => x.v)
    else none

/-- The latest legal multiple of 5 min up to an instant: a profile ends at interval ends (R155, R220). -/
def profileEnd (z : Zone) (at_ : Nat) : Nat := at_ - legalS z at_ % 300

/-- One phase of a profile. -/
def phaseSeries (p : List (List Nat)) (i : Nat) : List Int := p.map fun v => (v.getD i 0 : Int)

/-- Groups whose references a member is compared with: its own, then up to seven others, those under the same feeder group
first, then those of its shard (assumption log 19). -/
def candidates (s : State) (n own : Nat) : List Nat :=
  let refs := s.lt.groups.filter fun g => g.1 != own && gHasRef g.2 && inUse s g.2.reference
  let feeder := match group s own with | some g => (slot s g.reference).loss.member | none => none
  let near := refs.filter fun g => feeder.isSome && (slot s g.2.reference).loss.member == feeder
  let mine := refs.filter fun g => shardOf g.2.reference == shardOf n
  own :: (((near ++ mine).map Prod.fst).dedup.take 7)

/-- The correlation of a member with a candidate group and phase. -/
def correlate (m r : List (List Nat)) (three : Bool) (phase : Nat) : Int :=
  if three then
    ((List.range 3).map fun i => pearson (phaseSeries m i) (phaseSeries r i)).sum / 3
  else pearson (phaseSeries m 0) (phaseSeries r (phase - 1))

/-- Every candidate of a member with its correlation: group, phase, correlation. -/
def correlations (s : State) (n own end_ : Nat) : List (Nat × Nat × Int) :=
  match profile s n end_ with
  | none => []
  | some m =>
    let three := m.all (threePhase (slot s n))
    (candidates s n own).flatMap fun g =>
      match (group s g).bind fun x => if gHasRef x then profile s x.reference end_ else none with
      | none => []
      | some r => (if three then [4] else [1, 2, 3]).map fun p => (g, p, correlate m r three p)

/-- A member's day: its best candidate enters the history, and a proposal is made where R221 allows one. -/
def topologyMember (n own end_ : Nat) (s : State) : State :=
  let l := correlations s n own end_
  match l.foldl (fun (b : Option (Nat × Nat × Int)) x => match b with
      | none => some x
      | some y => if y.2.2 < x.2.2 then some x else some y) none with
  | none => s
  | some (bg, bp, br) =>
    let x := slot s n
    let hist := ((bg, bp) :: x.loss.topology).take 14
    let agreed := (hist.takeWhile fun h => h == (bg, bp)).length
    let current := match l.find? fun c => c.1 == own && c.2.1 == x.loss.phase with | some c => c.2.2 | none => 0
    let s1 := modSlot n (fun y => { y with loss := { y.loss with topology := hist } }) s
    if s.lt.params.days ≤ agreed ∧ (s.lt.params.rho : Int) ≤ br ∧ current + s.lt.params.margin ≤ br ∧ x.loss.proposal.isNone
        ∧ (bg, bp) ≠ (own, x.loss.phase) then
      let conf := max 0 (min 255 (halfEven (255 * (br - current) * 2) 32768)).toNat
      let head := match group s own with
        | some g => balanceHead s g (accumOf g g.evaluated) own 3 0
        | none => le 1 3 ++ zeros 1 ++ le 2 own ++ zeros 12
      let body := head ++ le 2 own ++ le 1 x.loss.phase ++ le 1 bp ++ le 2 bg ++ le 2 (unsigned 2 current) ++ le 2 (unsigned 2 br)
        ++ le 1 conf ++ le 1 agreed ++ zeros 4
      let s2 := modSlot n (fun y => { y with loss := { y.loss with proposal := some (bg, bp) } }) s1
      let s3 := balanceRec n 0 s.tim.tb2 body s2
      report 0x4020 kSlot n (le 2 bg ++ le 1 bp) 0x0A04 3 n (le 2 bg ++ le 1 bp) s3
    else s1

/-- The daily topology run (R220). -/
def topologyRun (s : State) : State :=
  match s.tim.zone with
  | none => s
  | some z =>
    if ¬ (dailyDue s z s.lt.topoDay && s.lt.groups.all fun g => g.2.members.all fun m => ownerRuns s m.1) then s
    else
      let l := legalS z (tb2s s)
      let end_ := profileEnd z (taiOfLegal z ((l / 86400 * 86400 + s.lt.params.minute * 60 : Nat) : Int) none)
      let s1 := s.onLt fun t => { t with topoDay := l / 86400 }
      (s.lt.groups.flatMap fun g => (g.2.members.map fun m => (m.1, g.1))).foldl (fun t m => topologyMember m.1 m.2 end_ t) s1

/-! ### The loss and theft group (R407) -/

/-- A group record's members. -/
def membersOf (b : Bytes) : List (Nat × Nat × Bool) :=
  (List.range (field b 10 2)).map fun i =>
    (field b (32 + 8 * i) 4 % 2 ^ 20, field b (36 + 8 * i) 1, field b (37 + 8 * i) 1 % 2 == 1)

/-- A group as its record spells it, its detector at 0. -/
def groupOf (b : Bytes) : Group :=
  { flags := BitVec.ofNat 16 (field b 2 2 % 32), reference := field b 4 4 % 2 ^ 20, phases := field b 8 1, members := membersOf b,
    a := field b 12 4, b := field b 16 4, k := field b 20 2, h := field b 22 2, p := field b 24 4, ring := [], evaluated := 0,
    result := 0, sPos := 0, sNeg := 0, alarmPos := false, alarmNeg := false, onset := 0, late := false, attributed := 0 }

/-- The fields of a group record are in range (R208). -/
def groupOk (b : Bytes) : Bool :=
  let g := groupOf b
  (g.phases == 1 || g.phases == 3) && decide (1 ≤ g.members.length) && decide (g.a ≤ 1000000) && decide (g.b ≤ 1000000)
    && decide (g.k ≤ 500) && decide (g.h ≤ 30000) && decide (g.p ∈ [300, 900, 1800, 3600])
    && g.members.all fun m => decide (m.2.1 ≤ 4)

/-- The shard of a slot is held. -/
def shardHeld (s : State) (n : Nat) : Bool := shardExists s (shardOf n) && decide ((shard s (shardOf n)).state = .held)

/-- Everything of a group that is not foreign lies in held shards (R208). -/
def groupResident (s : State) (g : Group) : Bool :=
  (!gHasRef g || shardHeld s g.reference) && g.members.all fun m => shardHeld s m.1

/-- A group keeps the limits of R207: no member of another group, no reference of another, no member in a transparent
shard. -/
def groupFree (s : State) (id : Nat) (g : Group) : Bool :=
  let others := s.lt.groups.filter fun o => o.1 != id
  (g.members.all fun m => !(shard s (shardOf m.1)).transparent && others.all fun o => o.2.members.all fun q => q.1 != m.1)
    && (!gHasRef g || others.all fun o => !(gHasRef o.2 && o.2.reference == g.reference))
    && (g.members.map Prod.fst).Nodup

/-- A slot's loss state once a group it may belong to is gone: a member's phase, flags and proposal go with it. -/
def leftGroup (id : Nat) (l : LossSlot) : LossSlot :=
  let l1 := if l.reference = some id then { l with reference := none } else l
  if l.member = some id then { l1 with member := none, phase := 0, excluded := false, proposal := none } else l1

/-- A group leaves: its alarm clears without a record, its members' BYPASS scores fall to 0, and its members and reference no
longer name it (R216). -/
def leaveGroup (id : Nat) (s : State) : State :=
  let s1 := match group s id with
    | some g => if g.alarmPos then dropBypass g s else s
    | none => s
  s1.onMet fun m => { m with slots := Tbl.mapVals m.slots fun _ x => { x with loss := leftGroup id x.loss } }

/-- A group is loaded with a fresh detector; a proposal it matches closes, and another closes with its history
(R207, R221). -/
def loadGroup (id : Nat) (g : Group) (s : State) : State :=
  let start := match s.tim.zone with | some z => if tb3Valid s then nextAligned z (tb2s s) g.p - g.p else 0 | none => 0
  let s1 := leaveGroup id s
  let kept (m : Nat × Nat × Bool) : Bool :=
    let p := (slot s m.1).loss.proposal
    p == none || p == some (id, m.2.1)
  let s2 := g.members.foldl (fun t m => modSlot m.1 (fun x =>
    { x with loss := { x.loss with
        member := some id, phase := m.2.1, excluded := m.2.2, proposal := none
        topology := if kept m then x.loss.topology else [] } }) t) s1
  let s3 := if gHasRef g then modSlot g.reference (fun x => { x with loss := { x.loss with reference := some id } }) s2 else s2
  s3.onLt fun l => { l with groups := Tbl.put l.groups id { g with evaluated := start } }

def groupLoadDef : CmdDef :=
  { opcode := 0x0601, role := fun _ => .oper
    lenOk := fun s d n => decide (32 ≤ n) && n == 32 + 8 * field (payloadOf s d) 10 2
    args := fun s c =>
      orElse (groupOk c.payload) stBadArgument (orFail (groupResident s (groupOf c.payload)) stOutOfRange)
    state := fun s c => orFail (groupFree s (field c.payload 0 2) (groupOf c.payload)) stStateConflict
    objects := fun _ c => [(7, field c.payload 0 2)]
    act := fun c s => (.result [], loadGroup (field c.payload 0 2) (groupOf c.payload) s) }

def groupRemoveDef : CmdDef :=
  { opcode := 0x0602, role := fun _ => .oper
    state := fun s c => orFail (group s (c.arg 0 2)).isSome stStateConflict
    objects := fun _ c => [(7, c.arg 0 2)]
    act := fun c s => (.result [], (leaveGroup (c.arg 0 2) s).onLt fun l => { l with groups := Tbl.del l.groups (c.arg 0 2) }) }

/-- Loss and theft parameters as their record spells them. -/
def ltParamsOf (b : Bytes) : LtParams :=
  { balWait := field b 0 4, eFloor := field b 4 4, k := field b 8 2, h := field b 10 2, missing := field b 12 1, est := field b 13 1,
    attribMin := field b 14 1, set := field b 15 1, clear := field b 16 1, revMin := field b 18 2, nd := field b 20 2,
    spread := field b 22 2, rho := field b 24 2, margin := field b 26 2, days := field b 28 1, minute := field b 30 2 }

/-- The ranges of R215. -/
def ltParamsOk (p : LtParams) : Bool :=
  let inR (lo x hi : Nat) : Bool := decide (lo ≤ x) && decide (x ≤ hi)
  inR 300 p.balWait 86400 && inR 1 p.eFloor 1000000 && inR 1 p.k 500 && inR 1 p.h 30000 && inR 0 p.missing 50 && inR 0 p.est 50
    && inR 1 p.attribMin 255 && inR 1 p.set 255 && decide (p.clear < p.set) && inR 1 p.revMin 65535 && inR 1 p.nd 4000
    && inR 1 p.spread 4000 && inR 16384 p.rho 32767 && inR 1 p.margin 16384 && inR 1 p.days 14 && inR 0 p.minute 1439

def ltParamsLoadDef : CmdDef :=
  { opcode := 0x0603, role := fun _ => .oper
    lenOk := fun _ _ n => n == 64
    args := fun _ c => orFail (ltParamsOk (ltParamsOf c.payload)) stBadArgument
    objects := fun _ _ => [(8, 3)]
    act := fun c s => (.result [], s.onLt fun l => { l with params := ltParamsOf c.payload }) }

/-- The interval end of a partial sum is a multiple of P and within the accumulator ring. -/
def sumEndOk (s : State) (c : Ctx) : Bool :=
  match group s (c.arg 0 2), s.tim.zone with
  | some g, some z => legalS z (c.arg 4 6) % max 1 g.p == 0 && !tooOld g (c.arg 4 6)
  | some g, none => c.arg 4 6 % max 1 g.p == 0 && !tooOld g (c.arg 4 6)
  | none, _ => true

/-- The group has a foreign part of the kind a partial sum stands for. -/
def sumWanted (s : State) (c : Ctx) : Bool :=
  match group s (c.arg 0 2) with
  | some g => if c.arg 2 1 % 2 = 1 then gForeignRef g else gForeignMem g
  | none => false

def partialSumDef : CmdDef :=
  { opcode := 0x0604, role := fun _ => .oper
    args := fun s c => orFail (sumEndOk s c) stOutOfRange
    state := fun s c => orFail (sumWanted s c) stStateConflict
    objects := fun _ c => [(7, c.arg 0 2)]
    act := fun c s =>
      (.result [], modGroup (c.arg 0 2) (fun g =>
        let a := accumOf g (c.arg 4 6)
        let v := some (fieldS c.args 12 8)
        putAccum g (touched { a with foreign := if c.arg 2 1 % 2 = 1 then (a.foreign.1, v) else (v, a.foreign.2) })) s) }

def detectorResetDef : CmdDef :=
  { opcode := 0x0605, role := fun _ => .secur
    state := fun s c => orFail (group s (c.arg 0 2)).isSome stStateConflict
    objects := fun _ c => [(7, c.arg 0 2)]
    act := fun c s =>
      let id := c.arg 0 2
      match group s id with
      | none => (.result [], s)
      | some g =>
        let s1 := modGroup id (fun h => { h with sPos := 0, sNeg := 0, alarmPos := false, alarmNeg := false }) s
        let s2 := if g.alarmPos then dropBypass g s1 else s1
        (.result [], yew 0x4013 kGroup id (le 2 id) s2) }

/-- The tamper map as its payload spells it: code, kind, score, clear code. -/
def tamperMapOf (b : Bytes) : List (Nat × Nat × Nat × Nat) :=
  (List.range (b.length / 8)).map fun i => (field b (8 * i) 2, field b (8 * i + 2) 1, field b (8 * i + 3) 1, field b (8 * i + 4) 2)

def tamperMapLoadDef : CmdDef :=
  { opcode := 0x0606, role := fun _ => .oper
    lenOk := fun _ _ n => n % 8 == 0 && decide (n ≤ 2048)
    args := fun _ c => orFail ((tamperMapOf c.payload).all fun e => decide (e.2.1 ≤ 3)) stBadArgument
    objects := fun _ _ => [(8, 4)]
    act := fun c s => (.result [], s.onLt fun l => { l with tamperMap := tamperMapOf c.payload }) }

def tamperClearDef : CmdDef :=
  { opcode := 0x0607, role := fun _ => .secur
    args := fun s c => slotExists s c none
    state := fun s c => orFail (inUse s c.slotArg) stStateConflict
    objects := fun _ c => slotObject c
    act := fun c s =>
      let n := c.slotArg
      let clear (l : List Nat) : List Nat := (List.range 4).map fun k => if c.arg 4 1 / 2 ^ k % 2 = 1 then 0 else l.getD k 0
      (.result [], judgeTamper n (noFrame s n) (some 0)
        (modSlot n (fun x => { x with loss := { x.loss with reported := clear x.loss.reported } }) s)) }

def groupStatusDef : CmdDef :=
  { inlineRead 0x0608 (fun s c => match group s (c.arg 0 2) with
      | some g => le 2 g.flags.toNat ++ le 1 g.result ++ le 1 (flag 0 g.alarmPos + flag 1 g.alarmNeg) ++ le 4 (unsigned 4 g.sPos)
          ++ le 4 (unsigned 4 g.sNeg) ++ le 6 g.evaluated
      | none => []) with
    state := fun s c => orFail (group s (c.arg 0 2)).isSome stStateConflict }

/-! ### The meanings -/

def execGroupLoad (d : Desc) (s : State) : Host.Outcome State Fault Refusal := runCmd groupLoadDef (.groupLoad d) d s
def execGroupRemove (d : Desc) (s : State) : Host.Outcome State Fault Refusal := runCmd groupRemoveDef (.groupRemove d) d s
def execLtParamsLoad (d : Desc) (s : State) : Host.Outcome State Fault Refusal := runCmd ltParamsLoadDef (.ltParamsLoad d) d s
def execPartialSum (d : Desc) (s : State) : Host.Outcome State Fault Refusal := runCmd partialSumDef (.partialSum d) d s
def execDetectorReset (d : Desc) (s : State) : Host.Outcome State Fault Refusal := runCmd detectorResetDef (.detectorReset d) d s
def execTamperMapLoad (d : Desc) (s : State) : Host.Outcome State Fault Refusal := runCmd tamperMapLoadDef (.tamperMapLoad d) d s
def execTamperClear (d : Desc) (s : State) : Host.Outcome State Fault Refusal := runCmd tamperClearDef (.tamperClear d) d s
def execGroupStatus (d : Desc) (s : State) : Host.Outcome State Fault Refusal := runCmd groupStatusDef (.groupStatus d) d s
def execBalanceEvaluate (g : Nat) (s : State) : Host.Outcome State Fault Refusal := whileRunning (balanceEvaluate g) s
def execDailyAttribution (g : Nat) (s : State) : Host.Outcome State Fault Refusal := whileRunning (dailyAttribution g) s
def execTopologyRun (s : State) : Host.Outcome State Fault Refusal := whileRunning topologyRun s

end Sys2Proof.Machine
end

