-- ==== Sys2Proof/Machine/LaneOps.lean ====
section
/-!
DEFINITION. Sample ports and link channels as the MACs use them: band plans, blanking, launches (R81, R87, R91, R94 to R97, R240).
-/

namespace Sys2Proof.Machine

/-! ### Band plans (table Band plans) -/

/-- Receive and transmit latency of a plan, ns. -/
def planRx (p : Nat) : Nat := if p = 5 ∨ p = 6 then 80000 else 30000
def planTx (p : Nat) : Nat := if p = 5 ∨ p = 6 then 60000 else 24000

/-- Output rate of a plan, samples per second. -/
def planRate (p : Nat) : Nat := [0, 800000, 1600000, 800000, 1600000, 400000, 1200000].getD p 0

/-- The number of centre indices of a plan. -/
def planCount (p : Nat) : Nat := [0, 129, 64, 35, 17, 1, 1].getD p 0

/-- Grid spacing of a radio plan, Hz. -/
def planGrid (p : Nat) : Nat := if p = 1 ∨ p = 3 then 200000 else 400000

/-- Centre frequency of an index of a plan, Hz; plan 5's 63,281.25 Hz and plan 6's 321,093.75 Hz rounded down. -/
def planCentre (p i : Nat) : Nat :=
  match p with
  | 1 => 902200000 + 200000 * i
  | 2 => 902400000 + 400000 * i
  | 3 => 863100000 + 200000 * i
  | 4 => 863200000 + 400000 * i
  | 5 => 63281
  | _ => 321093

/-! ### Statistics (R97) -/

/-- Blanking is on (table BLANK). -/
def ChanCfg.blankOn (c : ChanCfg) : Bool := c.blank.getLsbD 16

/-- K of BLANK, in 1/16, and RMS_TC (table BLANK). -/
def ChanCfg.blankK (c : ChanCfg) : Nat := bits c.blank 0 8
def ChanCfg.rmsTc (c : ChanCfg) : Nat := bits c.blank 8 4

/-- One channel sample of |x|² meets the blanker: it crosses where |x| > k·√ms, and the 8 samples on either side of it go with it; the
sample that leaves the look-ahead joins ms unless it is erased. Counted beside: crossings and samples erased. The running mean is
exponential, in 2^-16, rounded down (R91; DESIGN CHOICE, assumption log 36). -/
def blankSample (c : ChanCfg) (b : Blanker × Nat × Nat) (x : Nat) : Blanker × Nat × Nat :=
  let hit := decide (c.blankK * c.blankK * b.1.ms < 256 * x * 65536)
  let late := if hit then (b.1.line.filter fun y => !y.2).length else 0
  let line := (x, hit || decide (0 < b.1.guard)) :: (if hit then b.1.line.map fun y => (y.1, true) else b.1.line)
  let ms := match line.drop 8 with
    | (y, false) :: _ => b.1.ms + y * 65536 / 2 ^ c.rmsTc - b.1.ms / 2 ^ c.rmsTc
    | _ => b.1.ms
  ({ ms, line := line.take 8, guard := if hit then 8 else b.1.guard - 1 },
    b.2.1 + flag 0 hit, b.2.2 + late + flag 0 (hit || decide (0 < b.1.guard)))

/-- What a channel that blanks has erased since it was last looked at joins its counts; the samples themselves no row brings
(R91, R97; assumption log 36). -/
def accrueBlank (n : Nat) (s : State) : State :=
  let c := (chan s n).act
  if c.bound && c.blankOn && portUp s c.port then
    let r := (Config.channelSamples s.free).foldl (blankSample c) ((chan s n).blanker, 0, 0)
    countStat n 0x90 r.2.2 (countStat n 0x94 r.2.1 (modChan n (fun x => { x with blanker := r.1 }) s.draw))
  else s

/-- The running mean is seeded from the calibrated noise floor, and the look-ahead empty (R91). -/
def Chan.seeded (c : Chan) : Blanker := { ms := Config.floorPower (signed 2 (Tbl.getD c.stats 0xA0 0#32).toNat) }

/-- The same for every channel of a port (R97). -/
def accruePort (p : Nat) (s : State) : State :=
  s.lane.chans.foldl (fun t x => if x.2.act.port = p then accrueBlank x.1 t else t) s

/-- A read-only statistic of a channel is set. -/
def setStat (c off v : Nat) (s : State) : State :=
  modChan c (fun x => { x with stats := Tbl.put x.stats off (BitVec.ofNat 32 v) }) s

/-! ### Launches (R94 to R96, R240) -/

/-- The instant at which a launch's samples start on the lane (R95). -/
def laneStart (s : State) (c : ChanCfg) (launch : Nat) : Nat := launch - planTx c.plan - (port s c.port).txLat.toNat

/-- The earliest launch instant that R95 still admits now. -/
def earliestLaunch (s : State) (c : ChanCfg) : Nat := macNow s c + 5000 + planTx c.plan + (port s c.port).txLat.toNat

/-- The channel can transmit: in force with TX_EN on a port in UP, and the device has the right to (R94, R100). -/
def canSend (s : State) (lc : Nat) : Bool :=
  let c := (chan s lc).act
  c.bound && c.txEn && portUp s c.port && maySend s

/-- A radio transmission is charged in full to its centre frequency at its start (R132). -/
def charge (c : ChanCfg) (start airtime : Nat) (s : State) : State :=
  if c.macType = 2 then
    s.onBr fun b =>
      { b with dwell := (planCentre c.plan c.centre, start, airtime) :: b.dwell.filter fun d => decide (tb5 s < d.2.1 + 6600 * nsPerS) }
  else s

/-- A launch in its place of a queue in time order. -/
def insertLaunch (l : Launch) : List Launch → List Launch
  | [] => [l]
  | x :: xs => if l.launch < x.launch then l :: x :: xs else x :: insertLaunch l xs

/-- A frame is queued to reach its antenna or coupler at an instant; nothing where it is not sent: no right to transmit, too
late, or a queue of 32 (R95, R240). -/
def queueTx (lc launch airtime : Nat) (symbol : Nat × Nat) (frame : Bytes) (isAck : Bool) (s : State) : Option State :=
  let c := (chan s lc).act
  if canSend s lc && decide (earliestLaunch s c ≤ launch) && decide ((port s c.port).queue.length < 32) then
    some (modPort c.port (fun p => { p with queue := insertLaunch { lc, launch, airtime, frame, isAck, symbol } p.queue }) s)
  else none

/-- Ends of a port's transmissions that still ran at an instant, rising. -/
def endsAfter (s : State) (p t : Nat) : List Nat :=
  (((port s p).active.map fun l => l.launch + l.airtime).filter fun e => decide (t < e)).mergeSort (· ≤ ·)

/-- The instant at which a launch begins: its own, or the end of the one of 16 it had to wait for (R94). -/
def launchAt (s : State) (p : Nat) (l : Launch) : Nat :=
  let ends := endsAfter s p l.launch
  if ends.length < 16 then l.launch else ends.getD (ends.length - 16) l.launch

/-- The level of a channel's transmissions below full scale, 0.25 dB: TX_BACKOFF and 12 dB of headroom (R94). -/
def txLevel (c : ChanCfg) : Nat := bits c.txBackoff 0 8 + 48

/-- Transmissions that meet are summed with saturation; how often the sum saturates their samples decide, which no row brings
(R94; DESIGN CHOICE, assumption log 36). The count stops at 2^32 - 1, where the manual does not say whether it stops or wraps
(DESIGN CHOICE, assumption log 76). -/
def saturate16 (p : Nat) (s : State) : State :=
  if 2 ≤ (inProgress s p).length then
    (modPort p (fun x => { x with saturation := min (x.saturation + Config.openNat s.free) (2 ^ 32 - 1) }) s).draw
  else s

/-- The samples of the port's next launch start on the lane once its time is reached and fewer than 16 run; a port without
TX_ENABLE sends zero samples for it (R94, R95). -/
def timedLaunch (p : Nat) (s : State) : State :=
  match (port s p).queue with
  | [] => s
  | l :: rest =>
    let c := (chan s l.lc).act
    if laneStart s c l.launch ≤ macNow s c ∧ (inProgress s p).length < 16 then
      let at_ := launchAt s p l
      let recent := (port s p).active.filter fun x => decide (macNow s (chan s x.lc).act < x.launch + x.airtime + 5 * nsPerS)
      let s1 := modPort p (fun x =>
        { x with queue := rest, active := recent ++ [{ l with launch := at_ }]
                 eraseUntil := if x.halfDuplex then max x.eraseUntil (at_ + l.airtime + planRx c.plan) else x.eraseUntil }) s
      let s2 := saturate16 p (countStat l.lc stTxFrames 1 s1)
      if (port s p).txEnable then emit (.tx p l.lc at_ (txLevel c) l.frame) (charge c at_ l.airtime s2) else s2
    else s

/-- How long after the air a channel sample comes: the port's receive latency and the plan's (R88). -/
def rxDelay (s : State) (c : ChanCfg) : Nat := planRx c.plan + (port s c.port).rxLat.toNat

/-- A channel sample that carries a frame, whose span on the air is given, falls in the erasure of a half-duplex port: from the first
sample of a transmission until the plan's receive latency after its last (R96). -/
def erased (s : State) (c : ChanCfg) (span : Nat × Nat) : Bool :=
  (port s c.port).halfDuplex &&
    (port s c.port).active.any fun l =>
      decide (l.launch ≤ span.2 + rxDelay s c) && decide (span.1 + rxDelay s c ≤ l.launch + l.airtime + planRx c.plan)

/-- A link channel hears a frame that began at an instant of its base: in force with RX_EN, its port in UP, in field role,
and producing samples since before the frame began; one in progress at an APPLY or at a DOWN is not taken (R85, R90). -/
def hears (s : State) (lc start : Nat) : Bool :=
  let c := (chan s lc).act
  !s.dev.core && c.bound && c.rxEn && portUp s c.port && decide ((chan s lc).since ≤ tb6 s - (macNow s c - start))

/-- The channel's samples broke off after a frame began, whose start and whose channel's base as it reads now are given: an APPLY has
changed its binding or MAC, and the frame is discarded (R90). -/
def broken (s : State) (lc now start : Nat) : Bool := !s.dev.core && decide (tb6 s - (now - start) < (chan s lc).since)

/-- The instant on the air of what a channel sample carries (R88). -/
def onAir (s : State) (lc t : Nat) : Nat := t - rxDelay s (chan s lc).act

/-- The instant on the air of a start-of-frame delimiter, at the resolution of one channel sample (R88). -/
def delimiterAt (s : State) (lc t : Nat) : Nat :=
  let r := planRate (chan s lc).act.plan
  onAir s lc (t * r / nsPerS * nsPerS / r)

/-- The take timestamp of a link frame: TB2 at its start-of-frame delimiter, which is given on the channel's base
(R88, assumption log 21). -/
def linkStamp (s : State) (c : ChanCfg) (sfd : Nat) : Nat := tb2 s - (macNow s c - sfd)

/-- The shard's drain window has ended and it was not placed again (R315). -/
def drained (s : State) (k : Nat) : Bool := decide ((shard s k).state = .unheld) && (shard s k).drainEnd != 0

/-- A frame of a drained shard is not taken: counted UNROUTED, and said at most once a minute (R315, R316). -/
def dropDrained (k : Nat) (s : State) : State :=
  limited (limitKey 0x7011 k) nsMin (report 0x7011 kShard k (le 1 k) 0x0E06 2 k (le 1 k))
    (s.onDev fun d => { d with counters := d.counters.modify 2 (· + 1) })

/-- A link frame is taken, or the take refused (R26, R39, R41, R315). -/
def takeLink (lc origin sfd : Nat) (rssi : Int) (frame : Bytes) (s : State) : Bool × State :=
  let c := (chan s lc).act
  let size := intakeSize frame
  let k := linkAddress origin frame / 4096
  if drained s k then (false, dropDrained k s)
  else if mayTake size s then
    let s1 := take (linkStamp s c sfd * nsUnit) frame origin lc c.port rssi (takenTransparent s origin frame) s
    (true, setStat lc stRssiLast (unsigned 2 rssi) (countStat lc stRxTaken 1 s1))
  else (false, countStat lc stRefusedTake 1 (refuseTake 1 (latchRefusal size s)))

/-! ### Sequence windows (R109) -/

/-- The class of a sequence. -/
inductive SeqClass where
  | new | duplicate | stale
  deriving DecidableEq, Repr

/-- The classification of R109. -/
def classify (w : Option SeqWin) (q : BitVec 16) : SeqClass :=
  match w with
  | none => .new
  | some x =>
    if serialAfter16 q x.h && decide ((q - x.h).toNat ≤ 32767) then .new
    else
      let d := (x.h - q).toNat
      if d ≤ 63 then (if x.bits.getLsbD d then .duplicate else .new) else .stale

/-- The window with a sequence's bit set (R109). -/
def markSeq (w : Option SeqWin) (q : BitVec 16) : SeqWin :=
  match w with
  | none => { h := q, bits := 1#64 }
  | some x =>
    if serialAfter16 q x.h then { h := q, bits := (x.bits <<< (q - x.h).toNat) ||| 1#64 }
    else { x with bits := x.bits ||| BitVec.ofNat 64 (2 ^ (x.h - q).toNat) }

/-- A copy of the same frame was taken on another channel and ended less than 2 ms before this one ends (R109). -/
def otherCopy (last : Option (Nat × BitVec 16 × Nat)) (lc : Nat) (q : BitVec 16) (end_ : Nat) : Bool :=
  match last with
  | some (c, p, e) => c != lc && p == q && decide (e ≤ end_) && decide (end_ < e + 2 * nsMs)
  | none => false

end Sys2Proof.Machine
end

