-- ==== Sys2Proof/Machine/Ports.lean ====
section
/-!
DEFINITION. Sample ports: configuration, states, SYSREF, calibration (R81 to R85, R93, R95, R335, R404).
-/

namespace Sys2Proof.Machine

/-! ### Formats (table Sample formats) -/

/-- JESD204B formats, and I/Q formats. -/
def fmtIsB (f : Nat) : Bool := f == 6 || f == 7
def fmtIsIq (f : Nat) : Bool := f == 0 || f == 1 || f == 4

/-- The usable band of a format about RF_REF: Hz below and above it. -/
def fmtBand (f : Nat) : Nat × Nat :=
  match f with
  | 0 | 1 => (98304000, 98304000)
  | 2 | 3 | 7 => (0, 196608000)
  | 4 => (196608000, 196608000)
  | 5 => (0, 393216000)
  | 6 => (0, 98304000)
  | _ => (0, 0)

/-! ### PORT_CONFIG and PORT_STATUS (R85, R404) -/

/-- The fields of a record are in range (table Port configuration record). -/
def portRecordOk (b : Bytes) : Bool :=
  decide (field b 0 1 ≤ 15) && decide (field b 12 4 ≤ 100000) && decide (field b 16 4 ≤ 100000)
    && (!fmtIsB (field b 1 1) || (decide (16 ≤ field b 20 2) && decide (field b 20 2 ≤ 32))) && decide (field b 22 2 ≤ 1023)

/-- A record changes format, RF_REF or a latency of a port. -/
def portMoves (p : Port) (b : Bytes) : Bool :=
  p.format.toNat != field b 1 1 || p.rfRef.toNat != field b 4 8 || p.rxLat.toNat != field b 12 4 || p.txLat.toNat != field b 16 4

/-- The port after its record is loaded: ENABLE takes it from OFF to TRAINING, its absence to OFF, where nothing is sent
(R85). In core role the port is held off (R81). A port that was DOWN when ENABLE took it to OFF is not told as returned when it comes UP
again (DESIGN CHOICE, assumption log 76). -/
def loadPort (core : Bool) (b : Bytes) (p : Port) : Port :=
  let en := field b 2 1 % 2 == 1
  let q := { p with
    format := BitVec.ofNat 8 (field b 1 1), flags := BitVec.ofNat 8 (field b 2 1 % 32), rfRef := BitVec.ofNat 64 (field b 4 8)
    rxLat := BitVec.ofNat 32 (field b 12 4), txLat := BitVec.ofNat 32 (field b 16 4), k := BitVec.ofNat 16 (field b 20 2)
    rbd := BitVec.ofNat 16 (field b 22 2) }
  if ¬ en then { q with state := .off, queue := [], active := [], wasDown := false }
  else if p.state = .off ∧ ¬ core then { q with state := .training } else q

/-- Transmissions of a port are cut short (R90). -/
def abortPort (p : Nat) (s : State) : State :=
  (inProgress s p).foldl (fun t l => emit (.txAbort l.lc) (countStat l.lc stTxAborted 1 t)) s

def portConfigDef : CmdDef :=
  { opcode := 0x0301, role := fun _ => .oper
    lenOk := fun _ _ n => n == 32
    args := fun _ c =>
      orElse (decide (field c.payload 1 1 ≤ 7) || field c.payload 1 1 == 0xFF) stBadArgument
        (orFail (portRecordOk c.payload) stOutOfRange)
    state := fun s c =>
      let p := port s (field c.payload 0 1)
      orFail (decide (p.state = .off) || !portMoves p c.payload) stStateConflict
    objects := fun _ _ => [(8, 5)]
    act := fun c s =>
      let n := field c.payload 0 1
      let s1 := if field c.payload 2 1 % 2 = 0 then abortPort n (accruePort n s) else s
      (.result [], modPort n (loadPort s.dev.core c.payload) s1) }

/-- The code of a port state (R404). -/
def portStateCode : PortState → Nat
  | .off => 0
  | .training => 1
  | .aligned => 2
  | .up => 3
  | .down => 4

def portStatusDef : CmdDef :=
  { inlineRead 0x0302 (fun s c =>
      let p := port s (c.arg 0 1)
      le 1 (portStateCode p.state) ++ zeros 1 ++ le 2 p.sysrefSlip ++ le 4 p.downCycles ++ le 4 p.saturation
        ++ le 2 p.imageRejection ++ le 1 p.eyeMargin ++ zeros 1) with
    args := fun _ c => orFail (decide (c.arg 0 1 ≤ 15)) stOutOfRange }

/-! ### Port states (R84, R85) -/

/-- The channels of a port produce samples from now on, their running mean seeded from the noise floor (R89, R91). -/
def seedChannels (p : Nat) (s : State) : State :=
  s.onLane fun l => { l with chans := Tbl.mapVals l.chans fun _ c =>
    if c.act.bound && c.act.port == p then
      { c with blanker := c.seeded, since := tb6 s } else c }

/-- One port at a SYSREF edge: an ALIGNED port comes UP; an UP port off its phase counts a slip (R84, R85). Of 0x0401 and 0x0402
together at most one a minute is posted for a port; 0x0402 has the priority of 0x0401, the manual giving it none (DESIGN CHOICE,
assumption log 55). SYSREF_SLIP stops at 65,535, where the manual does not say whether it stops or wraps (DESIGN CHOICE, assumption
log 76). -/
def sysrefPort (s : State) (x : Nat × Bool) : State :=
  let p := port s x.1
  match p.state with
  | .aligned =>
    let s1 := seedChannels x.1 (modPort x.1 (fun q => { q with state := .up, wasDown := false }) s)
    if p.wasDown then
      limited (limitKey 0x0401 x.1) nsMin (post 0x0402 1 x.1 []) (yew 0x9011 kPort x.1 [] s1)
    else s1
  | .up =>
    if x.2 then s
    else report 0x9012 kPort x.1 [] 0x0403 1 x.1 [] (modPort x.1 (fun q => { q with sysrefSlip := min (q.sysrefSlip + 1) 65535 }) s)
  | _ => s

/-- A SYSREF edge on every port; where a port is not listed it lands on its phase. -/
def sysrefEdge (phases : List (Nat × Bool)) (s : State) : State :=
  (List.range 16).foldl (fun t p => sysrefPort t (p, match phases.find? fun x => x.1 == p with | some x => x.2 | none => true)) s

/-- The alignment sequence of a JESD204B port has the link parameters of its configuration; a JESD204C port has none (R82, R83). -/
def linkMatches (q : Port) (x : LinkParams) : Bool :=
  !fmtIsB q.format.toNat
    || (x.l == 1 && x.m == 1 && x.n == 16 && x.nn == 16 && x.f == 2 && x.k == q.k.toNat && x.scramble == q.flags.getLsbD 4)

/-- Lane lock and, for JESD204B, a matching alignment sequence (R83, R85). -/
def portLaneLock (l : LaneLock) (s : State) : State :=
  let p := port s l.port
  guarded (decide (p.state = .training) && p.configured && linkMatches p l.ilas) (modPort l.port fun q => { q with state := .aligned }) s

/-- An UP port loses lock: nothing in progress or owed on it goes on (R85). The count of DOWN cycles stops at 2^32 - 1; a coefficient swap
still owed is dropped, and the count of missed searches stands (DESIGN CHOICE, assumption log 76). -/
def portLockLost (p : Nat) (s : State) : State :=
  if (port s p).state = .up then
    let s1 := modPort p (fun q =>
      { q with state := .down, downCycles := min (q.downCycles + 1) (2 ^ 32 - 1), retrainAt := tb6 s + nsMs, wasDown := true
               queue := [], active := [], swapDue := false }) (abortPort p (accruePort p s))
    limited (limitKey 0x0401 p) nsMin (post 0x0401 1 p []) (yew 0x9010 kPort p [] s1)
  else s

/-- 1 ms after DOWN the port trains again (R85). -/
def portRetrain (p : Nat) (s : State) : State :=
  guarded (decide ((port s p).state = .down) && decide ((port s p).retrainAt ≤ tb6 s)) (modPort p fun q => { q with state := .training }) s

/-! ### Calibration (R93) -/

/-- The base of a port's own channels. -/
def portNow (s : State) (p : Nat) : Nat := if fmtIsIq (port s p).format.toNat then tb5 s else tb4 s

/-- The coefficients a measurement gives: DC offset, and I/Q gain and phase for I/Q formats only. -/
def coeffsOf (iq : Bool) (m : CalIn) (old : Int × Int × Int × Int) : Int × Int × Int × Int :=
  if iq then (m.dc.1, m.dc.2, m.gain, m.phase) else (m.dc.1, m.dc.2, old.2.2)

/-- A measurement, 10 s after the last, outside any erasure span; a poor result is noticed and the port goes on. A search of the last
measurement that nothing ended has found no boundary. -/
def portCalibration (p : Nat) (m : CalIn) (s : State) : State :=
  let q := port s p
  if q.state = .up ∧ q.calibrated + 10 * nsPerS ≤ tb6 s ∧ q.eraseUntil ≤ portNow s p then
    let iq := fmtIsIq q.format.toNat
    let s1 := modPort p (fun x =>
      { x with imageRejection := if iq then m.image else x.imageRejection, eyeMargin := m.eye, swapDue := true,
               swapMisses := if x.swapDue then x.swapMisses + 1 else x.swapMisses
               measured := coeffsOf iq m x.measured
               calibrated := tb6 s }) s
    let s2 := m.floors.foldl (fun t f =>
      if (chan t f.1).act.bound && (chan t f.1).act.port == p then setStat f.1 stNoiseFloor (unsigned 2 f.2) t else t) s1
    if (iq && decide (m.image < 300)) || decide (m.eye < Config.eyeMinimum) then
      post 0x0404 2 p (le 2 m.image ++ le 1 m.eye) s2 else s2
  else s

/-- How long the search for a quiet block boundary lasts after a measurement. -/
def swapSearch : Nat := 500 * nsMs

/-- A block boundary of an UP port at which a swap is owed: the coefficients are swapped in at a quiet one within the search, or at any
after three searches without one; a search that has lasted 500 ms has found none (R93). -/
def calibrationSwap (p : Nat) (quiet : Bool) (s : State) : State :=
  let q := port s p
  let ended := decide (q.calibrated + swapSearch < tb6 s)
  if q.swapDue = false ∨ q.state ≠ .up then s
  else if (quiet ∧ ¬ ended) ∨ 3 ≤ q.swapMisses then modPort p (fun x => { x with swapDue := false, swapMisses := 0, coeffs := x.measured }) s
  else if ended then modPort p (fun x => { x with swapDue := false, swapMisses := x.swapMisses + 1 }) s
  else s

/-- New lane microcode enters a port at a cycle at which none of its channels transmits or owes an acknowledgement (R335). -/
def laneMicrocodeSwap (p : Nat) (s : State) : State :=
  if p ∈ s.lane.microcodeDue ∧ inProgress s p = [] ∧ (port s p).queue.all (fun l => !l.isAck) then
    s.onLane fun l => { l with microcodeDue := l.microcodeDue.filter fun x => x != p }
  else s

/-! ### The meanings -/

def execPortConfig (d : Desc) (s : State) : Host.Outcome State Fault Refusal := runCmd portConfigDef (.portConfig d) d s
def execPortStatus (d : Desc) (s : State) : Host.Outcome State Fault Refusal := runCmd portStatusDef (.portStatus d) d s
def execSysrefEdge (l : List (Nat × Bool)) (s : State) : Host.Outcome State Fault Refusal := whileRunning (sysrefEdge l) s
def execPortLaneLock (l : LaneLock) (s : State) : Host.Outcome State Fault Refusal := whileRunning (portLaneLock l) s
def execPortLockLost (p : Nat) (s : State) : Host.Outcome State Fault Refusal := whileRunning (portLockLost p) s
def execPortRetrain (p : Nat) (s : State) : Host.Outcome State Fault Refusal := whileRunning (portRetrain p) s
def execPortCalibration (p : Nat) (m : CalIn) (s : State) : Host.Outcome State Fault Refusal := whileRunning (portCalibration p m) s
def execCalibrationSwap (p : Nat) (quiet : Bool) (s : State) : Host.Outcome State Fault Refusal := whileRunning (calibrationSwap p quiet) s
def execTimedLaunch (p : Nat) (s : State) : Host.Outcome State Fault Refusal := whileRunning (timedLaunch p) s
def execLaneMicrocodeSwap (p : Nat) (s : State) : Host.Outcome State Fault Refusal := whileRunning (laneMicrocodeSwap p) s

end Sys2Proof.Machine
end

