-- ==== Sys2Proof/Machine/BrambleOps.lean ====
section
/-!
DEFINITION. Bramble networks and connections: parameters, hopping, dwell, frames, updates (R121 to R129, R132, R133, R137).
-/

namespace Sys2Proof.Machine

/-! ### PHY modes (table Bramble PHY modes) -/

/-- A mode is permitted on a plan. -/
def modeOnPlan (mode plan : Nat) : Bool :=
  if mode = 0 ∨ mode = 4 then plan == 1 || plan == 3
  else (mode == 1 || mode == 2 || mode == 3 || mode == 5) && (plan == 2 || plan == 4)

/-- Airtime of a frame, ns (R122). -/
def brAirtime (mode preamble psdu : Nat) : Nat :=
  if mode ≤ 3 then (preamble + 4 + psdu) * 8 * 20000 / [1, 2, 3, 4].getD mode 1 else Config.brOfdmAirtime mode psdu

/-! ### Networks (R123) -/

/-- The parameters of a Bramble network: those of its channels in force. -/
def brNet (s : State) (net : Nat) : Option ChanCfg := ((netChans s 2 net).head?).map fun c => (chan s c).act

def ChanCfg.rdvMode (c : ChanCfg) : Nat := bits c.brNet 16 4
def ChanCfg.devPpm10 (c : ChanCfg) : Nat := bits c.brNet 24 8
def ChanCfg.rdv (c : ChanCfg) : List Nat := [bits c.brRdv 0 8, bits c.brRdv 8 8, bits c.brRdv 16 8]
def ChanCfg.dwellLimit (c : ChanCfg) : Nat := bits c.brDwell 0 16 * nsMs
def ChanCfg.dwellWindow (c : ChanCfg) : Nat := bits c.brDwell 16 16 * 100 * nsMs
def ChanCfg.brRetry (c : ChanCfg) : Nat := bits c.brTiming 0 8
def ChanCfg.ackReserve (c : ChanCfg) : Nat := bits c.brTiming 8 8 * nsMs
def ChanCfg.preamble (c : ChanCfg) : Nat := bits c.brTiming 16 8
def ChanCfg.brBlank (c : ChanCfg) : Nat := bits c.brTiming 24 8
def ChanCfg.perLimit (c : ChanCfg) : Nat := bits c.brQuality 0 8
def ChanCfg.minUsed (c : ChanCfg) : Nat := bits c.brQuality 8 8

/-- Plan indices of a network that have a channel with RX_EN and TX_EN set. -/
def netIndices (s : State) (net : Nat) : List Nat :=
  (((netChans s 2 net).filter fun c => (chan s c).act.rxEn && (chan s c).act.txEn).map fun c => (chan s c).act.centre).mergeSort.dedup

/-- A map of plan indices. -/
def mapOf (l : List Nat) : BitVec 256 := l.foldl (fun m i => m ||| BitVec.ofNat 256 (2 ^ i)) 0#256

/-- The indices set in a map, of a plan. -/
def mapIndices (plan : Nat) (m : BitVec 256) : List Nat := (List.range (planCount plan)).filter fun i => m.getLsbD i

/-! ### Connection records (R128, R404) -/

/-- A connection record as its 44 bytes spell it. -/
def brParamsOf (b : Bytes) : BrParams :=
  { interval := field b 0 4, timeout := field b 4 4, phy := field b 8 1, map := BitVec.ofNat 256 (field b 12 32) }

/-- A connection record (R404). -/
def brParamsBytes (p : BrParams) : Bytes := le 4 p.interval ++ le 4 p.timeout ++ le 1 p.phy ++ zeros 3 ++ le 32 p.map.toNat

/-- Its values are in range. -/
def brRangeOk (p : BrParams) : Bool :=
  decide (30 ≤ p.interval) && decide (p.interval ≤ 57600000) && decide (2000 ≤ p.timeout) && decide (p.timeout ≤ 172800000)
    && decide (p.phy ≤ 5)

/-- The relations of R128 hold on a plan: the timeout is at least three intervals, the mode is permitted. -/
def brRelationOk (plan : Nat) (p : BrParams) : Bool := decide (3 * p.interval ≤ 4 * p.timeout) && modeOnPlan p.phy plan

/-- The map a record asks for: all zero, or too few indices, stand for every index of the network (R128). -/
def widenMap (s : State) (net plan minUsed : Nat) (m : BitVec 256) : BitVec 256 :=
  let all := netIndices s net
  let used := (mapIndices plan m).filter fun i => decide (i ∈ all)
  if used.length < max 1 minUsed then mapOf all else mapOf used

/-- The default record of a network; one not loaded holds the least interval and timeout and RDV_MODE (assumption log 23). -/
def brDefault (s : State) (net : Nat) (c : ChanCfg) : BrParams :=
  (Tbl.get s.br.defaults net).getD { interval := 30, timeout := 2000, phy := c.rdvMode, map := 0#256 }

/-- A record keeps every rule on a plan, for a meter's modes (R128). -/
def brFits (plan supported : Nat) (p : BrParams) : Bool :=
  brRangeOk p && brRelationOk plan p && decide (supported / 2 ^ p.phy % 2 = 1)

/-- The parameters of a new connection: the slot's override where it keeps the rules, else the network's default; a default whose mode
the plan or the meter has not gives way in its mode to RDV_MODE, in which the meter has spoken (R121, R128; DESIGN CHOICE, assumption
log 23). -/
def chooseParams (s : State) (net slot : Nat) (c : ChanCfg) (supported : Nat) : BrParams :=
  let base := brDefault s net c
  let dflt := if brFits c.plan supported base then base else { base with phy := c.rdvMode }
  let p := match Tbl.get s.br.overrides slot with
    | some o => if brFits c.plan supported o then o else dflt
    | none => dflt
  { p with map := widenMap s net c.plan c.minUsed p.map }

/-! ### Connections -/

/-- A slot's connection. -/
def conn (s : State) (n : Nat) : Option Conn := Tbl.get s.br.conns n

/-- A connection changed. -/
def modConn (n : Nat) (f : Conn → Conn) (s : State) : State := s.onBr fun b => { b with conns := Tbl.mod b.conns n f }

/-- The interval of parameters in ns. -/
def BrParams.ns (p : BrParams) : Nat := p.interval * 250000

/-- The index of event n under a map (R129). -/
def hop (plan : Nat) (m : BitVec 256) (aw n : Word) : Nat :=
  let x0 : Word := (aw ^^^ n) * 69069#32
  let x := x0 ^^^ (x0 >>> 16)
  let u := x.toNat % max 1 (planCount plan)
  let used := mapIndices plan m
  if m.getLsbD u then u else used.getD ((x >>> 16).toNat * used.length / 65536) 0

/-- A connection's record as mirrored (table Mirror items, kind 4). -/
def connItem (c : Conn) : Bytes :=
  le 4 c.slot ++ le 4 c.aw.toNat ++ le 2 (c.slot % 65536) ++ zeros 2 ++ brParamsBytes c.params ++ le 4 c.stored

/-! ### Dwell (R132) -/

/-- Airtime used on a frequency within the network's window, ns. -/
def dwellUsed (s : State) (c : ChanCfg) (hz : Nat) : Nat :=
  ((s.br.dwell.filter fun d => d.1 == hz && decide (tb5 s < d.2.1 + c.dwellWindow)).map fun d => d.2.2).sum

/-- The notice of suppression, once a minute per frequency. -/
def dwellNotice (c : ChanCfg) (index : Nat) (s : State) : State :=
  limited (limitKey 0x0601 (planCentre c.plan index)) nsMin (post 0x0601 2 0 (le 1 index)) s

/-! ### Frames (R125) -/

/-- Frame types (table Bramble frame control). -/
def btRendezvous : Nat := 0
def btData : Nat := 1
def btAck : Nat := 2
def btNack : Nat := 3
def btConnectReq : Nat := 4
def btConnectResp : Nat := 5
def btEmpty : Nat := 6
def btChannelMap : Nat := 7
def btParamUpdate : Nat := 8
def btTerminate : Nat := 9

/-- A frame with its instants as on the air, and nothing blanked where blanking is off (R88, R91). -/
def brSeen (s : State) (r : BrRx) : BrRx :=
  { r with span := (onAir s r.lc r.span.1, onAir s r.lc r.span.2), sfd := delimiterAt s r.lc r.sfd, blanked := if (chan s r.lc).act.blankOn then r.blanked else 0 }

/-- The access word of frames outside a connection. -/
def rdvWord : Word := 0xD3A15C27#32

/-- A frame of the device. -/
def brFrame (aw : Word) (type : Nat) (ackReq more : Bool) (net seq addr counter : Nat) (payload : Bytes) : Bytes :=
  let h := le 4 aw.toNat ++ le 2 (type + flag 4 ackReq + flag 5 true + flag 6 more) ++ le 2 net ++ le 2 seq ++ le 2 addr
    ++ le 4 counter ++ le 2 payload.length
  let b := h ++ le 2 (crc16 h).toNat ++ payload
  b ++ le 4 (crc32c b).toNat

/-- What a frame is sent as, for its dwell rule. -/
inductive DwellKind where
  | downlink | response
  deriving DecidableEq, Repr

/-- A symbol of an FSK mode in ns; the manual states none for the OFDM modes (table Bramble PHY modes). -/
def brSymbol (mode : Nat) : Nat × Nat := [(20000, 1), (10000, 1), (20000, 3), (10000, 1)].getD mode (0, 1)

/-- A frame is queued on a channel at an instant under the dwell rule of its kind, to be charged at its start; none where it is not
sent (R132). -/
def brSend (kind : DwellKind) (lc launch mode : Nat) (frame : Bytes) (isAck : Bool) (s : State) : Option State :=
  let c := (chan s lc).act
  let air := brAirtime mode c.preamble frame.length
  let reserve := if kind = .downlink then c.ackReserve else 0
  if dwellUsed s c (planCentre c.plan c.centre) + air + reserve ≤ c.dwellLimit then queueTx lc launch air (brSymbol mode) frame isAck s else none

/-- The dwell rule of a kind refuses a frame now. -/
def dwellRefuses (kind : DwellKind) (lc mode : Nat) (frame : Bytes) (s : State) : Bool :=
  let c := (chan s lc).act
  let reserve := if kind = .downlink then c.ackReserve else 0
  decide (c.dwellLimit < dwellUsed s c (planCentre c.plan c.centre) + brAirtime mode c.preamble frame.length + reserve)

/-! ### Updates of a running connection (R137) -/

/-- An update of a connection that has none pending: parameters first, a map alone otherwise; mirrored before it is sent
(R137, R304). -/
def startUpdate (n : Nat) (p : BrParams) (s : State) : State :=
  match conn s n with
  | none => s
  | some c =>
    let isMap := p.interval == c.params.interval && p.timeout == c.params.timeout
    if c.update.isSome ∨ (isMap ∧ p.map = c.params.map) then s
    else
      let needed := mirrorNeeded s
      let u : BrUpdate := { params := { p with phy := c.params.phy }, instant := 0, acked := false, both := false, isMap, ready := !needed }
      queueItem 4 (connItem { c with params := { p with phy := c.params.phy } }) (!needed) none
        (modConn n (fun x => { x with update := some u }) s)

/-- The parameters an update puts in force: its interval and timeout, or its map. -/
def BrUpdate.apply (u : BrUpdate) (p : BrParams) : BrParams :=
  if u.isMap then { p with map := u.params.map } else { p with interval := u.params.interval, timeout := u.params.timeout }

/-- An update is adopted: its parameters are in force and durable, and a map it also asked for follows (R136, R137). -/
def adoptUpdate (n : Nat) (s : State) : State :=
  match conn s n with
  | none => s
  | some c =>
    match c.update with
    | none => s
    | some u =>
      startUpdate n { u.params with phy := c.params.phy }
        (commit (modConn n (fun x => { x with params := u.apply x.params, update := none, stored := u.instant }) s))

/-- The signed distance from one event counter to another (R129). -/
def evDiff (a b : Nat) : Int :=
  let d : Nat := (a + 2 ^ 32 - b) % 2 ^ 32
  if d < 2 ^ 31 then d else (d : Int) - 2 ^ 32

/-! ### The shared neighbour table (R100, R123) -/

/-- Entries of the neighbour table in use. -/
def neighboursInUse (s : State) : Nat := (s.hr.map fun n => n.2.neigh.length).sum + s.br.conns.length

/-- The table is full. -/
def neighboursFull (s : State) : Bool := decide (65536 ≤ neighboursInUse s)

end Sys2Proof.Machine
end

