-- ==== Sys2Proof/Machine/DownlinkOps.lean ====
section
/-!
DEFINITION. Downlink to meters as the device works it: invocation counters, requests, their places on a MAC or in the queue
of core role, outcomes, campaigns (R300, R304 to R307, R339 to R343, R416 to R418).
-/

namespace Sys2Proof.Machine

/-! ### Invocation counters (R305) -/

/-- The slot has a value left in the block this device reserved. -/
def icInHand (x : Slot) : Bool :=
  match x.icBlock with
  | some k => decide (k * 65536 ≤ x.icNext) && decide (x.icNext < (k + 1) * 65536)
  | none => false

/-- The block to reserve next. -/
def icBlockNext (x : Slot) : Nat := match x.icBlock with | some k => k + 1 | none => 0

/-- The slot has no value left and its next block would pass 0xFFFF_FFFF. -/
def icExhausted (x : Slot) : Bool := !icInHand x && decide (65535 < icBlockNext x)

/-- A block is reserved for a slot under its generation; the device that reserved it starts at its first value, the other
past its last. -/
def icReserved (n gen k : Nat) (own : Bool) (s : State) : State :=
  if (slot s n).gen = gen then
    commit (modSlot n (fun x => { x with icBlock := some k, icNext := if own then k * 65536 else (k + 1) * 65536 }) s)
  else s

/-- The item of a reservation (table Mirror items, kind 1). -/
def icItem (n gen k : Nat) : Bytes := le 4 n ++ le 2 gen ++ zeros 2 ++ le 4 k ++ zeros 4

/-- A slot without a value reserves its next block; acknowledged before use where a partner follows (R304). -/
def icReserve (n : Nat) (s : State) : State :=
  let x := slot s n
  let k := icBlockNext x
  if icInHand x ∨ 65535 < k then s
  else if mirrorNeeded s then
    if s.pair.mirror.any fun m => m.kind == 1 && field m.item 0 4 == n then s else queueItem 1 (icItem n x.gen k) false none s
  else icReserved n x.gen k true (queueItem 1 (icItem n x.gen k) true none s)

/-! ### Requests (assumption log 20) -/

/-- A length in BER form. -/
def berOf (n : Nat) : Bytes :=
  if n < 128 then le 1 n else if n < 256 then le 1 0x81 ++ be 1 n else if n < 65536 then le 1 0x82 ++ be 2 n else le 1 0x84 ++ be 4 n

/-- Invoke-id-and-priority of a command: high priority, confirmed. -/
def invokeId (i : Nat) : Bytes := le 1 (0xC0 + i % 16)

/-- The request of a command as its descriptor and payload give it; empty where it is made when it is sent. -/
def dlRequest (i : Nat) (desc payload : Bytes) : Bytes :=
  let a := desc.drop 24
  let target := be 2 (field a 4 2) ++ slice a 6 6 ++ slice a 12 1
  match field desc 0 2 with
  | 0x0F01 => le 1 0xC0 ++ le 1 1 ++ invokeId i ++ target ++ le 1 0
  | 0x0F02 => le 1 0xC1 ++ le 1 1 ++ invokeId i ++ target ++ le 1 0 ++ payload
  | 0x0F03 => le 1 0xC3 ++ le 1 1 ++ invokeId i ++ target ++ (if payload = [] then le 1 0 else le 1 1 ++ payload)
  | _ => []

/-- A COSEM date-time of an instant in TAI seconds, in legal time. -/
def cosemTime (z : Zone) (tai : Nat) : Bytes :=
  let l := legalS z tai
  let (y, m, d) := dateOf (l / 86400)
  let dst := dstAt z ((utcNs z (tai * nsPerS)) / nsPerS + z.std * 60)
  let off : Int := z.std + (if dst then (z.dst : Int) else 0)
  be 2 y ++ le 1 m ++ le 1 d ++ le 1 (weekdayOf (l / 86400)) ++ le 1 (l % 86400 / 3600) ++ le 1 (l % 3600 / 60) ++ le 1 (l % 60)
    ++ le 1 0 ++ be 2 (unsigned 2 (-off)) ++ le 1 (flag 7 dst)

/-- SET of the clock's time, made as it is sent. -/
def clockRequest (s : State) (i : Nat) : Option Bytes :=
  s.tim.zone.map fun z =>
    le 1 0xC1 ++ le 1 1 ++ invokeId i ++ be 2 8 ++ [0#8, 0#8, 1#8, 0#8, 0#8, 255#8] ++ le 1 2 ++ le 1 0 ++ le 1 9 ++ le 1 12
      ++ cosemTime z (tb2s s)

/-- ACTION key_transfer of the staged generation's keys, wrapped under the meter's KEK (R250). -/
def keyRequest (s : State) (n i : Nat) : Option Bytes :=
  let x := slot s n
  match x.staged, kekOf s x with
  | some g, some kek => (meterKey s x g).map fun k =>
      let one (id : Nat) (key : Bytes) : Bytes :=
        let w := Config.keyWrap kek key
        le 1 2 ++ le 1 2 ++ le 1 0x16 ++ le 1 id ++ le 1 9 ++ berOf w.length ++ w
      le 1 0xC3 ++ le 1 1 ++ invokeId i ++ be 2 64 ++ [0#8, 0#8, 43#8, 0#8, 0#8, 255#8] ++ le 1 2 ++ le 1 1
        ++ le 1 1 ++ le 1 2 ++ one 0 k.1 ++ one 2 k.2
  | _, _ => none

/-- The request of a command as it stands now. -/
def requestNow (s : State) (x : DlCmd) : Option Bytes :=
  if x.request ≠ [] then some x.request
  else if x.opcode = 0x0F04 then clockRequest s x.index
  else if x.opcode = 0x0F05 then keyRequest s x.slot x.index
  else none

/-- A request under general-glo-ciphering with the meter's ENCRYPT key and an invocation counter (R147, R342). -/
def cipherFor (s : State) (x : Slot) (ic : Nat) (pt : Bytes) : Option Bytes :=
  (meterKey s x x.gen).map fun k =>
    let title := slice (Config.clientTitle s.dev.fit.serial) 0 8
    let control := le 1 (0x30 + x.suite)
    let body := control ++ be 4 ic ++ slice (Config.gcmSeal k.1 (title ++ be 4 ic) (control ++ k.2) pt) 0 (pt.length + 12)
    le 1 0xDB ++ le 1 8 ++ title ++ berOf body.length ++ body

/-! ### Where a meter is reached -/

/-- Relay addresses on the way to an address, the nearest to the device first. -/
def pathTo (net : HrNet) : Nat → Nat → List Nat
  | 0, _ => []
  | fuel + 1, a =>
    let parent := match Tbl.get net.routes a with
      | some r => r.parent
      | none => (Tbl.getD net.neigh a {}).parent
    match parent with
    | none => []
    | some p => pathTo net fuel p ++ [p]

/-- The Hedgerow network that holds a slot's meter. -/
def hrNetOf (s : State) (n : Nat) : Option Nat := (s.hr.find? fun p => (Tbl.get p.2.neigh n).isSome).map Prod.fst

/-- The table of a network. -/
def hrNet (s : State) (net : Nat) : HrNet := Tbl.getD s.hr net {}

/-- A network changed. -/
def modNet (net : Nat) (f : HrNet → HrNet) (s : State) : State := s.onHr fun h => Tbl.mod h net f

/-- A neighbour changed. -/
def modNeigh (net a : Nat) (f : Neigh → Neigh) (s : State) : State := modNet net (fun h => { h with neigh := Tbl.mod h.neigh a f }) s

/-- A device frame joins a network's queue with the next sequence of its first hop; its backoff begins (R105, R106). -/
def hrSendTo (net type dest a : Nat) (via : List Nat) (payload : Bytes) (owner lc : Option Nat) (s : State) : State :=
  let seq := (Tbl.getD (hrNet s net).neigh dest {}).txSeq
  let t : HrTx := { dest, type, seq, endAddr := a, payload, owner, via, lc, since := tb4 s, draw := s.free }
  (modNeigh net dest (fun x => { x with txSeq := x.txSeq + 1 }) (modNet net (fun h => { h with tx := h.tx ++ [t] }) s)).draw

/-- A device frame to an address, along the relays on its way (R117). -/
def hrQueue (net type a : Nat) (payload : Bytes) (owner : Option Nat) (s : State) : State :=
  let relays := pathTo (hrNet s net) 10 a
  hrSendTo net type (relays.headD a) a relays payload owner none s

/-- A command's APDU loses its place. -/
def dlUnplace (i : Nat) (s : State) : State :=
  ((s.onHr fun h => Tbl.mapVals h fun _ n => { n with tx := n.tx.filter fun t => t.owner != some i }).onBr fun b =>
    { b with conns := Tbl.mapVals b.conns fun _ c => { c with down := c.down.filter fun d => d.1 != i } }).onDl fun d =>
    { d with queue := d.queue.filter fun q => q.owner != some i }

/-- An APDU takes its place: the queue of core role (R418), the Hedgerow network of the meter, or its Bramble connection;
none while the meter is reached by none of them. -/
def dlPlace (n i : Nat) (apdu : Bytes) (s : State) : Option State :=
  if s.dev.core then
    some (s.onDl fun d => { d with queue := d.queue ++ [{ seq := d.seq + 1, slot := n, apdu, owner := some i }], seq := d.seq + 1 })
  else
    match hrNetOf s n with
    | some net => some (hrQueue net 1 n apdu (some i) s)
    | none =>
      match conn s n with
      | some c => if c.terminating.isSome then none else some (modConn n (fun c => { c with down := c.down ++ [(i, apdu, 0)] }) s)
      | none => none

/-! ### Commands in progress (R306, R416) -/

/-- A command by its index. -/
def dlCmd (s : State) (i : Nat) : Option DlCmd := s.dl.cmds.find? fun x => x.index == i

/-- A command changed. -/
def modCmd (i : Nat) (f : DlCmd → DlCmd) (s : State) : State :=
  s.onDl fun d => { d with cmds := d.cmds.map fun x => if x.index = i then f x else x }

/-- A command that may be sent takes an invocation counter and its place; it waits while it may not be sent, the meter is
not reached, no key is had, none being asked for in a transparent shard (R161), or no counter is in hand. -/
def dlTry (i : Nat) (s : State) : State :=
  match dlCmd s i with
  | none => s
  | some x =>
    let k := slot s x.slot
    if x.ready ∧ maySend s ∧ ¬ bare s (shardOf x.slot) ∧ (shard s (shardOf x.slot)).state = .held ∧ k.state ≠ .empty ∧ ¬ x.out then
      let s1 := icReserve x.slot s
      let k1 := slot s1 x.slot
      if ¬ icInHand k1 then s1
      else
        match requestNow s1 x with
        | none => s1
        | some pt =>
          match cipherFor s1 k1 k1.icNext pt with
          | none => s1
          | some apdu =>
            match dlPlace x.slot i apdu s1 with
            | none => s1
            | some s2 => modCmd i (fun y => { y with out := true }) (modSlot x.slot (fun y => { y with icNext := y.icNext + 1 }) s2)
    else s

/-- Every command of a slot is tried again. -/
def dlPump (n : Nat) (s : State) : State := ((s.dl.cmds.filter fun x => x.slot == n).map fun x => x.index).foldl (fun t i => dlTry i t) s

/-- Every command is tried again. -/
def dlPumpAll (s : State) : State := (s.dl.cmds.map fun x => x.index).foldl (fun t i => dlTry i t) s

/-- A command's APDU has lost its place undelivered: it is tried again when it may be. -/
def dlLost (owner : Nat) (s : State) : State := modCmd owner (fun x => { x with out := false }) s

/-- Every command without an outcome starts again with a fresh counter (R306). -/
def dlResume (s : State) : State :=
  dlPumpAll (s.dl.cmds.foldl (fun t x => dlLost x.index (dlUnplace x.index t)) s)

/-- The first request of a command has been sent. -/
def dlSent (owner : Option Nat) (s : State) : State :=
  match owner with
  | some i => modCmd i (fun x => { x with sent := true }) s
  | none => s

/-- The item of a command (table Mirror items, kind 2). -/
def dlItem (origin : Word × Word × Word) (slotN state outcome result asn : Nat) (desc payload : Bytes) : Bytes :=
  le 4 origin.1.toNat ++ le 4 origin.2.1.toNat ++ le 4 origin.2.2.toNat ++ le 4 slotN ++ le 1 state ++ le 1 outcome ++ le 1 result
    ++ zeros 1 ++ le 8 asn ++ slice desc 0 64 ++ le 4 payload.length ++ payload

/-- A campaign request's origin: no device; its step and its campaign. -/
def ofCampaign (step c : Nat) : Word × Word × Word := (0#32, BitVec.ofNat 32 step, BitVec.ofNat 32 c)

/-! ### Meter images (R339) -/

/-- Whole bytes stored of a meter image. -/
def imageWhole (m : MeterImg) : Bytes := (m.blocks.flatMap fun b => b.2).take m.length

/-- The image proper: between the 128 B header and the 1,280 B signature. -/
def imageContent (m : MeterImg) : Bytes := slice (imageWhole m) 128 (m.length - 1408)

/-- Every block of the length named has been received. -/
def imageComplete (m : MeterImg) : Bool := m.blocks.length == ceilDiv m.length 4096

/-- The signature under slot 2 verifies over the stored image. -/
def imageGood (s : State) (m : MeterImg) : Bool :=
  decide (1408 < m.length) && imageComplete m &&
    verifyUnder s 2 (ascii "KHMIMG" ++ slice (imageWhole m) 0 128 ++ hashBytes (Config.hash (imageContent m)))
      (slice (imageWhole m) (m.length - 1280) 1280)

/-! ### Campaigns (R340 to R343) -/

/-- A campaign. -/
def campaign (s : State) (c : Nat) : Option Campaign := Tbl.get s.dl.campaigns c

/-- A campaign changed. -/
def modCampaign (c : Nat) (f : Campaign → Campaign) (s : State) : State :=
  s.onDl fun d => { d with campaigns := Tbl.mod d.campaigns c f }

/-- A meter of a campaign: phase, status, failed requests in a row. -/
def campMeter (g : Campaign) (n : Nat) : Option (Nat × Nat × Nat) := (g.slots.find? fun x => x.1 == n).map Prod.snd

/-- A meter of a campaign changed. -/
def modMeter (c n : Nat) (f : Nat × Nat × Nat → Nat × Nat × Nat) (s : State) : State :=
  modCampaign c (fun g => { g with slots := g.slots.map fun x => if x.1 = n then (n, f x.2) else x }) s

/-- Phases (table Meter phases, R417). -/
def phTransfer : Nat := 1
def phVerify : Nat := 2
def phReady : Nat := 3
def phActivate : Nat := 4
def phDone : Nat := 5
def phFailed : Nat := 6

/-- A slot is an unfinished meter of a running image campaign. -/
def inCampaign (s : State) (n : Nat) : Option Campaign :=
  (s.dl.campaigns.find? fun p => !p.2.ended && !p.2.calendar && p.2.slots.any fun x => x.1 == n && decide (x.2.1 < phDone)).map Prod.snd

/-- A slot belongs to a running campaign. -/
def inAnyCampaign (s : State) (n : Nat) : Bool :=
  s.dl.campaigns.any fun p => !p.2.ended && p.2.slots.any fun x => x.1 == n && decide (x.2.1 < phDone)

/-- A Bramble meter of a campaign moves to the campaign interval, its timeout at least three intervals, and back when it
leaves the campaign (R341). -/
def brCampaign (n : Nat) (s : State) : State :=
  match conn s n with
  | none => s
  | some x =>
    if x.state ≠ .connected ∨ x.update.isSome then s
    else
      match inCampaign s n, x.restore with
      | some g, none =>
        startUpdate n { x.params with interval := g.interval, timeout := max x.params.timeout (ceilDiv (3 * g.interval) 4) }
          (modConn n (fun y => { y with restore := some y.params }) s)
      | none, some p => startUpdate n p (modConn n (fun y => { y with restore := none }) s)
      | _, _ => s

/-- COSEM instance of the image transfer. -/
def imageObis : Bytes := [0#8, 0#8, 44#8, 0#8, 0#8, 255#8]

/-- image_block_transfer's parameters for a block. -/
def blockParams (g : Campaign) (m : MeterImg) (b : Nat) : Bytes :=
  let data := ((imageContent m).drop (b * g.block)).take g.block
  le 1 2 ++ le 1 2 ++ le 1 6 ++ be 4 b ++ le 1 9 ++ berOf data.length ++ data

/-- The request of a step of an image campaign: 0 initiate, 2 read the blocks' status, 3 one block, 4 verify, 5 and 9 read the
status, 8 activate. -/
def imageRequest (g : Campaign) (m : MeterImg) (i step : Nat) (rest : Bytes) : Bytes :=
  let get (attr : Nat) : Bytes := le 1 0xC0 ++ le 1 1 ++ invokeId i ++ be 2 18 ++ imageObis ++ le 1 attr ++ le 1 0
  let act (method : Nat) (params : Bytes) : Bytes :=
    le 1 0xC3 ++ le 1 1 ++ invokeId i ++ be 2 18 ++ imageObis ++ le 1 method ++ le 1 1 ++ params
  let id := Config.imageIdentifier (slice (imageWhole m) 0 128)
  match step with
  | 0 => act 1 (le 1 2 ++ le 1 2 ++ le 1 9 ++ berOf id.length ++ id ++ le 1 6 ++ be 4 (imageContent m).length)
  | 2 => get 3
  | 3 => act 2 (blockParams g m (field rest 0 4))
  | 4 => act 3 (le 1 0x0F ++ le 1 0)
  | 8 => act 4 (le 1 0x0F ++ le 1 0)
  | _ => get 6

/-- What a calendar push carries for a content bit: the list in force, or the calendar (R417). -/
def pushRecord (s : State) (p bit : Nat) : Option Bytes :=
  match Tbl.get s.tar.plans p with
  | none => none
  | some x => if bit = 0 then x.active.map fun l => l.bytes else x.calendar.map fun l => l.bytes

/-- The content bits of a push that have something active behind them, rising. -/
def pushBits (s : State) (p content : Nat) : List Nat :=
  [0, 1, 2].filter fun b => content / 2 ^ b % 2 == 1 && (pushRecord s p b).isSome

/-- The slot's association opens, unless it is open: its dedicated key is drawn from the TRNG, in a table of 4,096 entries (R250). The
manual names no event that opens or closes one: the model has it open while a unicast command of the slot is in progress (DESIGN
CHOICE, assumption log 12). -/
def openAssociation (n : Nat) (s : State) : State :=
  if (Tbl.get s.vlt.dedicated n).isSome ∨ 4096 ≤ s.vlt.dedicated.length ∨ s.vlt.trngFailed then s
  else trngStep (s.onVlt fun v => { v with dedicated := Tbl.put v.dedicated n v.draws })

/-- The slot's association closes once none of its commands is in progress, and its dedicated key is discarded (R250). -/
def closeAssociation (n : Nat) (s : State) : State :=
  if s.dl.cmds.any fun x => x.slot == n then s else s.onVlt fun v => { v with dedicated := Tbl.del v.dedicated n }

/-- A campaign's request to a meter joins the commands in progress and is tried. -/
def campSend (c n step : Nat) (rest : Bytes) (s : State) : State :=
  match campaign s c with
  | none => s
  | some g =>
    let i := s.dl.count
    let req :=
      if g.calendar then Config.calendarPush (invokeId i) step ((pushRecord s g.image step).getD [])
      else match Tbl.get s.dl.images g.image with
        | some m => imageRequest g m i step rest
        | none => []
    let x : DlCmd :=
      { index := i, origin := ofCampaign step c, ring := 0, slot := n, opcode := if g.calendar then 0x0F06 else 0x0F0A,
        request := req, expiry := 0, ready := true, sent := false, adopted := false, desc := rest }
    dlTry i (openAssociation x.slot (s.onDl fun d => { d with cmds := d.cmds ++ [x], count := d.count + 1 }))

/-- A campaign's requests in progress are dropped. -/
def dropRequests (c : Nat) (s : State) : State :=
  let mine := s.dl.cmds.filter fun x => x.origin.1 == 0#32 && x.origin.2.2 == BitVec.ofNat 32 c
  mine.foldl (fun t x => dlUnplace x.index t)
    (mine.foldl (fun t x => closeAssociation x.slot t)
      (s.onDl fun d => { d with cmds := d.cmds.filter fun x => !(x.origin.1 == 0#32 && x.origin.2.2 == BitVec.ofNat 32 c) }))

/-- A campaign has ended: mirrored, and its Bramble meters return to their intervals. -/
def campClosed (c : Nat) (s : State) : State :=
  match campaign s c with
  | none => s
  | some g =>
    let s1 := dropRequests c (modCampaign c (fun g => { g with ended := true }) s)
    let s2 := (g.slots.map Prod.fst).foldl (fun t n => brCampaign n t) s1
    if holdsToken s2 then
      queueItem 2 (dlItem g.origin 0xFFFFFFFF 1 0 0 0 g.desc []) (!mirrorNeeded s2) none s2
    else s2

/-- A campaign ends with its counts (R344). -/
def campReport (c : Nat) (g : Campaign) (s : State) : State :=
  let done := (g.slots.filter fun x => x.2.1 == phDone).length
  let failed := (g.slots.filter fun x => x.2.1 == phFailed).length
  report 0x5012 kDevice 0 (le 1 c ++ zeros 3 ++ le 4 done ++ le 4 failed) 0x0F12 3 c (le 4 done ++ le 4 failed) (campClosed c s)

/-- A campaign whose meters have all finished ends. -/
def campEnd (c : Nat) (s : State) : State :=
  match campaign s c with
  | none => s
  | some g => if ¬ g.ended ∧ g.slots.all fun x => decide (phDone ≤ x.2.1) then campReport c g s else s

/-- A meter reaches its end in a campaign. -/
def campMeterEnd (c n phase : Nat) (s : State) : State :=
  campEnd c (brCampaign n (modMeter c n (fun x => (phase, x.2.1, 0)) s))

/-- A campaign whose stored image no longer verifies ends, before any block of it is sent (R339). -/
def campInvalid (c : Nat) (s : State) : State := report 0x5011 kDevice 0 (le 1 c) 0x0F11 1 c (le 1 c) (campClosed c s)

/-- The image of a campaign verifies as stored. -/
def campImageGood (s : State) (g : Campaign) : Bool := match Tbl.get s.dl.images g.image with | some m => imageGood s m | none => false

/-- Multicast rounds of a campaign still to run in the network of a meter. -/
def roundsLeft (s : State) (g : Campaign) (n : Nat) : Nat :=
  match hrNetOf s n with
  | some net => g.rounds - Tbl.getD g.roundsDone net 0
  | none => 0

/-- A meter goes on to its gap-fill: the image is checked, then its blocks' status read. -/
def campGapFill (c n : Nat) (s : State) : State :=
  match campaign s c with
  | none => s
  | some g => if campImageGood s g then campSend c n 2 [] s else campInvalid c s

/-- A READY meter is activated once the campaign's instant has come; an instant of 0 has (R415). -/
def campReady (c n : Nat) (s : State) : State :=
  match campaign s c with
  | none => s
  | some g =>
    match g.activation with
    | some t => if t == 0 || (tb3Valid s && decide (t * nsPerS ≤ tb3 s)) then campSend c n 8 [] (modMeter c n (fun x => (phActivate, x.2)) s) else s
    | none => s

/-- Blocks a status bit-string shows as not transferred, 4 B each; none where the value is no bit-string. -/
def missingBlocks (total : Nat) (value : Bytes) : Option Bytes :=
  match value with
  | [] => none
  | tag :: rest =>
    if tag ≠ 4#8 then none
    else
      match berLength rest with
      | none => none
      | some (n, bs) =>
        some (((List.range total).filter fun i => !(decide (i < n) && ((bs.getD (i / 8) 0#8).getLsbD (7 - i % 8)))).flatMap fun i => le 4 i)

/-- The value of an enumeration. -/
def enumOf (value : Bytes) : Option Nat := if value.head? = some 0x16#8 then some (field value 1 1) else none

/-- A meter has answered a campaign's request (table Meter phases). -/
def campAdvance (c n step result : Nat) (value rest : Bytes) (s0 : State) : State :=
  let s := modMeter c n (fun x => (x.1, x.2.1, 0)) s0
  match campaign s c with
  | none => s
  | some g =>
    if g.calendar then
      if result ≠ 0 then campMeterEnd c n phFailed s
      else match (pushBits s g.image g.content).find? fun b => decide (step < b) with
        | some b => campSend c n b [] s
        | none => campMeterEnd c n phDone s
    else
      match step with
      | 0 =>
        let s1 := modMeter c n (fun x => (phTransfer, x.2)) s
        if roundsLeft s1 g n = 0 then campGapFill c n s1 else s1
      | 2 =>
        let total := match Tbl.get s.dl.images g.image with | some m => ceilDiv (imageContent m).length g.block | none => 0
        match missingBlocks total value with
        | none => campSend c n 2 [] s
        | some [] => campSend c n 4 [] (modMeter c n (fun x => (phVerify, x.2)) s)
        | some l => campSend c n 3 l s
      | 3 => if rest.length ≤ 4 then campSend c n 2 [] s else campSend c n 3 (rest.drop 4) s
      | 4 => campSend c n 5 [] s
      | 8 => campSend c n 9 [] s
      | _ =>
        match enumOf value with
        | none => campSend c n step [] s
        | some v =>
          let s1 := modMeter c n (fun x => (x.1, v, x.2.2)) s
          if step = 5 ∧ v = 3 then campReady c n (modMeter c n (fun x => (phReady, x.2)) s1)
          else if step = 9 ∧ v = 6 then campMeterEnd c n phDone s1
          else if (step = 5 ∧ v = 4) ∨ (step = 9 ∧ v = 7) then campMeterEnd c n phFailed s1
          else campSend c n step [] s1

/-- A campaign's request has exhausted its retries: three in a row end the meter's part (table Meter phases). -/
def campRetry (c n step : Nat) (rest : Bytes) (s : State) : State :=
  let s1 := modMeter c n (fun x => (x.1, x.2.1, x.2.2 + 1)) s
  match campaign s1 c with
  | none => s1
  | some g =>
    match campMeter g n with
    | some (_, _, k) => if 3 ≤ k then campMeterEnd c n phFailed s1 else campSend c n step rest s1
    | none => s1

/-- A campaign starts every meter of its list (R340). -/
def campBegin (c : Nat) (s : State) : State :=
  match campaign s c with
  | none => s
  | some g =>
    let s1 := report 0x5010 kDevice 0 (le 1 c) 0x0F10 3 c (le 1 c) s
    if ¬ g.calendar ∧ ¬ campImageGood s1 g then campInvalid c s1
    else
      let first := if g.calendar then (pushBits s1 g.image g.content).headD 0 else 0
      campEnd c (g.slots.foldl (fun t x =>
        if (slot t x.1).state = .empty then campMeterEnd c x.1 phFailed t else campSend c x.1 first [] (brCampaign x.1 t)) s1)

/-- An unfinished campaign is resumed by a device that takes the token: every unfinished meter at its phase, whose first request goes
again, attribute 3 read before any block (R306, R343). -/
def campResume (c : Nat) (s : State) : State :=
  match campaign s c with
  | none => s
  | some g =>
    if g.ended then s
    else g.slots.foldl (fun t x =>
      let (n, phase, _, _) := x
      if phDone ≤ phase then t
      else if g.calendar then campSend c n ((pushBits t g.image g.content).headD 0) [] t
      else if phase = 0 then campSend c n 0 [] t
      else if phase = phTransfer then (if roundsLeft t g n = 0 then campGapFill c n t else t)
      else if phase = phVerify then campSend c n 4 [] t
      else if phase = phReady then campReady c n t
      else campSend c n 8 [] t) s

/-- The number of a new campaign: the lowest no campaign has, or the lowest that has ended (assumption log 24). -/
def campNumber (s : State) : Nat :=
  match (List.range 256).find? fun c => (campaign s c).isNone with
  | some c => c
  | none => ((List.range 256).find? fun c => match campaign s c with | some g => g.ended | none => false).getD 0

/-- Campaigns running. -/
def campsRunning (s : State) : Nat := (s.dl.campaigns.filter fun p => !p.2.ended).length

/-- The campaign a descriptor and its payload ask for. -/
def campOf (s : State) (origin : Word × Word × Word) (desc payload : Bytes) : Campaign :=
  let a := desc.drop 24
  if field desc 0 2 = 0x0F06 then
    { calendar := true, image := field payload 0 1, rounds := 0, block := 0, interval := 0, activation := none,
      content := field payload 1 1,
      slots := (s.met.slots.filter fun p => p.2.state == .active && p.2.plan == field payload 0 1).map fun p => (p.1, 0, 0, 0),
      ended := false, roundsDone := [], origin, desc }
  else
    { calendar := false, image := field a 0 1, rounds := field a 1 1, block := field a 2 2, interval := field a 4 4,
      activation := if field a 8 6 = 0 then none else some (field a 8 6), content := 0,
      slots := (List.range (payload.length / 4)).map fun i => (field payload (4 * i) 4 % 2 ^ 20, 0, 0, 0),
      ended := false, roundsDone := [], origin, desc }

/-- A campaign is entered; the token's holder starts it. -/
def campEnter (origin : Word × Word × Word) (desc payload : Bytes) (s : State) : State :=
  let c := campNumber s
  let s1 := commit (s.onDl fun d => { d with campaigns := Tbl.put d.campaigns c (campOf s origin desc payload) })
  if holdsToken s1 then campBegin c s1 else s1

/-- A running campaign of an origin. -/
def campOfOrigin (s : State) (origin : Word × Word × Word) : Option Nat :=
  (s.dl.campaigns.find? fun p => !p.2.ended && p.2.origin == origin).map Prod.fst

/-! ### Outcomes (R307, R416) -/

/-- The inline result of a unicast command. -/
def dlReply (outcome result asn : Nat) : Bytes := le 1 outcome ++ le 1 result ++ zeros 2 ++ le 8 asn

/-- An adopted command's outcome enters its table of 4,096, the oldest overwritten (R307). -/
def adopt (x : DlCmd) (outcome result asn : Nat) (s : State) : State :=
  let e : Adopted := { origin := x.origin, slot := x.slot, outcome := (outcome, result), asn, at_ := tb7 s }
  let l := s.dl.adopted ++ [e]
  let data := le 4 x.origin.1.toNat ++ le 4 x.origin.2.1.toNat ++ le 4 x.origin.2.2.toNat
  report 0x7012 kSlot x.slot (data ++ le 1 outcome ++ le 1 result) 0x0E07 2 x.slot (le 4 x.origin.1.toNat ++ le 4 x.origin.2.2.toNat)
    (commit (s.onDl fun d => { d with adopted := l.drop (l.length - 4096) }))

/-- A command's outcome is known: its APDU leaves its place, and its completion, the adopted table or the campaign takes the
outcome. -/
def dlFinish (i outcome result asn : Nat) (value : Bytes) (s : State) : State :=
  match dlCmd s i with
  | none => s
  | some x =>
    let s1 := closeAssociation x.slot ((dlUnplace i s).onDl fun d => { d with cmds := d.cmds.filter fun y => y.index != i })
    if x.origin.1 = 0#32 then
      let step := x.origin.2.1.toNat
      let c := x.origin.2.2.toNat
      if outcome ≤ 1 then campAdvance c x.slot step result value x.desc s1
      else if outcome = 2 then campRetry c x.slot step x.desc s1
      else campMeterEnd c x.slot phFailed s1
    else
      let item := dlItem x.origin x.slot 1 outcome result asn x.desc []
      let wait := mirrorNeeded s1
      if x.adopted then queueItem 2 item (!wait) none (adopt x outcome result asn s1)
      else if wait then queueItem 2 item false (some (x.ring, x.origin.2.1, x.origin.2.2, dlReply outcome result asn)) s1
      else
        queueItem 2 item true none
          (finishRunning x.origin.2.1 x.origin.2.2 (plain x.origin.2.2 stDone (dlReply outcome result asn)) (commit s1))

/-- The MAC gave up a command's frame. -/
def dlExhausted (owner : Option Nat) (s : State) : State :=
  match owner with
  | some i => dlFinish i 2 0 0 [] s
  | none => s

/-- A slot leaves: its commands end with outcome 4 and its campaigns count it FAILED (R340, R416). -/
def dlSlotRemoved (n : Nat) (s : State) : State :=
  let s1 := ((s.dl.cmds.filter fun x => x.slot == n).map fun x => x.index).foldl (fun t i => dlFinish i 4 0 0 [] t) s
  s1.dl.campaigns.foldl (fun t p =>
    match campMeter p.2 n with
    | some (phase, _, _) => if !p.2.ended && decide (phase < phDone) then campMeterEnd p.1 n phFailed t else t
    | none => t) s1

/-! ### Answers (R152) -/

/-- The command a meter's answer belongs to: of its slot, sent, with the answer's invoke-id. -/
def dlAnswered (s : State) (n invoke : Nat) : Option DlCmd :=
  s.dl.cmds.find? fun x => x.slot == n && x.sent && x.index % 16 == invoke % 16

/-- An answer gives a command its DLMS result, and the value where it carries one; only the token's holder judges it (R307). -/
def dlResult (n invoke result asn : Nat) (value : Bytes) (s : State) : State :=
  match dlAnswered s n invoke with
  | some x => if maySend s then dlFinish x.index (if result = 0 then 0 else 1) result asn value s else s
  | none => s

/-- A datablock of an answer: the last gives the result, an earlier one is followed by a request for the next. -/
def dlBlock (n invoke : Nat) (last : Bool) (number result asn : Nat) (raw : Bytes) (s : State) : State :=
  match dlAnswered s n invoke with
  | none => s
  | some x =>
    if ¬ maySend s then s
    else if last ∨ result ≠ 0 then dlFinish x.index (if result = 0 then 0 else 1) result asn (x.got ++ raw) s
    else
      dlTry x.index (modCmd x.index (fun y =>
        { y with got := y.got ++ raw, out := false, request := le 1 0xC0 ++ le 1 2 ++ invokeId y.index ++ be 4 number })
        (dlUnplace x.index s))

/-! ### A command enters, on either device (R304, R306) -/

/-- The slot a downlink descriptor names: bits 31..20 of the word are ignored (R18). -/
def descSlot (desc : Bytes) : Nat := field desc 24 4 % 2 ^ 20

/-- The expiry a downlink descriptor names, s. -/
def descExpiry (desc : Bytes) : Nat :=
  if field desc 0 2 = 0x0F04 ∨ field desc 0 2 = 0x0F05 then field desc 28 4 else field desc 38 4

/-- A unicast command joins those in progress. -/
def dlEnter (origin : Word × Word × Word) (ringN : Nat) (ready adopted : Bool) (desc payload : Bytes) (s : State) : State :=
  let i := s.dl.count
  let x : DlCmd :=
    { index := i, origin, ring := ringN, slot := descSlot desc, opcode := field desc 0 2, request := dlRequest i desc payload,
      expiry := tb7 s + descExpiry desc * nsPerS, ready, sent := false, adopted, desc }
  dlTry i (openAssociation x.slot (s.onDl fun d => { d with cmds := d.cmds ++ [x], count := d.count + 1 }))

/-- A command of an origin that is in progress. -/
def dlOfOrigin (s : State) (origin : Word × Word × Word) : Option DlCmd := s.dl.cmds.find? fun x => x.origin == origin

/-- DOWNLINK_CANCEL takes effect where the token is held (R397). -/
def cancelNow (target : Word × Word × Word) (s : State) : State :=
  match dlOfOrigin s target with
  | some x => if holdsToken s then dlFinish x.index 5 0 0 [] s else s
  | none => s

/-- CAMPAIGN_ABORT takes effect (R397). -/
def abortNow (c : Nat) (s : State) : State :=
  match campaign s c with
  | some g => if g.ended then s else campReport c g s
  | none => s

/-- CAMPAIGN_ACTIVATE takes effect: the instant is set and READY meters go on where it has come. -/
def activateNow (c t : Nat) (s : State) : State :=
  match campaign s c with
  | some g =>
    if g.ended ∨ g.activation.isSome then s
    else
      let s1 := modCampaign c (fun g => { g with activation := some t }) s
      if holdsToken s1 then (g.slots.filter fun x => x.2.1 == phReady).foldl (fun u x => campReady c x.1 u) s1 else s1
  | none => s

/-- A kind 2 item is used: on the device that sent it once it is acknowledged, on the partner as it arrives (R304, R307). -/
def dlUse (own : Bool) (item : Bytes) (s : State) : State :=
  let w (o : Nat) : Word := BitVec.ofNat 32 (field item o 4)
  let origin := (w 0, w 4, w 8)
  let desc := slice item 28 64
  let payload := slice item 96 (field item 92 4)
  let op := field desc 0 2
  if field item 16 1 = 0 then
    if op = 0x0F0E then cancelNow (w 0, w 4, w 52) s
    else if op = 0x0F0D then abortNow (field desc 24 1) s
    else if op = 0x0F0C then activateNow (field desc 24 1) (field desc 26 6) s
    else if op = 0x0F06 ∨ op = 0x0F0A then campEnter origin desc payload s
    else if own then
      match dlOfOrigin s origin with
      | some x => dlTry x.index (modCmd x.index (fun y => { y with ready := true }) s)
      | none => s
    else dlEnter origin 0 true true desc payload s
  else if own then s
  else if field item 12 4 = 0xFFFFFFFF then
    match campOfOrigin s origin with
    | some c => dropRequests c (modCampaign c (fun g => { g with ended := true }) s)
    | none => s
  else
    match dlOfOrigin s origin with
    | none => s
    | some x =>
      let s1 := closeAssociation x.slot ((dlUnplace x.index s).onDl fun d => { d with cmds := d.cmds.filter fun y => y.index != x.index })
      if x.adopted then s1
      else finishRunning (w 4) (w 8) (plain (w 8) stDone (dlReply (field item 17 1) (field item 18 1) (field item 20 8))) (commit s1)

end Sys2Proof.Machine
end

