-- ==== Sys2Proof/Machine/DownlinkCmds.lean ====
section
/-!
DEFINITION. The commands of the downlink group and the events of campaigns and pending commands (R339 to R343, R397, R415 to R418).
-/

namespace Sys2Proof.Machine

/-! ### LINK_UPDATE-class (R397) -/

/-- A device of a pair without the token turns LINK_UPDATE-class commands away. -/
def linkClass (s : State) (rest : Option Nat) : Option Nat := orElse (holdsToken s) stStateConflict rest

/-- A slot without counters is turned away. -/
def icLeft (s : State) (n : Nat) (rest : Option Nat) : Option Nat := orElse (!icExhausted (slot s n)) stStateConflict rest

/-- A descriptor as its 64 bytes (table Descriptor). -/
def descBytes (opcode : Nat) (d : Desc) : Bytes :=
  le 2 opcode ++ le 2 d.flags.toNat ++ le 4 d.tag.toNat ++ le 4 d.session.toNat ++ le 4 d.plen.toNat ++ le 8 d.paddr.toNat
    ++ slice d.inline 0 40

/-- The origin of a command of this device. -/
def originOf (s : State) (d : Desc) : Word × Word × Word := (s.dev.deviceId, d.session, d.tag)

/-! ### Unicast commands (R416) -/

/-- A unicast command joins those in progress; its completion comes with its outcome. -/
def unicastAct (opcode : Nat) (c : Ctx) (s : State) : Reply × State :=
  let desc := descBytes opcode c.d
  let o := originOf s c.d
  let wait := mirrorNeeded s
  let item := dlItem o (descSlot desc) 0 0 0 0 desc c.payload
  (.later, dlEnter o c.d.ring.val (!wait) false desc c.payload (queueItem 2 item (!wait) none s))

/-- An expiry of 1 to 172,800 s. -/
def expiryOk (c : Ctx) (off : Nat) : Bool := decide (1 ≤ c.arg off 4) && decide (c.arg off 4 ≤ 172800)

/-- A unicast command of an opcode, its payload length and expiry offset; it needs an ACTIVE slot. -/
def unicastDef (opcode off : Nat) (lens : Nat → Bool) : CmdDef :=
  { opcode, role := fun _ => .oper
    lenOk := fun _ _ n => lens n
    args := fun s c => orElse (expiryOk c off) stBadArgument (slotExists s c none)
    state := fun s c => linkClass s (orElse (decide ((slot s c.slotArg).state = .active)) stStateConflict (icLeft s c.slotArg none))
    act := unicastAct opcode }

def meterGetDef : CmdDef := unicastDef 0x0F01 14 fun n => n == 0
def meterSetDef : CmdDef := unicastDef 0x0F02 14 fun n => decide (1 ≤ n) && decide (n ≤ 1024)
def meterActionDef : CmdDef := unicastDef 0x0F03 14 fun n => decide (n ≤ 1024)
def meterClockSetDef : CmdDef := unicastDef 0x0F04 4 fun n => n == 0

/-- KEY_TRANSFER (R250): a staged generation and a KEK. -/
def keyTransferDef : CmdDef :=
  { unicastDef 0x0F05 4 (fun n => n == 0) with
    state := fun s c =>
      let x := slot s c.slotArg
      linkClass s (orElse (inUse s c.slotArg && x.staged.isSome && (kekOf s x).isSome) stStateConflict (icLeft s c.slotArg none)) }

/-! ### Campaigns -/

/-- A campaign command starts its campaign at once or after the partner's acknowledgement. -/
def campAct (opcode : Nat) (c : Ctx) (s : State) : Reply × State :=
  let desc := descBytes opcode c.d
  let o := originOf s c.d
  mirrorCmd 2 (dlItem o 0xFFFFFFFF 0 0 0 0 desc c.payload) c (le 1 (campNumber s)) (campEnter o desc c.payload) s

/-- The object new campaigns share, so that they take their numbers one after the other (R396). -/
def newCampaign : List (Nat × Nat) := [(10, 256)]

/-- A campaign's object. -/
def campObject (c : Ctx) : List (Nat × Nat) := [(10, c.arg 0 1)]

/-- CALENDAR_PUSH (R417). -/
def calendarPushDef : CmdDef :=
  { opcode := 0x0F06, role := fun _ => .signed
    lenOk := fun _ _ n => n == 4
    state := fun s c =>
      linkClass s (orElse (!(pushBits s (c.arg 0 1) (c.arg 1 1)).isEmpty
        && !(slotsOfPlan s (c.arg 0 1)).any fun n => icExhausted (slot s n)) stStateConflict none)
    res := fun s _ => orFail (decide (campsRunning s < 4)) stNoResource
    objects := fun _ _ => newCampaign
    act := campAct 0x0F06 }

/-- The slots a CAMPAIGN_START lists. -/
def listedSlots (c : Ctx) : List Nat := (List.range (c.payload.length / 4)).map fun i => field c.payload (4 * i) 4 % 2 ^ 20

/-- A meter image is usable. -/
def imageUsable (s : State) (k : Nat) : Bool := match Tbl.get s.dl.images k with | some m => m.usable | none => false

/-- CAMPAIGN_START (R340). -/
def campaignStartDef : CmdDef :=
  { opcode := 0x0F0A, role := fun _ => .oper
    lenOk := fun _ _ n => n % 4 == 0 && decide (4 ≤ n) && decide (n ≤ 262144)
    args := fun s c =>
      orElse (decide (c.arg 0 1 ≤ 7) && decide (c.arg 1 1 ≤ 4) && decide (128 ≤ c.arg 2 2) && decide (c.arg 2 2 ≤ 896)
        && decide (30 ≤ c.arg 4 4) && decide (c.arg 4 4 ≤ 57600000) && decide (listedSlots c).Nodup) stBadArgument
        (orFail ((listedSlots c).all fun n => shardExists s (shardOf n)) stOutOfRange)
    state := fun s c =>
      linkClass s (orFail (imageUsable s (c.arg 0 1)
        && (listedSlots c).all fun n => !inAnyCampaign s n && !icExhausted (slot s n)) stStateConflict)
    res := fun s _ => orFail (decide (campsRunning s < 4)) stNoResource
    objects := fun _ _ => newCampaign
    act := campAct 0x0F0A }

/-- A campaign's progress (R415). -/
def campStatusBytes (g : Campaign) (first : Nat) : Bytes :=
  let count (p : Nat) : Nat := (g.slots.filter fun x => x.2.1 == p).length
  le 1 (flag 0 g.calendar) ++ le 1 (flag 0 g.ended) ++ zeros 2 ++ le 4 g.slots.length ++ le 4 (count phDone) ++ le 4 (count phFailed)
    ++ ((g.slots.drop first).take 8192).flatMap fun x => le 4 x.1 ++ le 1 x.2.1 ++ le 1 x.2.2.1 ++ zeros 2

def campaignStatusDef : CmdDef :=
  { tokenRead 0x0F0B (fun s c => match campaign s (c.arg 0 1) with | some g => campStatusBytes g (c.arg 4 4) | none => []) with
    args := fun s c => orFail (campaign s (c.arg 0 1)).isSome stOutOfRange }

/-- A running campaign's property. -/
def campIs (s : State) (c : Ctx) (f : Campaign → Bool) : Bool := match campaign s (c.arg 0 1) with | some g => !g.ended && f g | none => false

/-- CAMPAIGN_ACTIVATE (R340). -/
def campaignActivateDef : CmdDef :=
  { opcode := 0x0F0C, role := fun _ => .oper
    state := fun s c => linkClass s (orFail (campIs s c fun g => !g.calendar && g.activation.isNone) stStateConflict)
    objects := fun _ c => campObject c
    act := fun c s =>
      mirrorCmd 2 (dlItem (originOf s c.d) 0xFFFFFFFF 0 0 0 0 (descBytes 0x0F0C c.d) []) c [] (activateNow (c.arg 0 1) (c.arg 2 6)) s }

/-- CAMPAIGN_ABORT, on either device of a pair (R397). -/
def campaignAbortDef : CmdDef :=
  { opcode := 0x0F0D, role := fun _ => .oper
    state := fun s c => orFail (campIs s c fun _ => true) stStateConflict
    objects := fun _ c => campObject c
    act := fun c s =>
      mirrorCmd 2 (dlItem (originOf s c.d) 0xFFFFFFFF 0 0 0 0 (descBytes 0x0F0D c.d) []) c [] (abortNow (c.arg 0 1)) s }

/-- The command a DOWNLINK_CANCEL names: one of its own session. -/
def cancelTarget (s : State) (c : Ctx) : Word × Word × Word := (s.dev.deviceId, c.d.session, BitVec.ofNat 32 (c.arg 0 4))

/-- DOWNLINK_CANCEL, on either device of a pair (R397). -/
def downlinkCancelDef : CmdDef :=
  { opcode := 0x0F0E, role := fun _ => .oper
    state := fun s c => orFail (match dlOfOrigin s (cancelTarget s c) with | some x => !x.sent | none => false) stStateConflict
    act := fun c s =>
      let n := match dlOfOrigin s (cancelTarget s c) with | some x => x.slot | none => 0
      mirrorCmd 2 (dlItem (originOf s c.d) n 0 0 0 0 (descBytes 0x0F0E c.d) []) c [] (cancelNow (cancelTarget s c)) s }

/-! ### Meter images (R339) -/

/-- The image is in a running campaign. -/
def imageBusy (s : State) (k : Nat) : Bool := s.dl.campaigns.any fun p => !p.2.ended && !p.2.calendar && p.2.image == k

def meterImageBeginDef : CmdDef :=
  { opcode := 0x0F07, role := fun _ => .oper
    args := fun _ c => orFail (decide (c.arg 0 1 ≤ 7) && decide (c.arg 4 4 ≤ 2 ^ 24)) stOutOfRange
    state := fun s c => orFail (!imageBusy s (c.arg 0 1)) stStateConflict
    objects := fun _ c => [(9, 2 + c.arg 0 1)]
    act := fun c s =>
      (.result [], s.onDl fun d => { d with images := Tbl.put d.images (c.arg 0 1) { length := c.arg 4 4, blocks := [], usable := false } }) }

/-- A block's length: 4,096 B, or the remainder at the last offset. -/
def blockLengthOk (total off n : Nat) : Bool := n == min 4096 (total - off) || (decide (total ≤ off) && n == 4096)

def meterImageBlockDef : CmdDef :=
  { opcode := 0x0F08, role := fun _ => .oper
    lenOk := fun s d n => match Tbl.get s.dl.images (inl d 0 1) with
      | some m => blockLengthOk m.length (inl d 4 4) n
      | none => n == 4096
    args := fun s c =>
      orElse (decide (c.arg 0 1 ≤ 7) && c.arg 4 4 % 4096 == 0
        && (match Tbl.get s.dl.images (c.arg 0 1) with | some m => decide (c.arg 4 4 < m.length) | none => true)) stOutOfRange
        (orFail ((crc32c c.payload).toNat == c.arg 8 4) stBadArgument)
    state := fun s c => orFail (match Tbl.get s.dl.images (c.arg 0 1) with | some m => !m.usable | none => false) stStateConflict
    objects := fun _ c => [(9, 2 + c.arg 0 1)]
    act := fun c s =>
      (.result [], s.onDl fun d =>
        { d with images := Tbl.mod d.images (c.arg 0 1) fun m => { m with blocks := Tbl.put m.blocks (c.arg 4 4 / 4096) c.payload } }) }

def meterImageVerifyDef : CmdDef :=
  { opcode := 0x0F09, role := fun _ => .oper
    state := fun s c => match Tbl.get s.dl.images (c.arg 0 1) with
      | some m => orElse (imageComplete m) stStateConflict (orFail (imageGood s m) stSignatureFailed)
      | none => some stStateConflict
    objects := fun _ c => [(9, 2 + c.arg 0 1)]
    act := fun c s =>
      (.result [], s.onDl fun d => { d with images := Tbl.mod d.images (c.arg 0 1) fun m => { m with usable := true } }) }

/-! ### Reads (R307, R418) -/

/-- A queued APDU's entry. -/
def fetchEntry (q : DlApdu) : Bytes := le 8 q.seq ++ le 4 q.slot ++ le 2 q.apdu.length ++ zeros 2 ++ padTo 8 q.apdu

/-- DOWNLINK_FETCH: what it returns counts as sent (R416, R418). -/
def downlinkFetchDef : CmdDef :=
  { opcode := 0x0F0F, role := fun _ => .any, token := true
    act := fun c s =>
      let l := s.dl.queue.filter fun q => decide (c.arg 0 8 < q.seq)
      (.result (l.flatMap fetchEntry), l.foldl (fun t q => dlSent q.owner t) s) }

/-- Adopted commands of the last 7 days (R307). -/
def adoptedNow (s : State) : List Adopted := s.dl.adopted.filter fun a => decide (tb7 s < a.at_ + 7 * nsDay)

/-- An adopted command's entry. -/
def adoptedEntry (a : Adopted) : Bytes :=
  le 4 a.origin.1.toNat ++ le 4 a.origin.2.1.toNat ++ le 4 a.origin.2.2.toNat ++ le 4 a.slot ++ le 1 a.outcome.1 ++ le 1 a.outcome.2
    ++ zeros 2 ++ le 8 a.asn ++ zeros 4

def downlinkAdoptedReadDef : CmdDef :=
  { tokenRead 0x0F10 (fun s c =>
      le 4 (adoptedNow s).length ++ zeros 4 ++ (((adoptedNow s).drop (c.arg 0 4)).take 4096).flatMap adoptedEntry) with
    args := fun s c => orFail (decide (c.arg 0 4 ≤ (adoptedNow s).length)) stOutOfRange }

/-! ### Events -/

/-- The meters of a campaign that Hedgerow reaches in a network and that are not at their end. -/
def campOnNet (s : State) (g : Campaign) (net : Nat) : List (Nat × Nat) :=
  (g.slots.filter fun x => hrNetOf s x.1 == some net && decide (x.2.1 < phDone)).map fun x => (x.1, x.2.1)

/-- Every meter of the campaign on the network has passed INITIATE, and a round is left to run there. -/
def roundDue (s : State) (g : Campaign) (net : Nat) : Bool :=
  let l := campOnNet s g net
  !l.isEmpty && (l.all fun x => decide (phTransfer ≤ x.2)) && decide (Tbl.getD g.roundsDone net 0 < g.rounds)

/-- A block as broadcast: authenticated under the broadcast key of a key plan and suite, its counter open (R341). -/
def broadcastApdu (s : State) (g : Campaign) (m : MeterImg) (plan suite b : Nat) (draw : Nat) : Option Bytes :=
  (masterOf s plan).map fun k =>
    let key := derive k.key 4 0#64 (Tbl.getD s.vlt.bcastGen plan 0) suite
    let ic := be 4 (Config.openNat draw)
    let title := slice (Config.clientTitle s.dev.fit.serial) 0 8
    let control := le 1 (0x10 + 0x40 + suite)
    let pt := le 1 0xC3 ++ le 1 1 ++ invokeId draw ++ be 2 18 ++ imageObis ++ le 1 2 ++ le 1 1 ++ blockParams g m b
    let body := control ++ ic ++ pt ++ slice (Config.gcmSeal key (title ++ ic) (control ++ pt) []) 0 12
    le 1 0xDB ++ le 1 8 ++ title ++ berOf body.length ++ body

/-- One block broadcast on a network under each key plan and suite of its meters. -/
def broadcastBlock (net : Nat) (g : Campaign) (m : MeterImg) (plans : List (Nat × Nat)) (s : State) (b : Nat) : State :=
  plans.foldl (fun t p =>
    match broadcastApdu t g m p.1 p.2 b t.free with
    | some a =>
      let frame : HrTx :=
        { dest := 0, type := 1, seq := BitVec.ofNat 16 (Config.openNat (t.free + 1)), endAddr := 0, payload := a, bcast := true,
          since := tb4 t, draw := t.free + 2 }
      (modNet net (fun h => { h with tx := h.tx ++ [frame] }) t).draw.draw.draw
    | none => t) s

/-- A multicast round on one network (R341). -/
def roundOn (c net : Nat) (s : State) : State :=
  match campaign s c with
  | none => s
  | some g =>
    if ¬ roundDue s g net ∨ g.ended then s
    else
      match Tbl.get s.dl.images g.image with
      | none => campInvalid c s
      | some m =>
        if ¬ imageGood s m then campInvalid c s
        else
          let meters := campOnNet s g net
          let plans := (meters.map fun x => ((slot s x.1).keyPlan, (slot s x.1).suite)).dedup
          let s1 := (List.range (ceilDiv (imageContent m).length g.block)).foldl (broadcastBlock net g m plans) s
          let done := Tbl.getD g.roundsDone net 0 + 1
          let s2 := modCampaign c (fun g => { g with roundsDone := Tbl.put g.roundsDone net done }) s1
          if done < g.rounds then s2
          else (meters.filter fun x => x.2 == phTransfer).foldl (fun t x => campGapFill c x.1 t) s2

/-- MULTICAST_ROUND (R341). -/
def multicastRound (c : Nat) (s : State) : State :=
  guarded (maySend s) (fun s => (s.hr.map Prod.fst).foldl (fun t net => roundOn c net t) s) s

/-- The activation instant of a campaign is reached (R340). -/
def activationInstant (c : Nat) (s : State) : State :=
  match campaign s c with
  | some g =>
    guarded (!g.ended && maySend s) (fun s => (g.slots.filter fun x => x.2.1 == phReady).foldl (fun t x => campReady c x.1 t) s) s
  | none => s

/-- A command's expiry passes before its outcome; the token's holder applies it (R307, R416). -/
def downlinkExpiry (i : Nat) (s : State) : State :=
  match dlCmd s i with
  | some x => guarded (x.expiry != 0 && decide (x.expiry ≤ tb7 s) && holdsToken s) (dlFinish i 3 0 0 []) s
  | none => s

/-! ### The meanings -/

def execMeterGet (d : Desc) (s : State) : Host.Outcome State Fault Refusal := runCmd meterGetDef (.meterGet d) d s
def execMeterSet (d : Desc) (s : State) : Host.Outcome State Fault Refusal := runCmd meterSetDef (.meterSet d) d s
def execMeterAction (d : Desc) (s : State) : Host.Outcome State Fault Refusal := runCmd meterActionDef (.meterAction d) d s
def execMeterClockSet (d : Desc) (s : State) : Host.Outcome State Fault Refusal := runCmd meterClockSetDef (.meterClockSet d) d s
def execKeyTransfer (d : Desc) (s : State) : Host.Outcome State Fault Refusal := runCmd keyTransferDef (.keyTransfer d) d s
def execCalendarPush (d : Desc) (s : State) : Host.Outcome State Fault Refusal := runCmd calendarPushDef (.calendarPush d) d s
def execMeterImageBegin (d : Desc) (s : State) : Host.Outcome State Fault Refusal := runCmd meterImageBeginDef (.meterImageBegin d) d s
def execMeterImageBlock (d : Desc) (s : State) : Host.Outcome State Fault Refusal := runCmd meterImageBlockDef (.meterImageBlock d) d s
def execMeterImageVerify (d : Desc) (s : State) : Host.Outcome State Fault Refusal := runCmd meterImageVerifyDef (.meterImageVerify d) d s
def execCampaignStart (d : Desc) (s : State) : Host.Outcome State Fault Refusal := runCmd campaignStartDef (.campaignStart d) d s
def execCampaignStatus (d : Desc) (s : State) : Host.Outcome State Fault Refusal := runCmd campaignStatusDef (.campaignStatus d) d s
def execCampaignActivate (d : Desc) (s : State) : Host.Outcome State Fault Refusal := runCmd campaignActivateDef (.campaignActivate d) d s
def execCampaignAbort (d : Desc) (s : State) : Host.Outcome State Fault Refusal := runCmd campaignAbortDef (.campaignAbort d) d s
def execDownlinkCancel (d : Desc) (s : State) : Host.Outcome State Fault Refusal := runCmd downlinkCancelDef (.downlinkCancel d) d s
def execDownlinkFetch (d : Desc) (s : State) : Host.Outcome State Fault Refusal := runCmd downlinkFetchDef (.downlinkFetch d) d s
def execDownlinkAdoptedRead (d : Desc) (s : State) : Host.Outcome State Fault Refusal := runCmd downlinkAdoptedReadDef (.downlinkAdoptedRead d) d s
def execMulticastRound (c : Nat) (s : State) : Host.Outcome State Fault Refusal := whileRunning (multicastRound c) s
def execCampaignActivationInstant (c : Nat) (s : State) : Host.Outcome State Fault Refusal := whileRunning (activationInstant c) s
def execDownlinkExpiry (i : Nat) (s : State) : Host.Outcome State Fault Refusal := whileRunning (downlinkExpiry i) s

end Sys2Proof.Machine
end

