-- ==== Sys2Proof/Machine/HedgerowOps.lean ====
section
/-!
DEFINITION. The Hedgerow MAC's frames, tone maps, superframe, exchanges and routes (R98 to R118).
-/

namespace Sys2Proof.Machine

/-! ### Parameters of a network (R100) -/

/-- Channels in force of a Hedgerow network. -/
def hrChans (s : State) (net : Nat) : List Nat := netChans s 1 net

/-- The parameters of a network: those of its first channel; HR_NET, HR_BEACON and HR_CFP are alike on all (R101). -/
def hrCfg (s : State) (net : Nat) : ChanCfg := match hrChans s net with | c :: _ => (chan s c).act | [] => {}

def ChanCfg.maxLevel (c : ChanCfg) : Nat := bits c.hrNet 16 4
def ChanCfg.coherent (c : ChanCfg) : Bool := c.hrNet.getLsbD 20
def ChanCfg.period (c : ChanCfg) : Nat := bits c.hrBeacon 0 6
def ChanCfg.phase (c : ChanCfg) : Nat := bits c.hrBeacon 16 16
def ChanCfg.cfpCount (c : ChanCfg) : Nat := bits c.hrCfp 0 8
def ChanCfg.cfpSlot (c : ChanCfg) : Nat := bits c.hrCfp 8 16
def ChanCfg.minBe (c : ChanCfg) : Nat := bits c.hrCsma 0 4
def ChanCfg.maxBe (c : ChanCfg) : Nat := bits c.hrCsma 4 4
def ChanCfg.maxCsma (c : ChanCfg) : Nat := bits c.hrCsma 8 4
def ChanCfg.maxRetry (c : ChanCfg) : Nat := bits c.hrCsma 12 4
def ChanCfg.tmMaxAge (c : ChanCfg) : Nat := bits c.hrTonemap 0 16
def ChanCfg.tmFailCount (c : ChanCfg) : Nat := bits c.hrTonemap 16 4
def ChanCfg.tmSnrDrop (c : ChanCfg) : Nat := bits c.hrTonemap 20 8
def ChanCfg.margin (c : ChanCfg) : Nat := bits c.hrTonemap 28 4
def ChanCfg.hrBlankLimit (c : ChanCfg) : Nat := bits c.hrBlankDrop 0 8
def ChanCfg.routeInterval (c : ChanCfg) : Nat := bits c.hrRoute 0 8
def ChanCfg.hysteresis (c : ChanCfg) : Nat := bits c.hrRoute 8 8

/-- BSL of a network, ns: plan 5's when any of its channels is on plan 5 (R101). -/
def bslOf (s : State) (net : Nat) : Nat :=
  if (hrChans s net).any fun c => (chan s c).act.plan == 5 then 150 * nsMs else 50 * nsMs

/-- ACK_GAP, the take deadline and ACK_WAIT, ns (table Hedgerow timing). -/
def ackGap : Nat := 1200 * nsUs
def takeDeadline : Nat := 900 * nsUs
def ackWait : Nat := 4200 * nsUs

/-! ### Statistics (table Hedgerow statistics) -/

def stAckSent : Nat := 0xC0
def stNackSent : Nat := 0xC4
def stDupReacked : Nat := 0xC8
def stSeqStale : Nat := 0xCC
def stHcsFail : Nat := 0xD0
def stAckLate : Nat := 0xD4
def stTmIssued : Nat := 0xD8
def stRoboRx : Nat := 0xDC
def stBeacons : Nat := 0xE0
def stCsmaFail : Nat := 0xE4
def stRetryExhausted : Nat := 0xE8

/-! ### Frames (R106) -/

/-- Frame types (table Frame control). -/
def htBeacon : Nat := 0
def htData : Nat := 1
def htAck : Nat := 2
def htNack : Nat := 3
def htToneMap : Nat := 4
def htJoinReq : Nat := 5
def htJoinResp : Nat := 6
def htReport : Nat := 7
def htGrant : Nat := 8
def htRoute : Nat := 9

/-- A bit of a frame's Frame control. -/
def hfBit (f : Bytes) (n : Nat) : Bool := field f 0 2 / 2 ^ n % 2 == 1

/-- The type of a frame. -/
def hfType (f : Bytes) : Nat := field f 0 2 % 16

/-- Its fields. -/
def hfNet (f : Bytes) : Nat := field f 2 2
def hfSeq (f : Bytes) : BitVec 16 := BitVec.ofNat 16 (field f 4 2)
def hfSource (f : Bytes) : Nat := field f 6 2
def hfEnd (f : Bytes) : Nat := field f 10 2
def hfLevel (f : Bytes) : Nat := field f 14 1 % 16
def hfMap (f : Bytes) : Nat := field f 15 1

/-- HCS holds: the header is whole and its checksum right (R107). -/
def hcsOk (f : Bytes) : Bool := decide (20 ≤ f.length) && (crc16 (f.take 18)).toNat == field f 18 2

/-- FCS holds: the frame has the length its header gives and its checksum is right. -/
def fcsOk (f : Bytes) : Bool :=
  let n := 20 + 2 * (field f 14 1 / 16) + field f 12 2
  f.length == n + 4 && (crc32c (f.take n)).toNat == field f n 4

/-- The frame is for this device: its network, and the device or everyone its receiver (R107). -/
def hfMine (c : ChanCfg) (f : Bytes) : Bool := hfNet f == c.netId && (hfBit f 6 || hfBit f 7)

/-- A unicast frame that asks for an answer. -/
def hfWants (f : Bytes) : Bool := hfBit f 4 && !hfBit f 7

/-- A frame of the device: type, flag bits beside SRC_COORD, network, sequence, destination, end address, route extension,
tone map ID and payload. -/
def hrFrame (type flags net seq dest endA : Nat) (via : List Nat) (map : Nat) (payload : Bytes) : Bytes :=
  let fc := type + 0x20 + flags + flag 8 (!via.isEmpty)
  let h := le 2 fc ++ le 2 net ++ le 2 seq ++ le 2 0 ++ le 2 dest ++ le 2 endA ++ le 2 payload.length ++ le 1 (16 * via.length)
    ++ le 1 map ++ le 2 0
  let b := h ++ le 2 (crc16 h).toNat ++ via.flatMap (le 2) ++ payload
  b ++ le 4 (crc32c b).toNat

/-- Airtime of a ROBO frame, ns: the figures of the table Hedgerow timing and of its example, else open. -/
def roboAirtime (plan bytes : Nat) : Nat :=
  match plan, bytes with
  | 5, 24 => 56100 * nsUs
  | 5, 28 => 61000 * nsUs
  | 5, 36 => 70700 * nsUs
  | 5, 56 => 95700 * nsUs
  | 6, 24 => 11800 * nsUs
  | 6, 28 => 12500 * nsUs
  | 6, 56 => 18200 * nsUs
  | _, _ => Config.hrAirtime plan 0 24 bytes

/-- Airtime of a frame under a tone map. -/
def hrAir (plan : Nat) (map : Option ToneMap) (bytes : Nat) : Nat :=
  match map with
  | some m => if m.id = 0 ∨ m.modn = 0 then roboAirtime plan bytes else Config.hrAirtime plan m.modn ((List.range 24).filter fun i => m.groups.getLsbD i).length bytes
  | none => roboAirtime plan bytes

/-! ### Tone maps (R99, R111 to R113) -/

/-- Bits per carrier, in quarters, and required SNR in 0.25 dB of the modulations 0 to 6 (table Hedgerow modulations). -/
def modBits (m : Nat) : Nat := [1, 4, 8, 12, 4, 8, 12].getD m 0
def modSnr (m : Nat) : Nat := [0, 16, 28, 44, 12, 24, 40].getD m 0

/-- Tone-map groups of a plan. -/
def groupsOf (plan : Nat) : Nat := if plan = 5 then 6 else 24

/-- Groups usable under a modulation with a margin in dB. -/
def usable (snr : List Int) (m margin : Nat) : List Nat :=
  (List.range snr.length).filter fun i => decide ((modSnr m + 4 * margin : Int) ≤ snr.getD i 0)

/-- The modulation of the largest product, the lower code at a tie, of ROBO and those permitted beside it; none when none of them has
two usable groups (R111). -/
def bestMod (snr : List Int) (margin : Nat) (allowed : List Nat) : Option Nat :=
  if (0 :: allowed).any fun m => decide (2 ≤ (usable snr m margin).length) then
    some (allowed.foldl (fun b m => if (usable snr b margin).length * modBits b < (usable snr m margin).length * modBits m then m else b) 0)
  else none

/-- The group SNRs that count on a plan. -/
def planSnr (plan : Nat) (snr : List Int) : List Int := snr.take (groupsOf plan)

/-- The mean SNR as coded: 0.25 dB steps, offset −10 dB, rounded down. -/
def meanCode (snr : List Int) : Nat := (max 0 (min 255 (snr.sum / (max 1 snr.length : Nat) + 40))).toNat

/-- The drop of a frame's mean SNR below the mean at issue, 0.25 dB steps rounded down, saturating (R112). -/
def snrDrop (m : ToneMap) (snr : List Int) : Nat :=
  let n : Int := (max 1 snr.length : Nat)
  if m.id = 0 then 0 else (max 0 (min 255 ((((m.snr : Int) - 40) * n - snr.sum) / n))).toNat

/-- A frame's mean SNR lies more than TM_SNR_DROP below the mean at issue (R112). -/
def snrFell (c : ChanCfg) (m : ToneMap) (snr : List Int) : Bool :=
  let n : Int := (max 1 snr.length : Nat)
  m.id != 0 && decide ((c.tmSnrDrop : Int) * n < ((m.snr : Int) - 40) * n - snr.sum)

/-- A meter told of coherent modulations in its JOIN_REQ; of relaying, where it has told anything (R106; DEDUCED, assumption
log 25). -/
def Neigh.coherent (x : Neigh) : Bool := match x.caps with | some w => w / 4 % 2 == 1 | none => false
def Neigh.canRelay (x : Neigh) : Bool := match x.caps with | some w => w / 8 % 2 == 1 | none => true

/-- The map the device chooses for a neighbour; its gain reduction is open (assumption log 2). Coherent modulations need
COHERENT_EN and a meter that advertised them (R99, R119). -/
def chooseMap (s : State) (c : ChanCfg) (x : Neigh) (id : Nat) (snr0 : List Int) : ToneMap :=
  let snr := planSnr c.plan snr0
  let m := bestMod snr c.margin ([1, 2, 3] ++ if c.coherent && x.coherent then [4, 5, 6] else [])
  let g := match m with | none => List.range (groupsOf c.plan) | some m => usable snr m c.margin
  { modn := m.getD 0, groups := g.foldl (fun x i => x ||| BitVec.ofNat 24 (2 ^ i)) 0#24, snr := meanCode snr,
    gain := Config.openNat s.free % 32, id, issued := tb6 s }

/-- TONE_MAP_RESP's payload. -/
def mapBytes (m : ToneMap) : Bytes := le 1 m.modn ++ le 1 m.gain ++ le 3 m.groups.toNat ++ le 1 m.snr ++ le 1 m.id ++ zeros 5

/-- A tone map as its payload spells it. -/
def mapOfBytes (now : Nat) (b : Bytes) : ToneMap :=
  { modn := field b 0 1, gain := field b 1 1 % 32, groups := BitVec.ofNat 24 (field b 2 3), snr := field b 5 1, id := field b 6 1,
    issued := now }

/-- A map is older than TM_MAX_AGE. -/
def mapOld (s : State) (c : ChanCfg) (m : ToneMap) : Bool := decide (m.issued + c.tmMaxAge * nsPerS < tb6 s)

/-! ### Neighbours -/

/-- A neighbour of a network. -/
def neigh (s : State) (net a : Nat) : Option Neigh := Tbl.get (hrNet s net).neigh a

/-- A neighbour's entry opened where there is none and the table has room (R100, R118). -/
def openNeigh (net a : Nat) (s : State) : State :=
  if (neigh s net a).isSome ∨ neighboursFull s ∨ (Tbl.get s.hr net).isNone then s
  else modNet net (fun h => { h with neigh := Tbl.put h.neigh a {} }) s

/-- The last SNR of a neighbour on a channel (R100). -/
def Neigh.heard (x : Neigh) (lc : Nat) (snr : Int) : Neigh := { x with snrBy := (lc, snr) :: x.snrBy.filter fun p => p.1 != lc }

/-- The same in its network's table. -/
def heardSnr (net a lc : Nat) (snr : Int) (s : State) : State := modNeigh net a (fun x => x.heard lc snr) s

/-- A neighbour's frame was taken on a channel: it becomes the channel to answer on (R100). -/
def heardOn (net a lc : Nat) (snr : Int) (s : State) : State :=
  modNeigh net a (fun x => { x with lc }) (heardSnr net a lc snr s)

/-- The channel on which the device sends to a neighbour: its last, unless its port is not UP or another's last SNR is
better by 3 dB (R100). -/
def chanTo (s : State) (net : Nat) (x : Neigh) : Nat :=
  let up := (hrChans s net).filter fun c => canSend s c
  let snr (c : Nat) : Int := ((x.snrBy.find? fun p => p.1 == c).map Prod.snd).getD (-1000)
  let best := up.foldl (fun b c => match b with
    | none => some c
    | some d => if snr d < snr c then some c else some d) none
  match best with
  | none => x.lc
  | some b => if x.lc ∈ up ∧ ¬ snr x.lc + 12 ≤ snr b then x.lc else b

/-- The channel a frame goes out on: its neighbour's, or the one it last left on, or answers on, where the receiver is no
neighbour (R100). -/
def txChan (s : State) (net : Nat) (t : HrTx) : Nat :=
  match neigh s net t.dest with
  | some x => chanTo s net x
  | none => t.lc.getD 0

/-! ### The superframe (R102, R105) -/

/-- The first beacon instant at or after an instant of TB4. -/
def beaconAt (c : ChanCfg) (t : Nat) : Nat :=
  let p := max 1 c.period * nsPerS
  c.phase * nsMs + ceilDiv (t - c.phase * nsMs) p * p

/-- The start of the superframe that holds an instant. -/
def superOf (s : State) (net t : Nat) : Nat :=
  let c := hrCfg s net
  beaconAt c (t + 1) - max 1 c.period * nsPerS

/-- Slots a grant reserves: the meter's and one for each relay (R104). -/
def SlotGrant.hops (g : SlotGrant) : Nat := g.path.length + 1

/-- A grant holds in the superframe of a beacon number (R106). -/
def SlotGrant.holds (g : SlotGrant) (beacon : Nat) : Bool :=
  decide (0 < g.period) && decide (g.from_ ≤ beacon) && (beacon - g.from_) % g.period == 0

/-- The number of the beacon that begins the superframe that holds an instant, counted from the last beacon queued (R102, R106). -/
def superNumber (s : State) (net t : Nat) : Nat :=
  let h := hrNet s net
  let p := max 1 (hrCfg s net).period * nsPerS
  let a := superOf s net t
  h.beacon + (a - h.lastBeacon) / p - (1 + (h.lastBeacon - a) / p)

/-- The granted slot that holds an instant of the superframe it lies in: begin and end; none elsewhere (R102, R104). -/
def grantedSlot (s : State) (net t : Nat) : Option (Nat × Nat) :=
  let c := hrCfg s net
  let h := hrNet s net
  let cfp := superOf s net t + (c.maxLevel + 1) * bslOf s net
  let len := c.cfpSlot * nsMs
  let i := (t - cfp) / max 1 len
  if cfp ≤ t ∧ i < c.cfpCount ∧ h.grants.any (fun g => g.holds (superNumber s net t) && decide (g.first ≤ i) && decide (i < g.first + g.hops)) then
    some (cfp + i * len, cfp + (i + 1) * len)
  else none

/-- The contention access period that holds an instant, from the superframe's start: begin and end. -/
def capOf (s : State) (net t : Nat) : Nat × Nat :=
  let c := hrCfg s net
  let start := superOf s net t
  (start + (c.maxLevel + 1) * bslOf s net + c.cfpCount * c.cfpSlot * nsMs, start + max 1 c.period * nsPerS)

/-- A span of TB4 lies inside the contention access period. -/
def inCap (s : State) (net begin_ end_ : Nat) : Bool :=
  let cap := capOf s net begin_
  decide (cap.1 ≤ begin_) && decide (end_ ≤ cap.2)

/-- A span of TB4 lies inside the contention access period or one granted slot (R104, R114). -/
def inWindow (s : State) (net begin_ end_ : Nat) : Bool :=
  inCap s net begin_ end_ || (match grantedSlot s net begin_ with | some w => decide (end_ ≤ w.2) | none => false)

/-- A frame with the longest response after it lies inside the contention access period (R105). -/
def capFits (s : State) (net plan launch air : Nat) : Bool := inCap s net launch (launch + air + ackGap + roboAirtime plan 28)

/-- The first instant of a contention access period at or after an instant. -/
def nextCap (s : State) (net t : Nat) : Nat :=
  let cap := capOf s net t
  if t ≤ cap.1 then cap.1 else cap.1 + max 1 (hrCfg s net).period * nsPerS

/-- Where a transmission without CSMA goes that is due at an instant and ends, responses included, a time later: there, or at the
start of the next contention access period where it would not fit (R104, R114). -/
def placeAt (s : State) (net launch len : Nat) : Nat :=
  if inWindow s net launch (launch + len) then launch else nextCap s net launch

/-! ### Frames as heard (R88, R91) -/

/-- A frame with its instants as on the air, and nothing blanked where blanking is off (R88, R91). -/
def hrSeen (s : State) (r : HrRx) : HrRx :=
  { r with span := (onAir s r.lc r.span.1, onAir s r.lc r.span.2), sfd := delimiterAt s r.lc r.sfd, blanked := if (chan s r.lc).act.blankOn then r.blanked else 0 }

/-! ### Answers (R108 to R110) -/

/-- An OFDM symbol with its cyclic prefix, in ns (table Hedgerow timing). -/
def hrSymbol (plan : Nat) : Nat × Nat := if plan = 5 then (695000, 1) else (231700, 1)

/-- An acknowledgement or NACK starts ACK_GAP after a frame's end; none where it is not sent. -/
def hrAnswer (lc net : Nat) (type flags : Nat) (seq : BitVec 16) (dest : Nat) (payload : Bytes) (end_ : Nat) (s : State) : Option State :=
  let c := (chan s lc).act
  let f := hrFrame type flags net seq.toNat dest dest [] 0 payload
  queueTx lc (end_ + ackGap) (roboAirtime c.plan f.length) (hrSymbol c.plan) f (type == htAck) s

/-- The ACK of a TONE_MAP_RESP is on its way: its map is the device's, and the refresh complete at the ACK's end (R113, R114). -/
def refreshed (r : HrRx) (s : State) : State :=
  if hfType r.bytes = htToneMap then
    modNeigh (hfNet r.bytes) (hfSource r.bytes) (fun x => match x.txNext with
      | some m => { x with tx := some m, txNext := none, refresh := false
                           roboUntil := r.span.2 + ackGap + roboAirtime (chan s r.lc).act.plan 24 }
      | none => x) s
  else s

/-- An answer has carried TM_REFRESH_REQ: a count of failed frames that has reached TM_FAIL_COUNT has had its effect (R112). -/
def saidRefresh (r : HrRx) (refresh : Bool) (s : State) : State :=
  if refresh then
    modNeigh (hfNet r.bytes) (hfSource r.bytes) (fun x =>
      { x with fails := if (chan s r.lc).act.tmFailCount ≤ x.fails then 0 else x.fails }) s
  else s

/-- The ACK of a frame, its TM_REFRESH_REQ as asked, a duplicate answered again counted; none where it comes too late to be launched
(R108, R109). -/
def sendAck (r : HrRx) (refresh again : Bool) (s : State) : Option State :=
  (hrAnswer r.lc (hfNet r.bytes) htAck (flag 10 refresh) (hfSeq r.bytes) (hfSource r.bytes) [] r.span.2 s).map fun t =>
    saidRefresh r refresh (refreshed r (countStat r.lc stAckSent 1 (if again then countStat r.lc stDupReacked 1 t else t)))

/-- A NACK of a reason; the blanked share is rounded to the nearest 1/256, as the manual's example step 4 has it (R110; DEDUCED,
assumption log 76). -/
def sendNack (r : HrRx) (reason drop : Nat) (refresh : Bool) (s : State) : State :=
  let share := min 255 ((r.blanked + 2) / 4)
  match hrAnswer r.lc (hfNet r.bytes) htNack (flag 10 refresh) (hfSeq r.bytes) (hfSource r.bytes)
      (le 1 reason ++ le 1 share ++ le 1 drop ++ zeros 1) r.span.2 s with
  | some t => saidRefresh r refresh (countStat r.lc stNackSent 1 t)
  | none => s

/-! ### Frames of the device to a neighbour (R105, R114) -/

/-- Types that always go in ROBO (R99). -/
def roboOnly (type : Nat) : Bool := type == htBeacon || type == htAck || type == htNack || type == htToneMap || type == htJoinReq || type == htJoinResp

/-- A modulation may be used on a channel (R99). -/
def modAllowed (c : ChanCfg) (m : Nat) : Bool := decide (m ≤ if c.coherent then 6 else 3)

/-- The map a frame to a neighbour goes under: none for ROBO (R99, R113, R114). -/
def txMap (s : State) (c : ChanCfg) (x : Neigh) (type : Nat) : Option ToneMap :=
  match x.tx with
  | some m =>
    if roboOnly type || x.refresh || decide (tb4 s < x.roboUntil) || m.modn == 0 || !modAllowed c m.modn || mapOld s c m then none else some m
  | none => none

/-- The device's next frame to a neighbour asks for a tone map: a refresh is due, its map is too old, or it has none
(R112, R114; the last DEDUCED, assumption log 25). -/
def asksMap (s : State) (c : ChanCfg) (x : Neigh) : Bool := x.refresh || match x.tx with | some m => mapOld s c m | none => true

/-- A frame of the queue as it goes out now. -/
def txBytes (s : State) (net : Nat) (c : ChanCfg) (t : HrTx) : Bytes × Nat :=
  let x := (neigh s net t.dest).getD {}
  let map := if t.bcast || t.robo then none else txMap s c x t.type
  let ask := !t.bcast && (t.robo || asksMap s c x)
  let f := hrFrame t.type (if t.bcast then 0x80 else 0x10 + flag 9 ask) net t.seq.toNat t.dest t.endAddr t.via
    ((map.map fun m => m.id).getD 0) t.payload
  (f, hrAir c.plan map f.length)

/-- The queue of a network with one frame changed. -/
def modTx (net : Nat) (t : HrTx) (f : HrTx → HrTx) (s : State) : State :=
  modNet net (fun h => { h with tx := h.tx.map fun x => if x = t then f x else x }) s

/-- A frame leaves the queue. -/
def dropTx (net : Nat) (t : HrTx) (s : State) : State := modNet net (fun h => { h with tx := h.tx.erase t }) s

/-- A unicast frame is launched at an instant on its neighbour's channel, a tone map response counted; unchanged where it cannot be
(R120). -/
def launchTx (net : Nat) (t : HrTx) (launch : Nat) (s : State) : State :=
  let lc := txChan s net t
  let c := (chan s lc).act
  let (f, air) := txBytes s net c t
  match queueTx lc launch air (hrSymbol c.plan) f false s with
  | some s1 =>
    let s1 := if t.type = htToneMap then countStat lc stTmIssued 1 s1 else s1
    dlSent t.owner (modTx net t (fun x =>
      { x with sent := true, attempts := x.attempts + 1, wait := launch + air + ackWait, lc := some lc }) s1)
  | none => s

/-- A broadcast frame is launched on every channel of its network that transmits, and leaves the queue (R341). -/
def launchBcast (net : Nat) (t : HrTx) (launch : Nat) (s : State) : State :=
  dropTx net t ((hrChans s net).foldl (fun u lc =>
    let c := (chan u lc).act
    let (f, air) := txBytes u net c t
    (queueTx lc launch air (hrSymbol c.plan) f false u).getD u) s)

/-- A grant ends where the frame that tells of it, or of its end, has no further way (R104; DESIGN CHOICE, assumption log 73). -/
def dropSlots (net : Nat) (t : HrTx) (s : State) : State :=
  modNet net (fun h => { h with grants := h.grants.filter fun g => g.meter != field t.payload 8 2 }) s

/-- A frame is abandoned, its retries exhausted: charged to the channel it left on, or was to leave on (R105, R120). -/
def abandonTx (net : Nat) (t : HrTx) (s : State) : State :=
  let lc := t.lc.getD (txChan s net t)
  let s1 := countStat lc stRetryExhausted 1 (dropTx net t s)
  dlExhausted t.owner (if t.type = htGrant then dropSlots net t s1 else s1)

/-- A CSMA attempt's backoff begins anew (R105). -/
def armTx (s : State) (t : HrTx) : HrTx := { t with since := tb4 s, draw := s.free }

/-- A failed attempt: retried, at once or through CSMA, in ROBO where the retry is one under R114, or abandoned after MAX_RETRY
retries. -/
def failTx (net : Nat) (t : HrTx) (robo : Bool) (at_ : Option Nat) (s : State) : State :=
  let c := hrCfg s net
  if c.maxRetry < t.attempts then abandonTx net t s
  else
    let t1 : HrTx := { armTx s t with sent := false, be := c.minBe, assessed := 0, robo }
    let s1 := (modTx net t (fun _ => t1) s).draw
    match at_ with
    | some launch => launchTx net t1 launch s1
    | none => s1

/-- The first frame of a network's queue that waits for the channel under CSMA, which no tone map response does (R105). -/
def nextTx (s : State) (net : Nat) : Option HrTx := (hrNet s net).tx.find? fun t => !t.sent && t.type != htToneMap

/-- A frame sent to a neighbour with a sequence, still unanswered. -/
def sentTx (s : State) (net src : Nat) (q : BitVec 16) : Option HrTx :=
  (hrNet s net).tx.find? fun t => t.sent && t.seq == q && (t.dest == src || t.endAddr == src)

/-! ### Routes (R115 to R117) -/

/-- Delivery p in % of a mean SNR as coded (table Link delivery). -/
def deliveryOf (code : Nat) : Nat :=
  if code < 40 then 0 else if code < 48 then 50 else if code < 56 then 80 else if code < 64 then 95 else 99

/-- A common multiple of the products of two delivery figures, so that every ETX is a whole number of parts of it. -/
def etxUnit : Nat := 2 ^ 8 * 5 ^ 4 * 19 ^ 2 * 3 ^ 4 * 11 ^ 2 * 10000

/-- The cost of a link from its two delivery figures; none where one is missing or zero. -/
def etxOf (p q : Option Nat) : Option Nat :=
  match p, q with
  | some a, some b => if a = 0 ∨ b = 0 then none else some (etxUnit / (a * b))
  | _, _ => none

/-- The cost of the link between two meters: each direction as reported (R115). -/
def linkCost (h : HrNet) (a b : Nat) : Option Nat :=
  let rep (x y : Nat) : Option Nat := (h.links.find? fun l => l.1 == x && l.2.1 == y).map fun l => deliveryOf l.2.2.1
  etxOf (rep a b) (rep b a)

/-- The mean SNR as coded of a figure in 0.25 dB. -/
def codeOf (snr : Int) : Nat := (max 0 (min 255 (snr + 40))).toNat

/-- The cost of the link between the device and a meter: the device's own SNR one way, the mean SNR of the meter's tone map for the
device the other; a link known in one direction only is not used (R115; DEDUCED, assumption log 25). -/
def rootCost (x : Neigh) : Option Nat :=
  etxOf ((x.snrBy.find? fun p => p.1 == x.lc).map fun p => deliveryOf (codeOf p.2)) (x.tx.map fun m => deliveryOf m.snr)

/-- A path found: its cost, its hops and its last relay; none for the device. -/
structure Found where
  /-- Summed ETX. -/
  cost : Nat
  /-- Hops. -/
  hops : Nat
  /-- Parent. -/
  parent : Option Nat
  deriving DecidableEq, Repr

/-- Least cost, then fewer hops, then the lower parent (R116). -/
def Found.better (a b : Found) : Bool :=
  decide (a.cost < b.cost) || (a.cost == b.cost && (decide (a.hops < b.hops) ||
    (a.hops == b.hops && decide ((a.parent.map (· + 1)).getD 0 < (b.parent.map (· + 1)).getD 0))))

/-- One round of path finding: every address takes the best path over one more hop. -/
def relaxPaths (h : HrNet) (t : Tbl Found) : Tbl Found :=
  h.neigh.filterMap fun p =>
    let a := p.1
    let own := Tbl.get t a
    let via := t.filterMap fun q => if q.1 = a ∨ ¬ (Tbl.getD h.neigh q.1 {}).canRelay then none else
      (linkCost h q.1 a).map fun w => ({ cost := q.2.cost + w, hops := q.2.hops + 1, parent := some q.1 } : Found)
    let best := via.foldl (fun b f => match b with
      | none => some f
      | some g => if Found.better f g then some f else some g) own
    best.map fun f => (a, f)

/-- Paths of one hop. -/
def rootPaths (h : HrNet) : Tbl Found :=
  h.neigh.filterMap fun p => (rootCost p.2).map fun w => (p.1, ({ cost := w, hops := 1, parent := none } : Found))

/-- The best path of every address with at most `n` relays. -/
def allPaths (h : HrNet) : Nat → Tbl Found
  | 0 => rootPaths h
  | n + 1 => relaxPaths h (allPaths h n)

/-- The parent in force of an address. -/
def parentOf (h : HrNet) (a : Nat) : Option Nat :=
  match Tbl.get h.routes a with
  | some r => r.parent
  | none => (Tbl.getD h.neigh a {}).parent

/-- The cost of an address's present path; none where it has lost a link. -/
def presentCost (h : HrNet) : Nat → Nat → Option Nat
  | 0, _ => none
  | fuel + 1, a =>
    match parentOf h a with
    | none => rootCost (Tbl.getD h.neigh a {})
    | some p => match linkCost h p a, presentCost h fuel p with
      | some w, some c => some (w + c)
      | _, _ => none

/-- The parent an address is to have: its present one unless the new path is better by more than HYSTERESIS or the present
path has lost a link (R116). -/
def wantedParent (h : HrNet) (best : Tbl Found) (hyst a : Nat) : Option Nat :=
  match Tbl.get best a with
  | none => parentOf h a
  | some f => match presentCost h 10 a with
    | none => f.parent
    | some c => if 100 * f.cost < (100 - hyst) * c then f.parent else parentOf h a

/-- Hops to the device along a choice of parents; none where the chain does not end within the bound. -/
def chainHops (parents : Tbl (Option Nat)) : Nat → Nat → Option Nat
  | 0, _ => none
  | fuel + 1, a =>
    match Tbl.get parents a with
    | none => none
    | some none => some 1
    | some (some p) => (chainHops parents fuel p).map (· + 1)

/-- An address whose chain has more than `n` relays, or no end, takes its best path with at most `n`, and so does its new parent in its
turn, with one relay fewer; left where it has none (R116). -/
def repairOne (h : HrNet) : Nat → Nat → Tbl (Option Nat) → Tbl (Option Nat)
  | n, a, parents =>
    if (chainHops parents (n + 1) a).isSome then parents
    else match Tbl.get (allPaths h n) a with
      | none => parents
      | some f =>
        let moved := Tbl.mod parents a fun _ => f.parent
        match n, f.parent with
        | n + 1, some p => repairOne h n p moved
        | _, _ => moved

/-- A choice of parents repaired, address by address: a repair shortens every chain it touches, so none is put at fault (R116; DESIGN
CHOICE, assumption log 25). -/
def repaired (h : HrNet) (maxLevel : Nat) (parents : Tbl (Option Nat)) : Tbl (Option Nat) :=
  h.neigh.foldl (fun t p => repairOne h maxLevel p.1 t) parents

/-- The route of an address now: the version in force, else what its join gave (R116, R118). -/
def routeNow (h : HrNet) (a : Nat) : Route :=
  match Tbl.get h.routes a with
  | some r => r
  | none => let x := Tbl.getD h.neigh a {}; { parent := x.parent, level := x.level, relay := x.relay }

/-- The routes of a network as its reports stand (R116): a chosen parent whose chain has too many relays, or no end, gives way; an
address still without a path keeps its route; who is a parent relays. -/
def newRoutes (h : HrNet) (maxLevel hyst : Nat) : Tbl Route :=
  let best := allPaths h maxLevel
  let parents := repaired h maxLevel (Tbl.mapVals h.neigh fun a _ => wantedParent h best hyst a)
  let hops (a : Nat) : Option Nat := chainHops parents (maxLevel + 1) a
  let final := Tbl.mapVals parents fun a p => if (hops a).isSome then p else (routeNow h a).parent
  Tbl.mapVals final fun a p =>
    { parent := p, level := (hops a).getD (routeNow h a).level, relay := final.any fun q => q.2 == some a }

/-- ROUTE's payload. -/
def routeBytes (r : Route) (instant : Nat) : Bytes :=
  le 2 (r.parent.getD 0) ++ le 1 r.level ++ le 1 (flag 0 r.relay + flag 1 r.parent.isNone) ++ le 4 instant

/-- A row of ROUTE_READ and of the mirrored tree: parent, level, flags (R404). -/
def routeRow (h : HrNet) (routes : Tbl Route) (a : Nat) : Bytes :=
  let joined := (Tbl.get h.neigh a).isSome
  let r := (Tbl.get routes a).getD (routeNow h a)
  if joined then le 2 (r.parent.getD 0) ++ le 1 r.level ++ le 1 (flag 0 r.relay + 2 + flag 2 r.parent.isNone) else zeros 4

/-- The whole tree, 65,536 rows. -/
def routeTable (h : HrNet) (routes : Tbl Route) : Bytes := (List.range 65536).flatMap (routeRow h routes)

/-- RELAY_PROMOTED and RELAY_DEMOTED for the changes of a version, at most 64 of each (R117). -/
def sayRelays (h : HrNet) (routes : Tbl Route) (s : State) : State :=
  let up := (routes.filter fun p => p.2.relay && !(routeNow h p.1).relay).take 64
  let down := (routes.filter fun p => !p.2.relay && (routeNow h p.1).relay).take 64
  let say (code : Nat) (t : State) (p : Nat × Route) : State := yew code kDevice 0 (le 2 p.1 ++ le 1 p.2.level) t
  down.foldl (say 0x9102) (up.foldl (say 0x9101) s)

/-- A new route version: ROUTE frames to every meter it changes, its beacon number at least two beacons ahead, mirrored
(R117, R304). How far ahead is open. -/
def announceRoutes (net : Nat) (routes : Tbl Route) (s : State) : State :=
  let h := hrNet s net
  let changed := (routes.filter fun p => decide (routeNow h p.1 ≠ p.2)).map Prod.fst
  let instant := h.beacon + 2 + Config.openNat s.free
  let version := (h.version + 1).toNat
  let s1 := (modNet net (fun h => { h with next := some (routes, instant), unacked := changed }) s).draw
  let s2 := changed.foldl (fun t a => hrQueue net htRoute a (routeBytes (Tbl.getD routes a { parent := none, level := 1, relay := false }) instant) none t) s1
  let s3 := queueItem 3 (le 1 1 ++ zeros 1 ++ le 2 net ++ le 2 version ++ zeros 2 ++ le 4 instant ++ routeTable h routes) true none s2
  sayRelays h routes (post 0x0501 3 net (le 2 version) s3)

/-! ### Grants (R104) -/

/-- GRANT's payload. -/
def grantBytes (g : SlotGrant) (pos period : Nat) : Bytes :=
  le 1 g.first ++ le 1 pos ++ le 2 period ++ le 4 g.from_ ++ le 2 g.meter ++ zeros 2

/-- GRANT frames to the meter and to each relay of a grant, naming its position; period 0 cancels (R104, R106). -/
def tellGrant (net : Nat) (g : SlotGrant) (period : Nat) (s : State) : State :=
  ((g.meter :: g.path).zip (List.range g.hops)).foldl (fun t x => hrQueue net htGrant x.1 (grantBytes g x.2 period) none t) s

/-- A grant is cancelled: its slots stay reserved until the meter has been told (R104, R106; DESIGN CHOICE, assumption log 73). -/
def cancelGrant (net : Nat) (g : SlotGrant) (s : State) : State :=
  if g.cancelled then s
  else tellGrant net g 0 (modNet net (fun h => { h with grants := h.grants.map fun x => if x = g then { x with cancelled := true } else x }) s)

/-- Grants whose meter has another path now, or whose slots the superframe no longer has, are cancelled (R104). -/
def pruneGrants (net : Nat) (s : State) : State :=
  let h := hrNet s net
  (h.grants.filter fun g => (pathTo h 10 g.meter).reverse != g.path || decide ((hrCfg s net).cfpCount < g.first + g.hops)).foldl
    (fun t g => cancelGrant net g t) s

/-- No other grant has a slot among some consecutive ones. -/
def slotsFree (h : HrNet) (first n : Nat) : Bool :=
  h.grants.all fun g => decide (first + n ≤ g.first) || decide (g.first + g.hops ≤ first)

/-- Once a superframe the device may grant slots for a meter's scheduled reads, or cancel the grant it has. Which reads are scheduled,
when and how often, the manual does not say: the meter, the first slot, the period and the first beacon are open values (R104; DESIGN
CHOICE, assumption log 73). -/
def scheduleReads (net : Nat) (s : State) : State :=
  let h := hrNet s net
  let draw (k : Nat) : Nat := Config.openNat (s.free + k)
  let s1 := { s with free := s.free + 4 }
  match h.neigh[draw 0 % (h.neigh.length + 1)]? with
  | none => s1
  | some (a, _) =>
    match h.grants.find? fun g => g.meter == a with
    | some g => cancelGrant net g s1
    | none =>
      let path := (pathTo h 10 a).reverse
      let g : SlotGrant :=
        { meter := a, first := draw 1 % 64, path, period := draw 2 % 65535 + 1, from_ := (h.beacon + draw 3) % 2 ^ 32 }
      if g.first + g.hops ≤ (hrCfg s net).cfpCount ∧ slotsFree h g.first g.hops then
        tellGrant net g g.period (modNet net (fun x => { x with grants := x.grants ++ [g] }) s1)
      else s1

/-- The version announced takes effect: told meters change, the others keep their routes and are told again; what the queue still holds
of it is not sent any more (R117). -/
def adoptRoutes (net : Nat) (s : State) : State :=
  let h := hrNet s net
  match h.next with
  | none => s
  | some (routes, instant) =>
    if instant ≠ h.beacon then s
    else
      let force : Tbl Route := Tbl.mapVals routes fun a r => if a ∈ h.unacked then routeNow h a else r
      let s1 := modNet net (fun h =>
        { h with version := h.version + 1, routes := force, since := instant, next := none, unacked := []
                 tx := h.tx.filter fun t => t.type != htRoute }) s
      pruneGrants net (if h.unacked = [] then s1 else announceRoutes net routes s1)

end Sys2Proof.Machine
end

