-- ==== Sys2Proof/Machine/Hedgerow.lean ====
section
/-!
DEFINITION. What happens on a Hedgerow network: frames received, beacons, exchanges, tone maps, joining and routes
(R100 to R118), and ROUTE_READ (R404).
-/

namespace Sys2Proof.Machine

/-! ### Receiving -/

/-- A frame on a hearing Hedgerow channel, past HCS and addressed to the device, of a type; discarded otherwise, one that an
APPLY cuts after it was detected (R90, R96, R107); so is a frame other than a beacon that names the device its sender (R106; DESIGN
CHOICE, assumption log 76). -/
def hrHeard (r : HrRx) (type : Nat) (f : State → State) (s : State) : State :=
  let c := (chan s r.lc).act
  if broken s r.lc (tb4 s) r.span.1 then countStat r.lc stRxDetect 1 s
  else if ¬ hears s r.lc r.span.1 ∨ c.macType ≠ 1 then s
  else if erased s c r.span then countStat r.lc stHalfDuplexLost 1 s
  else
    let s1 := countStat r.lc stRxDetect 1 s
    if ¬ hcsOk r.bytes then countStat r.lc stHcsFail 1 s1
    else if ¬ hfMine c r.bytes ∨ hfType r.bytes ≠ type ∨ (hfBit r.bytes 5 ∧ type ≠ htBeacon) then s1
    else f s1

/-- The blanked share exceeds HR_BLANK_DROP (R110). -/
def overBlanked (c : ChanCfg) (r : HrRx) : Bool := decide (4 * c.hrBlankLimit < r.blanked)

/-- The neighbour a frame names as its sender, changed; a frame of a coordinator names none (R106). -/
def onLink (r : HrRx) (f : Neigh → Neigh) (s : State) : State :=
  if hfBit r.bytes 5 then s else modNeigh (hfNet r.bytes) (hfSource r.bytes) f s

/-- One more frame of a neighbour failed FCS or blanking, and the NACK it draws (R107, R110, R112). -/
def hrFailed (r : HrRx) (stat reason : Nat) (s : State) : State :=
  let net := hfNet r.bytes
  let src := hfSource r.bytes
  let c := (chan s r.lc).act
  let x := (neigh s net src).getD {}
  let s1 := onLink r (fun x => { x with fails := x.fails + 1 }) (countStat r.lc stat 1 s)
  if hfWants r.bytes then
    let snr := planSnr c.plan r.snr
    sendNack r reason (snrDrop x.rx snr) (x.rx.modn != 0 || decide (c.tmFailCount ≤ x.fails + 1) || snrFell c x.rx snr) s1
  else s1

/-- The count of failed frames after an intact one: a count that has reached TM_FAIL_COUNT stands until an answer has carried
TM_REFRESH_REQ (R112). -/
def failsLeft (c : ChanCfg) (x : Neigh) : Nat := if x.fails < c.tmFailCount then 0 else x.fails

/-- The mean of a frame's group SNRs, 0.25 dB. -/
def meanSnr (plan : Nat) (r : HrRx) : Int := (planSnr plan r.snr).sum / (max 1 (planSnr plan r.snr).length : Nat)

/-- A frame that asks for no answer: it is handled when it is intact, and counts on its link either way, its SNR kept for the choice of
a channel (R100, R107, R110, R112). -/
def hrIntact (r : HrRx) (f : State → State) (s : State) : State :=
  let c := (chan s r.lc).act
  if overBlanked c r then hrFailed r stRxBlankDrop 1 s
  else if ¬ fcsOk r.bytes then hrFailed r stRxFcsFail 2 s
  else f (onLink r (fun y => { y.heard r.lc (meanSnr c.plan r) with fails := failsLeft c y }) s)

/-- An answer to an intact frame of a neighbour carries TM_REFRESH_REQ (R112). -/
def asksRefresh (c : ChanCfg) (x : Neigh) (r : HrRx) : Bool :=
  decide (c.tmFailCount ≤ x.fails) || snrFell c x.rx (planSnr c.plan r.snr)

/-- The ID of the next map issued to a neighbour, serial per link from 1 to 255 (R111). -/
def nextMapId (s : State) (net src : Nat) : Nat :=
  let pending := (hrNet s net).tx.find? fun t => t.type == htToneMap && t.dest == src
  let last := match pending with | some t => field t.payload 6 1 | none => ((neigh s net src).getD {}).rx.id
  last % 255 + 1

/-- TM_REQ: the frame is measured and TONE_MAP_RESP launched ACK_GAP after the end of the ACK, or in the next CAP where it does not
fit there; one that cannot be queued waits (R104, R111). -/
def measure (r : HrRx) (acked : Bool) (s : State) : State :=
  let net := hfNet r.bytes
  let src := hfSource r.bytes
  let c := (chan s r.lc).act
  if ¬ canSend s r.lc ∨ ¬ hfBit r.bytes 9 then s
  else
    let m := chooseMap s c ((neigh s net src).getD {}) (nextMapId s net src) r.snr
    let from_ := if acked then r.span.2 + ackGap + roboAirtime c.plan 24 else r.span.2
    let at_ := placeAt s net (from_ + ackGap) (roboAirtime c.plan 36 + ackGap + roboAirtime c.plan 24)
    let s1 := modNet net (fun h => { h with tx := h.tx.filter fun t => !(t.type == htToneMap && t.dest == src) }) s.draw
    let t : HrTx := { dest := src, type := htToneMap, seq := ((neigh s1 net src).getD {}).txSeq, endAddr := src, payload := mapBytes m, lc := some r.lc }
    let s2 := modNeigh net src (fun x => { x with txSeq := x.txSeq + 1 }) (modNet net (fun h => { h with tx := h.tx ++ [t] }) s1)
    launchTx net t at_ s2

/-- The ACK of a frame and the tone map response that follows it; an ACK that comes too late is counted, and nothing follows it (R108,
R109, R111). -/
def acknowledge (r : HrRx) (refresh again : Bool) (s : State) : State :=
  if ¬ canSend s r.lc then s
  else match sendAck r refresh again s with
    | some t => measure r true t
    | none => countStat r.lc stAckLate 1 s

/-- A map sent to a neighbour whose acknowledgement has not come. -/
def pendingMap (s : State) (net src : Nat) : Option HrTx :=
  (hrNet s net).tx.find? fun t => t.type == htToneMap && t.dest == src && t.sent

/-- A frame that uses the map the device has sent tells that the neighbour has it: the map applies to frames after the
neighbour's ACK, which was then lost (R111). -/
def adoptMap (r : HrRx) (s : State) : State :=
  let net := hfNet r.bytes
  let src := hfSource r.bytes
  match pendingMap s net src with
  | some t =>
    if hfMap r.bytes ≠ 0 ∧ field t.payload 6 1 = hfMap r.bytes then
      modNeigh net src (fun x => { x with rx := mapOfBytes (tb6 s) t.payload }) (dropTx net t s)
    else s
  | none => s

/-- A unicast or broadcast frame of a meter under the sequence window: NEW is handed on and answered, DUPLICATE answered
again, STALE refused (R108, R109). `f` says whether the frame was
taken. -/
def hrUplink (r : HrRx) (f : State → Bool × State) (s₀ : State) : State :=
  let s := adoptMap r s₀
  let net := hfNet r.bytes
  let src := hfSource r.bytes
  let q := hfSeq r.bytes
  let c := (chan s r.lc).act
  let x := (neigh s net src).getD {}
  let snr := planSnr c.plan r.snr
  let drop := snrDrop x.rx snr
  if overBlanked c r then hrFailed r stRxBlankDrop 1 s
  else if hfMap r.bytes ≠ 0 ∧ (x.rx.id ≠ hfMap r.bytes ∨ mapOld s c x.rx) then
    if hfWants r.bytes then sendNack r 3 drop true s else s
  else if ¬ fcsOk r.bytes then hrFailed r stRxFcsFail 2 s
  else
    let refresh := asksRefresh c x r
    let mean := meanSnr c.plan r
    let s0 := heardSnr net src r.lc mean (openNeigh net src s)
    match classify x.win q with
    | .stale =>
      let s1 := countStat r.lc stSeqStale 1 s0
      if hfWants r.bytes then sendNack r 4 drop false s1 else s1
    | .duplicate =>
      let s1 := modNeigh net src (fun y => { y with fails := failsLeft c y }) s0
      if hfWants r.bytes ∧ ¬ otherCopy x.lastCopy r.lc q r.span.2 then acknowledge r refresh true s1 else s1
    | .new =>
      match f s0 with
      | (false, s1) => s1
      | (true, s1) =>
        let robo := if hfMap r.bytes = 0 then countStat r.lc stRoboRx 1 s1 else s1
        let s2 := heardOn net src r.lc mean (modNeigh net src (fun y =>
          { y with win := some (markSeq y.win q), lastCopy := some (r.lc, q, r.span.2), fails := failsLeft c y }) robo)
        if ¬ hfWants r.bytes then measure r false s2
        else if r.span.2 + takeDeadline < tb4 s2 then countStat r.lc stAckLate 1 s2
        else acknowledge r refresh false s2

/-- HR_DATA_RX: the frame enters the intake buffer, or draws no answer where taking is refused (R26, R39, R108). -/
def hrDataRx (r : HrRx) (s : State) : State :=
  hrHeard r htData (hrUplink r (takeLink r.lc 0 r.sfd r.rssi r.bytes)) s

/-- HR_TONE_MAP_RESP_RX: the device's transmit map to a neighbour, mirrored; its ACK puts it in use (R113, R114, R304). -/
def hrToneMapRx (r : HrRx) (s : State) : State :=
  hrHeard r htToneMap (hrUplink r fun t =>
    let p := hrPayload r.bytes
    let net := hfNet r.bytes
    let src := hfSource r.bytes
    let t1 := modNeigh net src (fun x => { x with txNext := some (mapOfBytes (tb6 t) p) }) t
    (true, queueItem 3 (le 1 0 ++ zeros 1 ++ le 2 net ++ le 2 src ++ zeros 2 ++ slice p 0 12) true none t1)) s

/-- HR_NEIGHBOUR_REPORT_RX: the links reported toward the originator (R115). -/
def hrReportRx (r : HrRx) (s : State) : State :=
  hrHeard r htReport (hrUplink r fun t =>
    let p := hrPayload r.bytes
    let net := hfNet r.bytes
    let who := hfEnd r.bytes
    let fresh := (List.range (min 64 (field p 0 1))).map fun i => (field p (1 + 4 * i) 2, who, field p (3 + 4 * i) 1, field p (4 + 4 * i) 1)
    let t1 := modNeigh net who (fun x => { x with reported := tb6 t }) t
    (true, modNet net (fun h =>
      let old := h.links.filter fun l => l.2.1 == who
      { h with links := (h.links.filter fun l => l.2.1 != who) ++ fresh, changed := h.changed || decide (old ≠ fresh) }) t1)) s

/-- A delivered frame's own effect: a tone map is in use, a ROUTE told, a grant at its end (R104, R111, R117). -/
def hrDelivered (net : Nat) (t : HrTx) (s : State) : State :=
  if t.type = htToneMap then modNeigh net t.dest (fun x => { x with rx := mapOfBytes (tb6 s) t.payload }) s
  else if t.type = htRoute then
    modNet net (fun h =>
      { h with unacked := match h.next with
          | some (_, n) => if field t.payload 4 4 = n ∧ h.beacon + 2 ≤ n then h.unacked.filter fun a => a != t.endAddr else h.unacked
          | none => h.unacked }) s
  else if t.type = htGrant ∧ field t.payload 2 2 = 0 ∧ field t.payload 1 1 = 0 then dropSlots net t s
  else s

/-- TM_REFRESH_REQ of an answer (R114). -/
def hrRefresh (r : HrRx) (s : State) : State :=
  if hfBit r.bytes 10 then modNeigh (hfNet r.bytes) (hfSource r.bytes) (fun x => { x with refresh := true }) s else s

/-- HR_ACK_RX: the exchange ends (R114). -/
def hrAckRx (r : HrRx) (s : State) : State :=
  hrHeard r htAck (hrIntact r fun t =>
    match sentTx t (hfNet r.bytes) (hfSource r.bytes) (hfSeq r.bytes) with
    | none => t
    | some x => hrDelivered (hfNet r.bytes) x (hrRefresh r (dropTx (hfNet r.bytes) x t))) s

/-- The time a retry under R114 and the responses that follow it take: its ACK, TONE_MAP_RESP and the ACK of that. -/
def refreshTail (plan : Nat) : Nat := 3 * ackGap + 2 * roboAirtime plan 24 + roboAirtime plan 36

/-- Where the retry of a frame that drew a NACK goes without CSMA: after the NACK with TM_REFRESH_REQ, while it still fits with all
that follows; a tone map response after the NACK, or in the next CAP; none otherwise (R111, R114). -/
def retryAt (s : State) (net : Nat) (r : HrRx) (x : HrTx) : Option Nat :=
  let c := (chan s r.lc).act
  let launch := r.span.2 + ackGap
  let air := (txBytes s net c x).2
  if hfBit r.bytes 10 then
    if inWindow s net launch (launch + air + refreshTail c.plan) then some launch
    else if x.type = htToneMap then some (nextCap s net launch) else none
  else if x.type = htToneMap then some (placeAt s net launch (air + ackGap + roboAirtime c.plan 24))
  else none

/-- HR_NACK_RX: a failed attempt; with TM_REFRESH_REQ the retry follows the NACK in ROBO where it still fits (R114). -/
def hrNackRx (r : HrRx) (s : State) : State :=
  hrHeard r htNack (hrIntact r fun t =>
    let net := hfNet r.bytes
    match sentTx t net (hfSource r.bytes) (hfSeq r.bytes) with
    | none => t
    | some x =>
      let t1 := hrRefresh r t
      failTx net x (hfBit r.bytes 10) (retryAt t1 net r x) t1) s

/-! ### Joining (R118) -/

/-- The parent and level of a meter whose JOIN_REQ came from a hop: a relay's child, or the device's. -/
def joinPlace (s : State) (net src n : Nat) : Option Nat × Nat :=
  let h := hrNet s net
  if src ≠ n ∧ (Tbl.get h.neigh src).isSome ∧ (routeNow h src).relay then (some src, (routeNow h src).level + 1) else (none, 1)

/-- A JOIN_RESP joins the queue (R118); with result 1 or 2 its level is 1, its parent the device and its address the one that asked, or
the slot's (DESIGN CHOICE, assumption log 76). -/
def joinResp (lc net src endA result level : Nat) (parent : Option Nat) (s : State) : State :=
  hrSendTo net htJoinResp src endA []
    (le 1 result ++ le 1 level ++ le 2 endA ++ le 2 (parent.getD 0) ++ le 1 (flag 0 parent.isNone) ++ zeros 1) none (some lc) s

/-- The neighbour table is full, said at most once an hour. -/
def tableFull (s : State) : State := limited (limitKey 0x9103 0) nsHour (report 0x9103 kDevice 0 [] 0x0502 1 0 []) s

/-- The directory holds a meter under both its names (R118). -/
def joinSlot (s : State) (p : Bytes) : Option Nat :=
  match slotByEui s (BitVec.ofNat 64 (field p 0 8)), slotByTitle s (slice p 8 8) with
  | some a, some b => if a = b then some a else none
  | _, _ => none

/-- A meter that joins takes its place in the neighbour table and is answered; a join replaces its route and its link's state (R118). -/
def admitJoin (r : HrRx) (net src n : Nat) (t1 : State) : State :=
  let a := n % 65536
  let c := (chan t1 r.lc).act
  let (parent, level) := joinPlace t1 net src a
  let caps := some (field (hrPayload r.bytes) 16 2)
  let mean := meanSnr c.plan r
  let t2 := modNet net (fun h => { h with routes := Tbl.del h.routes a })
    (modNeigh net a (fun x => { x with win := none, lastCopy := none, fails := 0, level, parent, relay := false, caps }) (openNeigh net a t1))
  let t3 := pruneGrants net <| if parent.isNone then heardOn net a r.lc mean t2 else modNeigh net a (fun x => { x with lc := r.lc }) t2
  dlPump n (joinResp r.lc net src a 0 level parent t3)

/-- HR_JOIN_REQ_RX (R118). -/
def hrJoinRx (r : HrRx) (s : State) : State :=
  hrHeard r htJoinReq (fun t =>
    let net := hfNet r.bytes
    let src := hfSource r.bytes
    if overBlanked (chan t r.lc).act r then hrFailed r stRxBlankDrop 1 t
    else if ¬ fcsOk r.bytes then hrFailed r stRxFcsFail 2 t
    else if ¬ maySend t then t
    else
      let c := (chan t r.lc).act
      let acked := hfWants r.bytes
      let t1 := if acked then acknowledge r (asksRefresh c ((neigh t net src).getD {}) r) false t else measure r false t
      match joinSlot t1 (hrPayload r.bytes) with
      | none => joinResp r.lc net src src 1 1 none t1
      | some n =>
        if (neigh t1 net (n % 65536)).isNone ∧ neighboursFull t1 then tableFull (joinResp r.lc net src (n % 65536) 2 1 none t1)
        else admitJoin r net src n t1) s

/-! ### Beacons (R102, R118) -/

/-- HR_BEACON_RX: a beacon of this NETWORK_ID whose time disagrees with TB4 by more than one BSL (R118). -/
def hrBeaconRx (r : HrRx) (s : State) : State :=
  hrHeard r htBeacon (hrIntact r fun t =>
    let net := hfNet r.bytes
    let bsl := bslOf t net
    let said := nsOf (field (hrPayload r.bytes) 4 12) + hfLevel r.bytes * bsl
    if bsl < (said - r.span.1) + (r.span.1 - said) then report 0x9104 kChannel r.lc (le 2 net) 0x0503 1 r.lc (le 2 net) t
    else t) s

/-- A beacon's payload for an instant. -/
def beaconPayload (c : ChanCfg) (h : HrNet) (instant : Nat) : Bytes :=
  let (version, at_) := match h.next with | some (_, n) => (h.version + 1, n) | none => (h.version, h.since)
  le 4 h.beacon ++ stampNs instant ++ le 1 c.period ++ le 1 c.maxLevel ++ le 1 c.cfpCount ++ zeros 1 ++ le 2 c.cfpSlot
    ++ le 2 version.toNat ++ le 4 at_ ++ zeros 4

/-- HR_BEACON_TX: the next beacon is launched on every transmitting channel at one instant, and its number mirrored as the
base (R100, R102, R304). -/
def hrBeaconTx (net : Nat) (s : State) : State :=
  let c := hrCfg s net
  let chans := (hrChans s net).filter fun lc => canSend s lc
  let soonest := chans.foldl (fun m lc => max m (earliestLaunch s (chan s lc).act)) (tb4 s)
  let instant := beaconAt c (max ((hrNet s net).lastBeacon + 1) soonest)
  if (Tbl.get s.hr net).isNone ∨ ¬ maySend s ∨ hrChans s net = [] ∨ tb4 s + max 1 c.period * nsPerS < instant then s
  else
    let s1 := pruneGrants net (adoptRoutes net s)
    let h := hrNet s1 net
    let f := hrFrame htBeacon 0x80 net (Config.openNat s1.free % 65536) 0 0 [] 0 (beaconPayload c h instant)
    let s2 := chans.foldl (fun t lc =>
      match queueTx lc instant (roboAirtime (chan t lc).act.plan f.length) (hrSymbol (chan t lc).act.plan) f false t with
      | some u => countStat lc stBeacons 1 u
      | none => t) s1.draw
    scheduleReads net (queueItem 3 (le 1 2 ++ zeros 1 ++ le 2 net ++ zeros 4 ++ le 4 h.beacon ++ stampNs instant) true none
      (modNet net (fun x => { x with beacon := x.beacon + 1, lastBeacon := instant }) s2))

/-! ### Exchanges (R105, R112 to R114) -/

/-- CSMA backoff unit of a plan, ns (table Hedgerow timing). -/
def backoffUnit (plan : Nat) : Nat := if plan = 5 then 1390 * nsUs else 463 * nsUs

/-- The end of the assessment that follows a frame's backoff of 0 to 2^BE - 1 units, in a contention access period that began at an
instant (R105). A backoff that the period's end cuts counts again from the next one's start (DESIGN CHOICE, assumption log 76). -/
def assessedAt (c : ChanCfg) (plan cap : Nat) (t : HrTx) : Nat :=
  max cap t.since + (Config.backoffDraw t.draw % 2 ^ max t.be c.minBe + 1) * backoffUnit plan

/-- HR_CSMA_ATTEMPT in the CAP, once the backoff and the assessment are over: a busy channel raises BE and draws again, a free one lets
the frame go when it and its response end within the CAP. -/
def hrCsma (net : Nat) (busy : Bool) (s : State) : State :=
  let c := hrCfg s net
  match nextTx s net with
  | none => s
  | some t =>
    if ¬ maySend s ∨ inCap s net (tb4 s) (tb4 s) = false ∨ tb4 s < assessedAt c (chan s (txChan s net t)).act.plan (capOf s net (tb4 s)).1 t then s
    else if busy then
      let t1 : HrTx := { armTx s t with be := min (max t.be c.minBe + 1) c.maxBe, assessed := t.assessed + 1 }
      if t1.assessed < c.maxCsma then (modTx net t (fun _ => t1) s).draw
      else
        let s1 := (if t.bcast then hrChans s net else [txChan s net t]).foldl (fun u lc => countStat lc stCsmaFail 1 u) s
        if t.bcast then dropTx net t s1
        else
          let t2 : HrTx := { t with attempts := t.attempts + 1 }
          failTx net t2 t.robo none (modTx net t (fun _ => t2) s1)
    else
      let chans := if t.bcast then hrChans s net else [txChan s net t]
      let soonest := chans.foldl (fun m lc => max m (earliestLaunch s (chan s lc).act)) 0
      let fits := chans.all fun lc =>
        let k := (chan s lc).act
        capFits s net k.plan soonest (txBytes s net k t).2
      if ¬ fits then s else if t.bcast then launchBcast net t soonest s else launchTx net t soonest s

/-- A frame to a neighbour for which nothing is left to wait: sent without an answer, or a tone map response that could not be queued. -/
def overdue (s : State) (net dest : Nat) : Option HrTx :=
  (hrNet s net).tx.find? fun t => t.dest == dest && if t.sent then decide (t.wait ≤ tb4 s) else t.type == htToneMap

/-- HR_ACK_WAIT_TIMEOUT: a frame that drew no answer is retried, a tone map response at once where it fits (R104, R105, R111). -/
def hrAckWait (net dest : Nat) (s : State) : State :=
  match overdue s net dest with
  | none => s
  | some t =>
    let c := (chan s (txChan s net t)).act
    let at_ := placeAt s net (earliestLaunch s c) (roboAirtime c.plan 36 + ackGap + roboAirtime c.plan 24)
    if ¬ t.sent then launchTx net t at_ s
    else failTx net t false (if t.type = htToneMap then some at_ else none) s

/-- TONE_MAP_AGE_EXPIRY: the next frame to the neighbour asks for a new map (R112). -/
def toneMapAge (net a : Nat) (s : State) : State :=
  match neigh s net a with
  | some x => guarded (match x.tx with | some m => mapOld s (hrCfg s net) m | none => false)
      (modNeigh net a fun x => { x with refresh := true }) s
  | none => s

/-- ROUTE_RECOMPUTE (R116, R117). -/
def routeRecompute (net : Nat) (s : State) : State :=
  let h := hrNet s net
  let c := hrCfg s net
  if ¬ h.changed ∨ ¬ maySend s ∨ h.next.isSome ∨ tb6 s < h.recomputed + c.routeInterval * nsPerS then s
  else
    let routes := newRoutes h c.maxLevel c.hysteresis
    let s1 := modNet net (fun h => { h with changed := false, recomputed := tb6 s }) s
    if routes.all fun p => decide (routeNow h p.1 = p.2) then s1 else announceRoutes net routes s1

/-- ROUTE_READ (R404). -/
def routeReadDef : CmdDef :=
  { tokenRead 0x0307 (fun s c => let h := hrNet s (c.arg 0 2); le 2 h.version.toNat ++ zeros 2 ++ routeTable h h.routes) with
    args := fun s c => orFail (Tbl.get s.hr (c.arg 0 2)).isSome stOutOfRange }

/-! ### The meanings -/

def execHrDataRx (r : HrRx) (s : State) : Host.Outcome State Fault Refusal := whileRunning (fun t => hrDataRx (hrSeen t r) t) s
def execHrAckRx (r : HrRx) (s : State) : Host.Outcome State Fault Refusal := whileRunning (fun t => hrAckRx (hrSeen t r) t) s
def execHrNackRx (r : HrRx) (s : State) : Host.Outcome State Fault Refusal := whileRunning (fun t => hrNackRx (hrSeen t r) t) s
def execHrToneMapRespRx (r : HrRx) (s : State) : Host.Outcome State Fault Refusal := whileRunning (fun t => hrToneMapRx (hrSeen t r) t) s
def execHrJoinReqRx (r : HrRx) (s : State) : Host.Outcome State Fault Refusal := whileRunning (fun t => hrJoinRx (hrSeen t r) t) s
def execHrNeighbourReportRx (r : HrRx) (s : State) : Host.Outcome State Fault Refusal := whileRunning (fun t => hrReportRx (hrSeen t r) t) s
def execHrBeaconRx (r : HrRx) (s : State) : Host.Outcome State Fault Refusal := whileRunning (fun t => hrBeaconRx (hrSeen t r) t) s
def execHrBeaconTx (net : Nat) (s : State) : Host.Outcome State Fault Refusal := whileRunning (hrBeaconTx net) s
def execHrCsmaAttempt (net : Nat) (busy : Bool) (s : State) : Host.Outcome State Fault Refusal := whileRunning (hrCsma net busy) s
def execHrAckWaitTimeout (net dest : Nat) (s : State) : Host.Outcome State Fault Refusal := whileRunning (hrAckWait net dest) s
def execToneMapAgeExpiry (net a : Nat) (s : State) : Host.Outcome State Fault Refusal := whileRunning (toneMapAge net a) s
def execRouteRecompute (net : Nat) (s : State) : Host.Outcome State Fault Refusal := whileRunning (routeRecompute net) s
def execRouteRead (d : Desc) (s : State) : Host.Outcome State Fault Refusal := runCmd routeReadDef (.routeRead d) d s

end Sys2Proof.Machine
end

