-- ==== Sys2Proof/Machine/Bramble.lean ====
section
/-!
DEFINITION. What happens on a Bramble network: connections, events, downlink, updates, channel quality, watch bursts
(R121 to R139), and the link commands (R404).
-/

namespace Sys2Proof.Machine

/-- ACK_GAP and the take deadline of Bramble, ns (table Bramble timing). -/
def brGap : Nat := 1000 * nsUs
def brDeadline : Nat := 700 * nsUs

/-! ### Statistics (table Bramble statistics) -/

def sbAckSent : Nat := 0xC0
def sbNackSent : Nat := 0xC4
def sbDupReacked : Nat := 0xC8
def sbSeqStale : Nat := 0xCC
def sbHcsFail : Nat := 0xD0
def sbAckLate : Nat := 0xD4
def sbDrift : Nat := 0xD8
def sbHop : Nat := 0xDC
def sbDeferred : Nat := 0xE0
def sbSuppressed : Nat := 0xE4
def sbRdvSent : Nat := 0xE8
def sbLost : Nat := 0xEC
def sbCounterStale : Nat := 0xF8
def sbExhausted : Nat := 0xFC

/-! ### A frame's fields (R125) -/

def bfWord (f : Bytes) : Word := BitVec.ofNat 32 (field f 0 4)
def bfType (f : Bytes) : Nat := field f 4 2 % 16
def bfWants (f : Bytes) : Bool := field f 4 2 / 16 % 2 == 1
def bfMore (f : Bytes) : Bool := field f 4 2 / 64 % 2 == 1
def bfSeq (f : Bytes) : BitVec 16 := BitVec.ofNat 16 (field f 8 2)
def bfAddr (f : Bytes) : Nat := field f 10 2
def bfCounter (f : Bytes) : Nat := field f 12 4

/-- FCS holds over the length the header gives. -/
def bfcsOk (f : Bytes) : Bool :=
  let n := 20 + field f 16 2
  f.length == n + 4 && (crc32c (f.take n)).toNat == field f n 4

/-- The connection of an access word. -/
def connByWord (s : State) (aw : Word) : Option (Nat × Conn) := s.br.conns.find? fun p => p.2.aw == aw

/-- A lost connection's entry that its supervision timeout has not yet forgotten. -/
def lostByWord (s : State) (aw : Word) : Option (Word × Nat × Nat × Nat × Nat) :=
  s.br.lost.find? fun l => l.1 == aw && decide (tb6 s < l.2.2.1)

/-! ### Anchors and versions (R133, R134, R137) -/

/-- Expected anchor of an event under the parameters in force; an update's interval counts from its instant (R133, R137). -/
def anchorOf (c : Conn) (new : Bool) (n : Nat) : Int :=
  match c.update, new with
  | some u, true =>
    let b := max 0 (evDiff u.instant c.n0)
    c.a0 + b * (c.params.ns : Int) + (evDiff n c.n0 - b) * ((u.apply c.params).ns : Int)
  | _, _ => c.a0 + evDiff n c.n0 * (c.params.ns : Int)

/-- Window widening of an event, ns (R133). -/
def widening (k : ChanCfg) (c : Conn) (new : Bool) (n : Nat) : Nat :=
  (k.devPpm10 + 10 * c.ppm) * (anchorOf c new n - c.a0).toNat / 10 ^ 7 + 32 * nsUs

/-- The versions of its parameters a connection is tried under for an event: the old one; the new one alone from the instant of an
acknowledged update; both while an update that has been sent is unacknowledged (R134, R137). -/
def versions (c : Conn) (n : Nat) : List Bool :=
  match c.update with
  | none => [false]
  | some u =>
    if u.attempts = 0 ∧ ¬ u.both then [false]
    else if u.acked then [decide (0 ≤ evDiff n u.instant)] else [false, true]

/-- The parameters of a version. -/
def paramsOf (c : Conn) (new : Bool) : BrParams := match c.update, new with | some u, true => u.apply c.params | _, _ => c.params

/-- A frame's index fits the hop of its event under a version (R134 condition 1). -/
def hopFits (k : ChanCfg) (c : Conn) (new : Bool) (n index : Nat) : Bool :=
  index == hop k.plan (paramsOf c new).map c.aw (BitVec.ofNat 32 n)

/-- The limit of an event after its anchor (R130). -/
def eventLimit (c : Conn) : Nat := min (c.params.ns - 2500 * nsUs) (400 * nsMs)

/-- Event n0 is open at an instant: its exchange goes on, and a further one still fits (R130, R134). -/
def eventOpen (k : ChanCfg) (c : Conn) (t : Nat) : Bool :=
  c.open_ && c.event == c.n0 && decide ((t + brAirtime c.params.phy k.preamble 24 + brGap + brAirtime c.params.phy k.preamble 32 : Int) ≤ c.a0 + eventLimit c)

/-- A frame's counter is acceptable under a version at its start (R134 condition 2, R136). -/
def counterFits (k : ChanCfg) (c : Conn) (new : Bool) (n start : Nat) : Bool :=
  let p := paramsOf c new
  if c.state = .unanchored then decide (c.stored ≤ n)
  else
    let d := evDiff n c.n0
    (d == 0 && eventOpen k c start) || (decide (1 ≤ d) && decide (d ≤ ceilDiv (p.timeout * nsMs) (max 1 p.ns) + 1))

/-- The frame's start is on time under a version (R133). -/
def onTime (k : ChanCfg) (c : Conn) (new : Bool) (n start : Nat) : Bool :=
  decide (((start : Int) - anchorOf c new n).natAbs ≤ widening k c new n)

/-! ### Watch (R139, R353) -/

/-- BR_WATCH of a lane group: that of its first Bramble channel in force. -/
def watchOf (s : State) (g : Nat) : Word :=
  match s.lane.chans.find? fun c => c.2.act.bound && c.2.act.macType == 2 && c.2.act.port / 4 == g with
  | some c => c.2.act.brWatch
  | none => ({} : ChanCfg).brWatch

/-- WATCH_PERIOD of a lane group, ns. -/
def watchPeriod (s : State) (g : Nat) : Nat := max 1 (bits (watchOf s g) 16 16) * nsMs

/-- TB5 within a WATCH_PERIOD lies in its WATCH_ON. -/
def inBurst (s : State) (g : Nat) : Bool := decide (tb5 s % watchPeriod s g < bits (watchOf s g) 0 16 * nsMs)

/-- The lane group of a channel is in WATCH. -/
def watching (s : State) (lc : Nat) : Bool := (Tbl.getD s.pwr.doms (4 + (chan s lc).act.port / 4) {}).watch

/-- A frame lies in a wideband capture that runs: it began in the period whose burst is on. -/
def captured (s : State) (r : BrRx) : Bool :=
  let g := (chan s r.lc).act.port / 4
  decide (g ∈ s.lane.watchBurst) && decide (tb5 s / watchPeriod s g * watchPeriod s g ≤ r.span.1)

/-- Events since n0 at an instant, by the anchors of a version. -/
def eventsTo (c : Conn) (new : Bool) (t : Int) : Int :=
  match c.update, new with
  | some u, true =>
    let b := max 0 (evDiff u.instant c.n0)
    let turn := c.a0 + b * (c.params.ns : Int)
    if t < turn then (t - c.a0) / max 1 c.params.ns else b + (t - turn) / max 1 (u.apply c.params).ns
  | _, _ => (t - c.a0) / max 1 c.params.ns

/-- The exchange of a connection's last event lasts at an instant: a side has set MORE_DATA, or the device's frame awaits its answer,
within the event's limit (R130, R139). -/
def exchanges (c : Conn) (start : Nat) : Bool :=
  (c.open_ || c.sentNow) && decide (c.eventAt ≤ start) && decide ((start : Int) ≤ c.eventAt + eventLimit c)

/-- A watching channel keeps an index for a connection at an instant: within the window of one of its events under a version, or
while the exchange of its last event lasts. One without an anchor has no window (R136, R139). -/
def keeps (k : ChanCfg) (c : Conn) (index start : Nat) : Bool :=
  c.state != .unanchored && [false, true].any fun v =>
    let near := eventsTo c v start
    let w := widening k c v ((c.n0 + near.toNat) % 2 ^ 32) / max 1 (paramsOf c v).ns + 2
    ((List.range (2 * w + 1)).any fun j =>
      let e := near + j - w
      let n := ((c.n0 : Int) + e).toNat % 2 ^ 32
      decide (1 ≤ e) && decide (v ∈ versions c n) && hopFits k c v n index && onTime k c v n start)
    || (decide (v ∈ versions c c.event) && hopFits k c v c.event index && exchanges c start)

/-- A watching channel still hears its rendezvous indices, each connection's own channel around its anchor, and what a capture
burst holds (R139). -/
def watchHears (s : State) (r : BrRx) : Bool :=
  let k := (chan s r.lc).act
  !watching s r.lc || captured s r || decide (r.index ∈ k.rdv)
    || s.br.conns.any fun x => x.2.net == k.netId && keeps k x.2 r.index r.span.1

/-! ### Receiving (R126) -/

/-- A detected frame on an index is noted for its quality (R138). -/
def noteQuality (net index : Nat) (failed : Bool) (s : State) : State :=
  s.onBr fun b =>
    { b with quality := (net, index, tb6 s, failed) :: b.quality.filter fun q => decide (tb6 s < q.2.2.1 + 600 * nsPerS) }

/-- The blanked share exceeds BLANK_DROP. -/
def brBlanked (k : ChanCfg) (r : BrRx) : Bool := decide (4 * k.brBlank < r.blanked)

/-- A response within an exchange: launched ACK_GAP after a frame's end under the response rule. -/
def brRespond (r : BrRx) (mode : Nat) (f : Bytes) (stats : List Nat) (isAck : Bool) (s : State) : Option State :=
  (brSend .response r.lc (r.span.2 + brGap) mode f isAck s).map fun t => stats.foldl (fun u x => countStat r.lc x 1 u) t

/-- A response its dwell does not admit is counted, and said (R132). -/
def brSuppressed (r : BrRx) (mode : Nat) (f : Bytes) (other : State → State) (s : State) : State :=
  if ¬ canSend s r.lc then s
  else if dwellRefuses .response r.lc mode f s then dwellNotice (chan s r.lc).act r.index (countStat r.lc sbSuppressed 1 s)
  else other s

/-- A NACK (R126, R131). -/
def brNack (r : BrRx) (mode reason : Nat) (s : State) : State :=
  let f := brFrame (bfWord r.bytes) btNack false false (field r.bytes 6 2) (bfSeq r.bytes).toNat (bfAddr r.bytes) (bfCounter r.bytes)
    (le 1 reason ++ le 1 (min 255 ((r.blanked + 2) / 4)) ++ zeros 2)
  (brRespond r mode f [sbNackSent] false s).getD (brSuppressed r mode f id s)

/-- The PHY mode of an access word the device knows: the rendezvous mode, a connection's, or a lost connection's (R126). -/
def wordMode (s : State) (r : BrRx) : Option Nat :=
  if bfWord r.bytes = rdvWord then some (chan s r.lc).act.rdvMode
  else match connByWord s (bfWord r.bytes) with
    | some (_, c) => some c.params.phy
    | none => (lostByWord s (bfWord r.bytes)).map fun l => l.2.2.2.2

/-- HCS holds (R126). -/
def bhcsOk (f : Bytes) : Bool := decide (20 ≤ f.length) && (crc16 (f.take 18)).toNat == field f 18 2

/-- A frame on a hearing Bramble channel: its access word is matched first, then HCS, and only then blanking and FCS, which draw a NACK
where the frame asks for one; an intact frame of the network and of a type the row brings is handled. Every frame detected counts in its
index's quality (R96, R126, R138, R139). -/
def brHeard (r : BrRx) (types : List Nat) (f : State → State) (s : State) : State :=
  let k := (chan s r.lc).act
  if broken s r.lc (tb5 s) r.span.1 then countStat r.lc stRxDetect 1 s else
  match wordMode s r with
  | none => s
  | some mode =>
    if ¬ hears s r.lc r.span.1 ∨ k.macType ≠ 2 ∨ ¬ watchHears s r then s
    else if erased s k r.span then countStat r.lc stHalfDuplexLost 1 s
    else
      let header := bhcsOk r.bytes
      let blanked := brBlanked k r
      let s1 := noteQuality k.netId r.index (header && !blanked && !bfcsOk r.bytes) (countStat r.lc stRxDetect 1 s)
      if ¬ header then countStat r.lc sbHcsFail 1 s1
      else if blanked then
        let s2 := countStat r.lc stRxBlankDrop 1 s1
        if bfWants r.bytes then brNack r mode 1 s2 else s2
      else if ¬ bfcsOk r.bytes then
        let s2 := countStat r.lc stRxFcsFail 1 s1
        if bfWants r.bytes then brNack r mode 2 s2 else s2
      else if field r.bytes 6 2 ≠ k.netId ∨ bfType r.bytes ∉ types then s1
      else f s1

/-! ### Connections that end (R134, R135, R137) -/

/-- Downlink of a connection that ends stays with its commands. -/
def freeDown (c : Conn) (s : State) : State := c.down.foldl (fun t d => dlLost d.1 t) s

/-- A connection is dropped. -/
def dropConn (n : Nat) (s : State) : State :=
  match conn s n with
  | none => s
  | some c => freeDown c (s.onBr fun b => { b with conns := Tbl.del b.conns n })

/-- The channel a connection's own count goes to: its meter's last, or its network's first (R141; DESIGN CHOICE, assumption log 58). -/
def connChan (s : State) (c : Conn) : Nat := c.lc.getD ((netChans s 2 c.net).headD 0)

/-- The timeout in force: that of an acknowledged update from its instant on (R135, R137). -/
def timeoutNow (s : State) (c : Conn) : Nat :=
  match c.update with
  | some u => if u.acked ∧ anchorOf c false u.instant ≤ (tb5 s : Int) then (u.apply c.params).timeout else c.params.timeout
  | none => c.params.timeout

/-- The instant at which the supervision timer passes, under the timeout in force. -/
def supervisedTo (s : State) (c : Conn) : Nat := c.superviseAt + timeoutNow s c * nsMs - c.params.timeout * nsMs

/-- BR_SUPERVISION_TIMEOUT: an offer is dropped, a connection lost (R135, table Connection states). -/
def supervisionTimeout (n : Nat) (s : State) : State :=
  match conn s n with
  | none => s
  | some c =>
    if tb6 s < supervisedTo s c then s
    else if c.state = .offered then dropConn n s
    else
      let s1 := (dropConn n s).onBr fun b =>
        { b with lost := (c.aw, n, tb6 s + timeoutNow s c * nsMs, c.net, c.params.phy) :: b.lost }
      hourly (limitKey 0x9201 0) 64 (yew 0x9201 kSlot n (le 4 c.aw.toNat))
        (post 0x0603 3 n (le 4 c.aw.toNat) (countStat (connChan s c) sbLost 1 s1))

/-- BR_CONNECTION_FORGET (R135). -/
def connectionForget (aw : Word) (s : State) : State :=
  s.onBr fun b => { b with lost := b.lost.filter fun l => !(l.1 == aw && decide (l.2.2.1 ≤ tb6 s)) }

/-! ### Downlink within an event (R130, R131, R137) -/

/-- What the device would send a meter next. -/
inductive Next where
  | nothing | data | update | terminate
  deriving DecidableEq, Repr

/-- The device's present frame: one already sent stays first; then the end of the connection, an update, data. One abandoned is
present no more (R131). -/
def nextDown (c : Conn) : Next :=
  let tried := match c.down with | d :: _ => decide (0 < d.2.2) | [] => false
  let open_ := match c.update with | some u => u.ready && !u.acked && !u.both && !u.given | none => false
  let begun := match c.update with | some u => decide (0 < u.attempts) | none => false
  if tried then .data
  else if open_ && begun then .update
  else if c.terminating.isSome && !c.termOver then .terminate
  else if open_ then .update
  else if c.down.isEmpty then .nothing else .data

/-- The device has a further frame for the event once one is acknowledged (table Bramble frame control). -/
def further (c : Conn) : Bool := nextDown c != .nothing

/-- The present frame in event n, and the connection once it is sent; MORE_DATA tells of any frame that follows it. -/
def downFrame (c : Conn) (n : Nat) : Option (Bytes × Conn) :=
  let mk (type : Nat) (more : Bool) (p : Bytes) : Bytes := brFrame c.aw type true more c.net c.txSeq.toNat (c.slot % 65536) n p
  match nextDown c with
  | .nothing => none
  | .data =>
    match c.down with
    | [] => none
    | d :: rest => some (mk btData (further { c with down := rest }) d.2.1, { c with down := (d.1, d.2.1, d.2.2 + 1) :: rest, sentNow := true })
  | .update =>
    match c.update with
    | none => none
    | some u =>
      let v : BrUpdate := { u with instant := if u.attempts = 0 then (n + 6) % 2 ^ 32 else u.instant, attempts := u.attempts + 1 }
      let p := if v.isMap then le 32 v.params.map.toNat ++ le 4 v.instant
        else le 4 v.params.interval ++ le 4 v.params.timeout ++ le 4 v.instant ++ zeros 4
      let more := further { c with update := some { v with acked := true } }
      some (mk (if v.isMap then btChannelMap else btParamUpdate) more p, { c with update := some v, sentNow := true })
  | .terminate =>
    match c.terminating with
    | none => none
    | some (reason, k) =>
      some (mk btTerminate false (le 1 reason ++ zeros 3),
        { c with terminating := some (reason, some (k.getD n)), sentNow := true, termSent := c.termSent + 1 })

/-- The exchange of a frame from an instant on ends within the limit of the event (R130). -/
def fitsEvent (k : ChanCfg) (c : Conn) (launch bytes : Nat) : Bool :=
  decide (launch + brAirtime c.params.phy k.preamble bytes + brGap + brAirtime c.params.phy k.preamble 32 ≤ c.eventAt + eventLimit c)

/-- The device has a frame to send in the present event at an instant: owed, not sent in this event, and its exchange fits. -/
def downDue (k : ChanCfg) (c : Conn) (launch : Nat) : Option (Bytes × Conn) :=
  if c.sentNow then none
  else match downFrame c c.event with
    | some (f, c1) => if fitsEvent k c launch f.length then some (f, c1) else none
    | none => none

/-- The device's frame goes out at an instant; deferred where its dwell does not admit it, the event going on (R132). -/
def sendDown (n lc launch : Nat) (s : State) : State :=
  match conn s n with
  | none => s
  | some c =>
    let k := (chan s lc).act
    match downDue k c launch with
    | none => s
    | some (f, c1) =>
      if dwellRefuses .downlink lc c.params.phy f s then countStat lc sbDeferred 1 s
      else
        match brSend .downlink lc launch c.params.phy f false s with
        | some s1 =>
          let owner := match nextDown c, c.down with | .data, d :: _ => some d.1 | _, _ => none
          dlSent owner (modConn n (fun _ => { c1 with sentOn := lc }) s1)
        | none => s

/-- The meter acknowledged the device's present frame. -/
def downAcked (n : Nat) (s : State) : State :=
  match conn s n with
  | none => s
  | some c =>
    let s1 := modConn n (fun x => { x with txSeq := x.txSeq + 1, sentNow := false }) s
    match nextDown c with
    | .nothing => s
    | .data => modConn n (fun x => { x with down := x.down.drop 1 }) s1
    | .update => modConn n (fun x => { x with update := x.update.map fun u => { u with acked := true } }) s1
    | .terminate => dropConn n s1

/-- The present frame has been sent as often as it may be, and what becomes of the connection: its DATA, update or TERMINATE is
abandoned (R131). -/
def givenUp (k : ChanCfg) (c : Conn) : Option (Option Nat × Conn) :=
  let next (x : Conn) : Conn := { x with txSeq := x.txSeq + 1 }
  match nextDown c, c.down, c.update with
  | .data, d :: rest, _ => if k.brRetry < d.2.2 then some (some d.1, next { c with down := rest }) else none
  | .update, _, some u => if k.brRetry < u.attempts then some (none, next { c with update := some { u with given := true } }) else none
  | .terminate, _, _ => if k.brRetry < c.termSent then some (none, next { c with termOver := true }) else none
  | _, _, _ => none

/-- A new event opens at its first frame: a frame sent too often is abandoned, charged to the channel it left on (R130, R131, R141). -/
def openEvent (n lc e start : Nat) (s : State) : State :=
  let s1 := modConn n (fun x => { x with sentNow := false, event := e, eventAt := start }) s
  match conn s1 n with
  | none => s1
  | some c =>
    match givenUp (chan s1 lc).act c with
    | some (owner, c1) => dlExhausted owner (countStat c.sentOn sbExhausted 1 (modConn n (fun _ => c1) s1))
    | none => s1

/-! ### Frames of a connection (R130 to R134, R137) -/

/-- An update whose instant a frame has reached: adopted when acknowledged, or when the frame matches the new version alone; sent
anew when it matches the old alone; undecided while frames match both (R137, assumption log 26). -/
def judgeUpdate (k : ChanCfg) (n : Nat) (c : Conn) (r : BrRx) (s : State) : State :=
  match c.update with
  | none => s
  | some u =>
    let e := bfCounter r.bytes
    if u.attempts = 0 ∨ evDiff e u.instant < 0 then s
    else if u.acked then brCampaign n (adoptUpdate n s)
    else if ¬ u.both then s
    else
      let old := hopFits k c false e r.index && (u.isMap || onTime k c false e r.span.1)
      let new := hopFits k c true e r.index && (u.isMap || onTime k c true e r.span.1)
      if new ∧ ¬ old then brCampaign n (adoptUpdate n s)
      else if old ∧ ¬ new ∧ maySend s then
        modConn n (fun x => { x with update := some { u with both := false, attempts := 0, instant := 0, given := false } }) s
      else s

/-- The device's answer to an intact meter frame: the ACK with its anchor offset, then downlink (R130, R132). -/
def brAnswer (r : BrRx) (n : Nat) (offset : Option Int) (stats : List Nat) (s : State) : State :=
  match conn s n with
  | none => s
  | some c =>
    let k := (chan s r.lc).act
    let end_ := r.span.2 + brGap + brAirtime c.params.phy k.preamble 32
    let due := downDue k c (end_ + brGap)
    let off : Int := (offset.getD 0) / (nsUs : Int)
    let f := brFrame c.aw btAck false due.isSome c.net (bfSeq r.bytes).toNat (c.slot % 65536) (bfCounter r.bytes)
      (le 4 (unsigned 4 off) ++ le 1 (flag 0 offset.isSome) ++ zeros 3)
    let held (more : Bool) : State → State := modConn n fun x => { x with open_ := bfMore r.bytes || more }
    match brRespond r c.params.phy f (sbAckSent :: stats) true s with
    | some s1 =>
      let s2 := held due.isSome s1
      if due.isSome then sendDown n r.lc (end_ + brGap) s2 else s2
    | none => brSuppressed r c.params.phy f (countStat r.lc sbAckLate 1) (held false s)

/-- A frame that is the first of its event. -/
def opensEvent (c : Conn) (e : Nat) : Bool := decide (c.state ≠ .connected) || e != c.event

/-- A taken frame moves its connection: anchor, window, supervision (R133 to R136). -/
def brTaken (r : BrRx) (n : Nat) (c : Conn) (s : State) : State :=
  let k := (chan s r.lc).act
  let e := bfCounter r.bytes
  let first := opensEvent c e
  let drift := c.state != .unanchored && first && !((versions c e).any fun v => onTime k c v e r.span.1)
  let started := decide (c.state = .offered)
  let s1 := if drift then countStat r.lc sbDrift 1 s else s
  let s2 := modConn n (fun x =>
    { x with state := .connected
             win := some (markSeq (if started then none else x.win) (bfSeq r.bytes))
             lastCopy := some (r.lc, bfSeq r.bytes, r.span.2)
             lc := some r.lc
             superviseAt := tb6 s + x.params.timeout * nsMs }) s1
  let s3 := if first then
      openEvent n r.lc e r.span.1 (modConn n (fun x => { x with n0 := e, a0 := r.span.1, open_ := true }) s2)
    else s2
  if started then dlPump n (brCampaign n (commit s3)) else if c.state = .unanchored then brCampaign n s3 else s3

/-- A DATA or EMPTY frame of a connection: an update is judged by every frame taken, and by its copies (R130, R131, R134, R137). -/
def brFromMeter (r : BrRx) (n : Nat) (c : Conn) (s : State) : State :=
  let k := (chan s r.lc).act
  let e := bfCounter r.bytes
  let on := (versions c e).filter fun v => hopFits k c v e r.index
  if on = [] then countStat r.lc sbHop 1 s
  else if ¬ on.any fun v => counterFits k c v e r.span.1 then countStat r.lc sbCounterStale 1 s
  else
    let q := bfSeq r.bytes
    let win := if c.state = .offered then none else c.win
    let version := (on.find? fun v => onTime k c v e r.span.1).getD (on.headD false)
    let offset : Option Int :=
      if c.state = .unanchored then none
      else some (if opensEvent c e then (r.span.1 : Int) - anchorOf c version e else 0)
    match classify win q with
    | .stale =>
      let s1 := countStat r.lc sbSeqStale 1 s
      if bfWants r.bytes then brNack r c.params.phy 4 s1 else s1
    | .duplicate =>
      let s0 := modConn n (fun x => { x with open_ := bfMore r.bytes }) (judgeUpdate k n c r s)
      let s1 := if opensEvent c e then openEvent n r.lc e r.span.1 s0 else s0
      if bfWants r.bytes ∧ ¬ otherCopy c.lastCopy r.lc q r.span.2 then brAnswer r n offset [sbDupReacked] s1 else s1
    | .new =>
      let (ok, s1) := takeLink r.lc 1 r.sfd r.rssi r.bytes s
      if ¬ ok then s1
      else
        let s2 := brTaken r n c (judgeUpdate k n c r s1)
        let closed := modConn n (fun x => { x with open_ := bfMore r.bytes }) s2
        if ¬ bfWants r.bytes then closed
        else if r.span.2 + brDeadline < tb5 s2 then countStat r.lc sbAckLate 1 closed
        else brAnswer r n offset [] s2

/-- A frame under a lost connection's word is answered with TERMINATE reason 1, whatever its type (R134). -/
def answerLost (r : BrRx) (l : Word × Nat × Nat × Nat × Nat) (s : State) : State :=
  let phy := l.2.2.2.2
  let f := brFrame l.1 btTerminate false false l.2.2.2.1 (Config.openNat s.free % 65536) (l.2.1 % 65536) (bfCounter r.bytes) (le 1 1 ++ zeros 3)
  if dwellRefuses .downlink r.lc phy f s then countStat r.lc sbDeferred 1 s
  else ((brSend .downlink r.lc (r.span.2 + brGap) phy f false s).getD s).draw

/-- A frame of a connection's word, intact, or of a lost connection's. -/
def brConnected (r : BrRx) (types : List Nat) (f : Nat → Conn → State → State) (s : State) : State :=
  brHeard r types (fun t =>
    match connByWord t (bfWord r.bytes), lostByWord t (bfWord r.bytes) with
    | some (n, c), _ => f n c t
    | none, some l => answerLost r l t
    | none, none => t) s

/-- BR_DATA_RX (R134). -/
def brDataRx (r : BrRx) (s : State) : State := brConnected r [btData, btEmpty] (brFromMeter r) s

/-- BR_ACK_RX: the device's frame is delivered, and its next follows where the event still has room (R130, R131). -/
def brAckRx (r : BrRx) (s : State) : State :=
  brConnected r [btAck] (fun n c u =>
    if c.sentNow ∧ c.txSeq = bfSeq r.bytes ∧ c.event = bfCounter r.bytes then
      let u1 := downAcked n u
      match conn u1 n with
      | none => u1
      | some c1 =>
        let launch := r.span.2 + brGap
        if (downDue (chan u1 r.lc).act c1 launch).isSome then sendDown n r.lc launch (modConn n (fun x => { x with open_ := true }) u1)
        else modConn n (fun x => { x with open_ := bfMore r.bytes }) u1
    else u) s

/-- BR_NACK_RX: the frame stays for a later event (R131). -/
def brNackRx (r : BrRx) (s : State) : State :=
  brConnected r [btNack] (fun n c u =>
    if c.sentNow ∧ c.txSeq = bfSeq r.bytes then modConn n (fun x => { x with open_ := bfMore r.bytes }) u else u) s

/-! ### Rendezvous and connection (R127) -/

/-- A CONNECT_RESP frame. -/
def connectResp (net seq result phy addr : Nat) (aw : Word) (p : BrParams) (delay : Nat) : Bytes :=
  brFrame rdvWord btConnectResp false false net seq addr 0
    (le 1 result ++ le 1 phy ++ le 2 addr ++ le 4 aw.toNat ++ le 4 p.interval ++ le 4 p.timeout ++ le 4 delay ++ le 32 p.map.toNat ++ zeros 4)

/-- A response to a CONNECT_REQ that makes no connection. -/
def refuseConnect (r : BrRx) (mode result : Nat) (s : State) : State :=
  let f := connectResp (field r.bytes 6 2) (Config.openNat s.free % 65536) result 0 0 0#32 {} 0
  let s1 := s.draw
  (brRespond r mode f [] false s1).getD (brSuppressed r mode f id s1)

/-- A connection is offered: CONNECT_RESP goes out, or waits for the partner's acknowledgement of its record (R127, R304). -/
def offer (r : BrRx) (n : Nat) (s : State) : State :=
  let k := (chan s r.lc).act
  let net := k.netId
  let p := brPayload r.bytes
  let params := chooseParams s net n k (field p 18 1)
  let used := rdvWord.toNat :: ((s.br.conns.map fun x => x.2.aw.toNat) ++ s.br.lost.map fun l => l.1.toNat)
  let aw := BitVec.ofNat 32 (freshWord (ofLe (trngBytes 4 s)) used (used.length + 2))
  let delay := 8 + Config.openNat s.free % (2 ^ 32 - 8)
  let launch := r.span.2 + brGap
  let f := connectResp net (Config.openNat (s.free + 1) % 65536) 0 params.phy (n % 65536) aw params delay
  let anchor := launch + brAirtime k.rdvMode k.preamble f.length + delay * 250000
  let c : Conn :=
    { slot := n, net, aw, state := .offered, params, ppm := field p 16 2, n0 := 2 ^ 32 - 1, a0 := (anchor : Int) - params.ns, open_ := false,
      stored := 0, superviseAt := tb6 s + (anchor - tb5 s) + params.timeout * nsMs, win := none, lastCopy := none,
      txSeq := BitVec.ofNat 16 (Config.openNat (s.free + 2)), lc := some r.lc, plan := k.plan, update := none, terminating := none, down := [],
      sentNow := false, restore := none, resp := none }
  let enter (c : Conn) (t : State) : State := (dropConn n t).onBr fun b => { b with conns := Tbl.put b.conns n c }
  let s1 := (trngStep s).draw.draw.draw
  if mirrorNeeded s1 then queueItem 4 (connItem c) false none (enter { c with resp := some (r.lc, launch, f) } s1)
  else
    match brRespond r k.rdvMode f [] false s1 with
    | some t => queueItem 4 (connItem c) true none (enter c t)
    | none => brSuppressed r k.rdvMode f id s1

/-- BR_CONNECT_REQ_RX (R127); a partner that may not send keeps the meter's accuracy, which no mirrored record has (R133). -/
def brConnectRx (r : BrRx) (s : State) : State :=
  let k := (chan s r.lc).act
  brHeard r [btConnectReq] (fun t =>
      if bfWord r.bytes ≠ rdvWord ∨ r.index ∉ k.rdv then t
      else if ¬ maySend t then
        match joinSlot t (brPayload r.bytes) with
        | some n => t.onBr fun b => { b with heardPpm := Tbl.put b.heardPpm n (field (brPayload r.bytes) 16 2) }
        | none => t
      else
        match joinSlot t (brPayload r.bytes) with
        | none => refuseConnect r k.rdvMode 1 t
        | some n =>
          if (conn t n).isNone ∧ neighboursFull t then
            limited (limitKey 0x9103 1) nsHour (report 0x9103 kDevice 0 [] 0x0602 1 0 []) (refuseConnect r k.rdvMode 2 t)
          else if ¬ accepting t then refuseConnect r k.rdvMode 3 t
          else if t.vlt.trngFailed then t
          else offer r n t) s

/-- BR_RENDEZVOUS_TX: at a whole TB5 second, on each rendezvous index that can send (R127, R132). -/
def rendezvousTx (net : Nat) (s : State) : State :=
  match brNet s net with
  | none => s
  | some k =>
    let lcs := k.rdv.filterMap fun i => (netChans s 2 net).find? fun lc => (chan s lc).act.centre == i && canSend s lc
    let soonest := lcs.foldl (fun m lc => max m (earliestLaunch s (chan s lc).act)) (tb5 s)
    let second := ceilDiv soonest nsPerS
    if ¬ maySend s ∨ second ≤ Tbl.getD s.br.rdvSecond net 0 ∨ tb5 s + nsPerS < second * nsPerS then s
    else
      let number := Tbl.getD s.br.rdvNumber net 0
      let f := brFrame rdvWord 0 false false net (Config.openNat s.free % 65536) 0xFFFF 0
        (stampNs (second * nsPerS) ++ le 1 k.rdvMode ++ le 1 (flag 0 (accepting s)) ++ zeros 2 ++ le 4 number ++ zeros 4)
      let s1 := lcs.foldl (fun t lc =>
        match brSend .response lc (second * nsPerS) k.rdvMode f false t with
        | some u => countStat lc sbRdvSent 1 u
        | none =>
          if dwellRefuses .response lc k.rdvMode f t then
            dwellNotice k (chan t lc).act.centre (countStat lc sbSuppressed 1 t) else t) s.draw
      s1.onBr fun b => { b with rdvNumber := Tbl.put b.rdvNumber net (number + 1), rdvSecond := Tbl.put b.rdvSecond net second }

/-! ### Updates and quality (R137, R138) -/

/-- BR_UPDATE_INSTANT_PASSED: without an acknowledgement both versions are tried from now on (R137). -/
def updatePassed (n : Nat) (s : State) : State :=
  match conn s n with
  | none => s
  | some c =>
    match c.update with
    | none => s
    | some u =>
      guarded (decide (0 < u.attempts) && !u.acked && !u.both && decide (anchorOf c false u.instant ≤ (tb5 s : Int)))
        (modConn n fun x => { x with update := some { u with both := true } }) s

/-- BR_TERMINATE_TIMEOUT: three events after the TERMINATE was first sent the connection goes (table Connection states). -/
def terminateTimeout (n : Nat) (s : State) : State :=
  match conn s n with
  | none => s
  | some c =>
    match c.terminating with
    | some (_, some sent) =>
      guarded (decide (3 ≤ evDiff c.n0 sent + ((tb5 s : Int) - c.a0) / max 1 c.params.ns)) (dropConn n) s
    | _ => s

/-- The share of an index's frames that failed FCS exceeds PER_LIMIT. -/
def overLimit (s : State) (net limit i : Nat) : Bool :=
  let l := s.br.quality.filter fun q => q.1 == net && q.2.1 == i && decide (tb6 s < q.2.2.1 + 600 * nsPerS)
  decide (limit * l.length < 256 * (l.filter fun q => q.2.2.2).length)

/-- Indices a network has removed. -/
def removedOf (s : State) (net : Nat) : List Nat := (s.br.removed.filter fun x => x.1 == net).map fun x => x.2.1

/-- The map a connection is to have: its own without what is removed, with what it had lost and is removed no more; where nothing of
it is left, every index that is not removed (R138; the last DESIGN CHOICE, assumption log 58). -/
def wantedMap (s : State) (net : Nat) (c : Conn) : BitVec 256 :=
  let m := (c.params.map ||| c.gone) &&& ~~~ mapOf (removedOf s net)
  if m = 0#256 then mapOf ((netIndices s net).filter fun i => decide (i ∉ removedOf s net)) else m

/-- Every connection of a network that is up and has no update pending is told the map it is to have; the others are met at the
next run (R138). -/
def reconcileMaps (net : Nat) (s : State) : State :=
  s.br.conns.foldl (fun t p =>
    let c := p.2
    if c.net = net ∧ c.state = .connected ∧ c.update = none ∧ wantedMap s net c ≠ c.params.map then
      startUpdate p.1 { c.params with map := wantedMap s net c }
        (modConn p.1 (fun x => { x with gone := (x.params.map ||| x.gone) &&& mapOf (removedOf s net) }) t)
    else t) s

/-- BR_CHANNEL_QUALITY on one network: bad indices leave the maps while MIN_USED remain (R138). -/
def qualityOn (net : Nat) (s : State) : State :=
  match brNet s net with
  | none => s
  | some k =>
    let bad := (netIndices s net).filter fun i => overLimit s net k.perLimit i && !decide (i ∈ removedOf s net)
    reconcileMaps net (bad.foldl (fun t i =>
      if k.minUsed < ((netIndices t net).filter fun j => !decide (j ∈ removedOf t net)).length then
        t.onBr fun b => { b with removed := b.removed ++ [(net, i, tb6 t + nsHour)] }
      else t) s)

/-- BR_CHANNEL_QUALITY, every 60 s (R138). -/
def channelQuality (s : State) : State :=
  if tb6 s < s.br.qualityAt + 60 * nsPerS then s
  else
    let nets := ((s.lane.chans.filter fun c => c.2.act.bound && c.2.act.macType == 2).map fun c => c.2.act.netId).dedup
    nets.foldl (fun t net => qualityOn net t) (s.onBr fun b => { b with qualityAt := tb6 s })

/-- BR_CHANNEL_RESTORE: an index removed for an hour returns to the maps that lost it (R138). -/
def channelRestore (net i : Nat) (s : State) : State :=
  guarded (s.br.removed.any fun x => x.1 == net && x.2.1 == i && decide (x.2.2 ≤ tb6 s))
    (fun t => reconcileMaps net (t.onBr fun b => { b with removed := b.removed.filter fun x => !(x.1 == net && x.2.1 == i) })) s

/-! ### Link commands (R404) -/

/-- The plan of a network; none without a channel in force. -/
def netPlan (s : State) (net : Nat) : Option Nat := (brNet s net).map fun k => k.plan

/-- A record's relations hold on a network's plan, judged where it has one. -/
def relationOn (s : State) (net : Nat) (p : BrParams) : Bool := match netPlan s net with | some plan => brRelationOk plan p | none => true

/-- BRAMBLE_DEFAULTS (R128). -/
def brambleDefaultsDef : CmdDef :=
  { opcode := 0x0303, role := fun _ => .oper
    lenOk := fun _ _ n => n == 44
    args := fun s c =>
      orElse (brRangeOk (brParamsOf c.payload)) stOutOfRange (orFail (relationOn s (c.arg 0 2) (brParamsOf c.payload)) stBadArgument)
    state := fun s c => orFail (brNet s (c.arg 0 2)).isSome stStateConflict
    objects := fun _ c => [(8, 6 + c.arg 0 2)]
    act := fun c s => (.result [], s.onBr fun b => { b with defaults := Tbl.put b.defaults (c.arg 0 2) (brParamsOf c.payload) }) }

/-- BRAMBLE_OVERRIDE (R128). -/
def brambleOverrideDef : CmdDef :=
  { opcode := 0x0304, role := fun _ => .oper
    lenOk := fun _ _ n => n == 44
    args := fun s c => slotExists s c none
    state := fun s c => orFail (inUse s c.slotArg) stStateConflict
    objects := fun _ c => slotObject c
    act := fun c s =>
      (.result [], s.onBr fun b =>
        { b with overrides := if allZero c.payload then Tbl.del b.overrides c.slotArg
                              else Tbl.put b.overrides c.slotArg (brParamsOf c.payload) }) }

/-- The update a CONNECTION_UPDATE asks for, its map widened (R128). -/
def wantedParams (s : State) (c : Conn) (p : BrParams) : BrParams :=
  match brNet s c.net with
  | some k => { p with map := widenMap s c.net k.plan k.minUsed p.map }
  | none => p

/-- CONNECTION_UPDATE (R137). -/
def connectionUpdateDef : CmdDef :=
  { opcode := 0x0305, role := fun _ => .oper
    lenOk := fun _ _ n => n == 44
    args := fun s c =>
      orElse (brRangeOk (brParamsOf c.payload) && match conn s c.slotArg with
        | some x => relationOn s x.net (brParamsOf c.payload)
        | none => true) stBadArgument (slotExists s c none)
    state := fun s c =>
      linkClass s (orElse (match conn s c.slotArg with | some x => x.state == .connected && x.update.isNone | none => false)
        stStateConflict (icLeft s c.slotArg none))
    objects := fun _ c => slotObject c
    act := fun c s =>
      (.result [], match conn s c.slotArg with
        | some x =>
          startUpdate c.slotArg (wantedParams s x (brParamsOf c.payload)) (modConn c.slotArg (fun y => { y with gone := 0#256 }) s)
        | none => s) }

/-- CONNECTION_TERMINATE (R404). -/
def connectionTerminateDef : CmdDef :=
  { opcode := 0x0306, role := fun _ => .oper
    args := fun s c => slotExists s c none
    state := fun s c => linkClass s (orElse (conn s c.slotArg).isSome stStateConflict (icLeft s c.slotArg none))
    objects := fun _ c => slotObject c
    act := fun c s => (.result [], modConn c.slotArg (fun x => { x with terminating := some (0, none), termSent := 0, termOver := false }) s) }

/-! ### The meanings -/

def execBrambleDefaults (d : Desc) (s : State) : Host.Outcome State Fault Refusal := runCmd brambleDefaultsDef (.brambleDefaults d) d s
def execBrambleOverride (d : Desc) (s : State) : Host.Outcome State Fault Refusal := runCmd brambleOverrideDef (.brambleOverride d) d s
def execConnectionUpdate (d : Desc) (s : State) : Host.Outcome State Fault Refusal := runCmd connectionUpdateDef (.connectionUpdate d) d s
def execConnectionTerminate (d : Desc) (s : State) : Host.Outcome State Fault Refusal := runCmd connectionTerminateDef (.connectionTerminate d) d s
def execBrDataRx (r : BrRx) (s : State) : Host.Outcome State Fault Refusal := whileRunning (fun t => brDataRx (brSeen t r) t) s
def execBrConnectReqRx (r : BrRx) (s : State) : Host.Outcome State Fault Refusal := whileRunning (fun t => brConnectRx (brSeen t r) t) s
def execBrAckRx (r : BrRx) (s : State) : Host.Outcome State Fault Refusal := whileRunning (fun t => brAckRx (brSeen t r) t) s
def execBrNackRx (r : BrRx) (s : State) : Host.Outcome State Fault Refusal := whileRunning (fun t => brNackRx (brSeen t r) t) s
def execBrRendezvousTx (net : Nat) (s : State) : Host.Outcome State Fault Refusal := whileRunning (rendezvousTx net) s
def execBrSupervisionTimeout (n : Nat) (s : State) : Host.Outcome State Fault Refusal := whileRunning (supervisionTimeout n) s
def execBrConnectionForget (aw : Word) (s : State) : Host.Outcome State Fault Refusal := whileRunning (connectionForget aw) s
def execBrUpdateInstantPassed (n : Nat) (s : State) : Host.Outcome State Fault Refusal := whileRunning (updatePassed n) s
def execBrChannelQuality (s : State) : Host.Outcome State Fault Refusal := whileRunning channelQuality s
def execBrChannelRestore (net i : Nat) (s : State) : Host.Outcome State Fault Refusal := whileRunning (channelRestore net i) s
def execBrTerminateTimeout (n : Nat) (s : State) : Host.Outcome State Fault Refusal := whileRunning (terminateTimeout n) s

end Sys2Proof.Machine
end

