-- ==== Sys2Proof/Machine/Channels.lean ====
section
/-!
DEFINITION. Link-channel blocks: writes of the binding and parameter range, direct and by broadcast, and APPLY
(R78 to R80, R87, R89, R90, R100, R101, R123, R124).
-/

namespace Sys2Proof.Machine

/-! ### Writes (R60, R78 to R80) -/

/-- A MAC parameter written to the shadow: the bank of the shadow's MAC_TYPE, reserved bits read zero (tables Hedgerow and
Bramble parameters). A value outside its range is kept, and refused at APPLY (R101, R124). -/
def writeParam (off : Nat) (v : Word) (c : ChanCfg) : ChanCfg :=
  if c.macType = 1 then
    match off with
    | 0x40 => { c with hrNet := v &&& 0x1FFFFF#32 }
    | 0x44 => { c with hrBeacon := v &&& 0xFFFF003F#32 }
    | 0x48 => { c with hrCfp := v &&& 0xFFFFFF#32 }
    | 0x4C => { c with hrCsma := v &&& 0xFFFF#32 }
    | 0x50 => { c with hrTonemap := v }
    | 0x54 => { c with hrBlankDrop := v &&& 0xFF#32 }
    | 0x58 => { c with hrRoute := v &&& 0xFFFF#32 }
    | _ => c
  else if c.macType = 2 then
    match off with
    | 0x40 => { c with brNet := v &&& 0xFF0FFFFF#32 }
    | 0x44 => { c with brRdv := v &&& 0xFFFFFF#32 }
    | 0x48 => { c with brDwell := v }
    | 0x4C => { c with brTiming := v }
    | 0x50 => { c with brWatch := v }
    | 0x54 => { c with brQuality := v &&& 0xFFFF#32 }
    | _ => c
  else c

/-- BLANK's RMS_TC is 6 to 14; a write with another value is ignored as a whole (R60). -/
def blankOk (v : Word) : Bool := decide (6 ≤ bits v 8 4) && decide (bits v 8 4 ≤ 14)

/-- A word written to the shadow copy of a channel at an offset of its block; a PLAN that is no band plan and the reserved MAC_TYPE are
ignored as a whole (R60, tables BIND and MAC). -/
def writeShadow (off : Nat) (v : Word) (c : ChanCfg) : ChanCfg :=
  match off with
  | 0x00 => if bits v 4 4 ≤ 6 then { c with bind := v &&& 0x3FFFF#32 } else c
  | 0x04 => if bits v 0 2 = 3 then c else { c with mac := v &&& 0x33#32 }
  | 0x0C => if blankOk v then { c with blank := v &&& 0x10FFF#32 } else c
  | 0x10 => { c with txBackoff := v &&& 0xFF#32 }
  | _ => writeParam off v c

/-- A direct write to a channel block: GROUP_MASK at once, shadowed fields to the shadow; read-only fields, statistics and
APPLY ignore it (R60, R79, R80). -/
def writeChan (n off : Nat) (v : Word) (s : State) : State :=
  if off = 0x08 then modChan n (fun c => { c with groupMask := v.truncate 16 }) s
  else if off = 0x3C then s
  else modChan n (fun c => { c with shadow := writeShadow off v c.shadow }) s

/-- The channels a broadcast offset of BAR0 reaches: all 256, or those whose group mask has the block's bit (R78). -/
def targets (s : State) (off : Nat) : List Nat :=
  if 0x21000 ≤ off ∧ off < 0x21100 then List.range 256
  else if 0x20000 ≤ off ∧ off < 0x21000 then
    (List.range 256).filter fun n => (chan s n).groupMask.getLsbD ((off - 0x20000) / 256)
  else []

/-- A broadcast write is a direct write in every target; the statistics range ignores it (R78). -/
def writeBroadcast (off : Nat) (v : Word) (s : State) : State :=
  let x := off % 256
  if 0x80 ≤ x ∨ off % 4 ≠ 0 then s else (targets s off).foldl (fun t n => writeChan n x v t) s

/-- APPLY through a broadcast block: its targets wait to be applied together (R80, R90). -/
def scheduleApply (off : Nat) (v : Word) (s : State) : State :=
  let l := targets s off
  guarded (off % 256 == 0x3C && v.getLsbD 0 && l != [])
    (fun s => s.onLane fun x => { x with applyPending := x.applyPending ++ [(tb6 s, l)] }) s

/-! ### The checks at APPLY (R89, R101, R124) -/

/-- BW of BIND. -/
def ChanCfg.bw (c : ChanCfg) : Nat := bits c.bind 16 2

/-- The edges of a channel in units of 0.1 Hz: a radio channel's centre ± half its filter bandwidth, a
power-line plan's band (reason 4). -/
def chanEdges (c : ChanCfg) : Nat × Nat :=
  if c.plan = 5 then (359375, 906250)
  else if c.plan = 6 then (1546875, 4875000)
  else
    let half := planGrid c.plan * [10, 8, 6].getD c.bw 10 / 2
    (10 * planCentre c.plan c.centre - half, 10 * planCentre c.plan c.centre + half)

/-- The channel lies in its port's usable band (reason 4). -/
def inBand (p : Port) (c : ChanCfg) : Bool :=
  let f := fmtBand p.format.toNat
  decide (10 * p.rfRef.toNat ≤ (chanEdges c).1 + 10 * f.1) && decide ((chanEdges c).2 ≤ 10 * (p.rfRef.toNat + f.2))

/-- Reasons 7 and 1 to 5 of one target's shadow; 0 when they pass. A channel with PLAN = 0 passes, and one with
MAC_TYPE = 0 once it is not refused for the role (R81, R89). -/
def bindReason (s : State) (c : ChanCfg) : Nat :=
  let p := port s c.port
  if c.plan = 0 then 0
  else if s.dev.core then 7
  else if c.macType = 0 then 0
  else if ¬ p.configured then 1
  else if 6 < c.plan ∨ fmtIsIq p.format.toNat ≠ decide (c.plan ≤ 4) then 2
  else if planCount c.plan ≤ c.centre ∨ (c.plan ≤ 4 ∧ c.bw = 3) ∨ c.blankK < 0x10 then 3
  else if ¬ inBand p c then 4
  else if c.macType ≠ (if c.plan ≤ 4 then 2 else 1) then 5
  else 0

/-- Two channels have the same port, plan and centre index (reason 6). -/
def sameBinding (a b : ChanCfg) : Bool := a.port == b.port && a.plan == b.plan && a.centre == b.centre

/-- The ranges of the Hedgerow parameters (tables Hedgerow parameters, HR_NET). -/
def hrRanges (c : ChanCfg) : Bool :=
  c.netId != 0 && decide (c.maxLevel ≤ 8) && decide (1 ≤ c.period) && decide (c.period ≤ 60) && decide (c.cfpCount ≤ 64)
    && decide (10 ≤ c.cfpSlot) && decide (c.cfpSlot ≤ 1000) && decide (c.minBe ≤ c.maxBe) && decide (c.maxBe ≤ 8)
    && decide (1 ≤ c.maxCsma) && decide (c.maxCsma ≤ 8) && decide (c.maxRetry ≤ 7) && decide (60 ≤ c.tmMaxAge)
    && decide (c.tmMaxAge ≤ 3600) && decide (1 ≤ c.tmFailCount) && decide (60 ≤ c.routeInterval)
    && decide (c.hysteresis ≤ 50) && decide (c.phase < 1000 * c.period)

/-- Reason 8 against the network's channels, in force or applied in the same event (R101). -/
def hrPasses (c : ChanCfg) (peers : List ChanCfg) : Bool :=
  let mine := peers.filter fun p => p.macType == 1 && p.netId == c.netId
  let bsl := if (c :: mine).any fun p => p.plan == 5 then 150 else 50
  hrRanges c && decide ((c.maxLevel + 1) * bsl + c.cfpCount * c.cfpSlot + 200 ≤ 1000 * c.period)
    && mine.all fun p => p.hrNet == c.hrNet && p.hrBeacon == c.hrBeacon && p.hrCfp == c.hrCfp

/-- Fields of BR_WATCH, ms. -/
def ChanCfg.watchOn (c : ChanCfg) : Nat := bits c.brWatch 0 16
def ChanCfg.watchPeriod (c : ChanCfg) : Nat := bits c.brWatch 16 16

/-- The ranges of the Bramble parameters (table Bramble parameters). -/
def brRanges (c : ChanCfg) : Bool :=
  c.netId != 0 && decide (1 ≤ c.devPpm10) && modeOnPlan c.rdvMode c.plan && c.rdv.dedup.length == 3
    && c.rdv.all (fun i => decide (i < planCount c.plan)) && bits c.brDwell 0 16 != 0 && bits c.brDwell 16 16 != 0
    && decide (c.brRetry ≤ 7) && decide (4 ≤ c.preamble) && decide (c.preamble ≤ 64) && decide (5 ≤ c.watchOn)
    && decide (c.watchOn ≤ 1000) && decide (c.watchOn ≤ c.watchPeriod) && decide (c.watchPeriod ≤ 60000)
    && decide (2 ≤ c.minUsed) && decide (c.minUsed ≤ 129)

/-- Reason 9 against the network's channels, in force or applied in the same event (R124). -/
def brPasses (c : ChanCfg) (peers : List ChanCfg) : Bool :=
  brRanges c && (peers.filter fun p => p.macType == 2 && p.netId == c.netId).all fun p =>
    p.plan == c.plan && p.brNet == c.brNet && p.brRdv == c.brRdv && p.brDwell == c.brDwell && p.brTiming == c.brTiming
      && p.brQuality == c.brQuality

/-- Reasons 6, 8 and 9 of a target against the other channels, in force or applied in the same event: as they stand after the event, so
that a target that moves away in it frees its binding (R89; DESIGN CHOICE, assumption log 54). -/
def netReason (c : ChanCfg) (peers : List ChanCfg) : Nat :=
  if ¬ c.bound then 0
  else if peers.any (sameBinding c) then 6
  else if c.macType = 1 then (if hrPasses c peers then 0 else 8)
  else if brPasses c peers then 0 else 9

/-- The channels bound once an event has taken effect, with some targets refused: the shadow of a target that passes, the
configuration in force of every other channel. An idle channel in force, PLAN not 0 and MAC_TYPE 0, is not counted against reason 6
(R89; DESIGN CHOICE, assumption log 54). -/
def boundAfter (s : State) (event refused : List Nat) : List (Nat × ChanCfg) :=
  ((List.range 256).map fun n => (n, if n ∈ event ∧ n ∉ refused then (chan s n).shadow else (chan s n).act)).filter fun x => x.2.bound

/-- One round of the mutual checks: the targets that now fail, with their reasons. -/
def failRound (s : State) (event : List Nat) (res : List (Nat × Nat)) : List (Nat × Nat) :=
  let refused := res.map Prod.fst
  let after := boundAfter s event refused
  res ++ ((event.filter fun n => decide (n ∉ refused)).map fun n =>
      (n, netReason (chan s n).shadow ((after.filter fun x => x.1 != n).map Prod.snd))).filter fun x => x.2 != 0

/-- A refused target keeps its configuration, so the others are judged again until no more fail. -/
def failRounds (s : State) (event : List Nat) : Nat → List (Nat × Nat) → List (Nat × Nat)
  | 0, res => res
  | n + 1, res =>
    let next := failRound s event res
    if next.length = res.length then res else failRounds s event n next

/-- The targets refused, with the first check each fails (R89). -/
def refusals (s : State) (event : List Nat) : List (Nat × Nat) :=
  failRounds s event event.length ((event.map fun n => (n, bindReason s (chan s n).shadow)).filter fun x => x.2 != 0)

/-! ### The effect (R80, R90, R91) -/

/-- Transmissions in progress on a channel end and are counted; launches that wait on it are not sent (R90). -/
def abortChan (n : Nat) (s : State) : State := cutPort (chan s n).act.port (fun l => l.lc == n) s

/-- A target that passes: its shadow is in force; a changed binding or MAC starts afresh, seeded from the noise floor. -/
def applyChan (n : Nat) (s : State) : State :=
  let c := chan s n
  let moved := c.act.bind != c.shadow.bind || c.act.mac != c.shadow.mac
  let s0 := accrueBlank n s
  let s1 := if moved then abortChan n s0 else s0
  modChan n (fun x =>
    { x with act := x.shadow, refused := false, reason := 0, applyCount := x.applyCount + 1
             blanker := x.seeded
             since := if moved then tb6 s else x.since }) s1

/-- A target that fails keeps its configuration and shows the reason (R80, R89). -/
def refuseChan (n reason : Nat) (s : State) : State :=
  modChan n (fun x => { x with refused := true, reason := reason, applyCount := x.applyCount + 1 }) s

/-- Every Hedgerow network with a channel in force has its tables (R100). -/
def openNets (s : State) : State :=
  (List.range 256).foldl (fun t n =>
    let c := (chan t n).act
    if c.bound ∧ c.macType = 1 ∧ Tbl.get t.hr c.netId = none then t.onHr fun h => Tbl.put h c.netId {} else t) s

/-- Networks with no channel left are gone. -/
def pruneNets (s : State) : State :=
  { s with hr := s.hr.filter fun n => netChans s 1 n.1 != []
           br := { s.br with rdvNumber := s.br.rdvNumber.filter fun n => netChans s 2 n.1 != []
                             rdvSecond := s.br.rdvSecond.filter fun n => netChans s 2 n.1 != [] } }

/-- A Bramble network applied on another plan than its connections' drops them, and lost ones of a mode the plan has not: their maps
and modes are those of the plan it has left. A record without a plan takes the network's (R121; DESIGN CHOICE, assumption log 58). -/
def dropMoved (s : State) : State :=
  let s1 := s.br.conns.foldl (fun t x => match netPlan s x.2.net with
    | some q => if x.2.plan = q then t else if x.2.plan = 0 then modConn x.1 (fun c => { c with plan := q }) t else dropConn x.1 t
    | none => t) s
  s1.onBr fun b => { b with lost := b.lost.filter fun l => match netPlan s l.2.2.2.1 with
    | some q => modeOnPlan l.2.2.2.2 q
    | none => true }

/-- All targets of an event are judged, and those that pass take effect together. Where a field is rewritten between the write of APPLY
and its effect, the shadow as it stands at the effect is judged and applied (DESIGN CHOICE, assumption log 76). -/
def applyEvent (event : List Nat) (s : State) : State :=
  let res := refusals s event
  dropMoved (openNets (pruneNets (event.foldl (fun t n => match res.find? fun x => x.1 == n with
    | some x => refuseChan n x.2 t
    | none => applyChan n t) s)))

/-- A target still owes a link acknowledgement for a frame taken: one that waits, or one on the lane (R90). -/
def owesAck (s : State) (event : List Nat) : Bool :=
  s.lane.ports.any fun p => (p.2.queue ++ inProgress s p.1).any fun l => l.isAck && decide (l.lc ∈ event)

/-- An APPLY may take effect: no target owes an acknowledgement, or 1 ms has passed since its write (R90). -/
def mayApply (s : State) (x : Nat × List Nat) : Bool := !owesAck s x.2 || decide (x.1 + nsMs ≤ tb6 s)

/-- The oldest APPLY that may take effect does (R90). -/
def applyTakesEffect (s : State) : State :=
  match s.lane.applyPending.find? (mayApply s) with
  | none => s
  | some x => applyEvent x.2 (s.onLane fun l => { l with applyPending := l.applyPending.erase x })

/-! ### The meanings -/

def execBroadcastWrite (off : Nat) (v : Word) (s : State) : Host.Outcome State Fault Refusal := whileRunning (writeBroadcast off v) s
def execApplyWrite (off : Nat) (v : Word) (s : State) : Host.Outcome State Fault Refusal := whileRunning (scheduleApply off v) s
def execApplyTakesEffect (s : State) : Host.Outcome State Fault Refusal := whileRunning applyTakesEffect s

end Sys2Proof.Machine
end

