-- ==== Sys2Proof/Machine/Axdr.lean ====
section
/-!
DEFINITION. The A-XDR values and the APDUs an opened frame holds (R152); the encodings are the DLMS standards' own
(PRESUMED, assumption log 20).
-/

namespace Sys2Proof.Machine

/-- A decoded COSEM value. -/
inductive Ax where
  /-- null-data. -/
  | null
  /-- An integer: of an unsigned type, and its value. -/
  | num (uns : Bool) (v : Int)
  /-- A floating-point number m × 2^e. -/
  | real (m e : Int)
  /-- enum. -/
  | enum (v : Nat)
  /-- boolean. -/
  | bool (b : Bool)
  /-- octet-string. -/
  | octets (b : Bytes)
  /-- date-time. -/
  | dateTime (b : Bytes)
  /-- Any other type, by its content octets. -/
  | other (b : Bytes)
  /-- array or structure: its elements and its content octets. -/
  | list (isArray : Bool) (items : List Ax) (raw : Bytes)

/-- The first `n` bytes and the rest, where there are so many. -/
def cut (n : Nat) (bs : Bytes) : Option (Bytes × Bytes) := if n ≤ bs.length then some (bs.take n, bs.drop n) else none

/-- A BER length and that many bytes. -/
def cutBer (unit : Nat → Nat) (bs : Bytes) : Option (Bytes × Bytes) :=
  match berLength bs with
  | some (n, rest) => cut (unit n) rest
  | none => none

/-- Integer types: size in bytes and sign. -/
def axInt (tag : Nat) : Option (Nat × Bool) :=
  match tag with
  | 5 => some (4, true)
  | 6 => some (4, false)
  | 15 => some (1, true)
  | 16 => some (2, true)
  | 17 => some (1, false)
  | 18 => some (2, false)
  | 20 => some (8, true)
  | 21 => some (8, false)
  | _ => none

/-- An IEEE 754 number of given exponent and fraction widths; infinities and not-a-number are no numbers. -/
def axFloat (eb fb : Nat) (b : Bytes) : Ax :=
  let x := ofBe b
  let frac := x % 2 ^ fb
  let ex := x / 2 ^ fb % 2 ^ eb
  let sign : Int := if x / 2 ^ (fb + eb) = 1 then -1 else 1
  let low : Int := 2 - (2 : Int) ^ (eb - 1) - fb
  if ex = 2 ^ eb - 1 then .other b
  else if ex = 0 then .real (sign * frac) low
  else .real (sign * (frac + 2 ^ fb : Nat)) (low + ex - 1)

/-- A type description of a compact array, skipped. -/
def axType : Nat → Bytes → Option Bytes
  | 0, _ => none
  | _ + 1, [] => none
  | f + 1, t :: bs =>
    if t = 1#8 then (cut 2 bs).bind fun p => axType f p.2
    else if t = 2#8 then
      (berLength bs).bind fun p =>
        if p.2.length < p.1 then none
        else (List.range p.1).foldl (fun acc _ => acc.bind fun r => axType f r) (some p.2)
    else some bs

/-- One value at the front of a byte string, and the rest; the first argument bounds the nesting. -/
def axData : Nat → Bytes → Option (Ax × Bytes)
  | 0, _ => none
  | _ + 1, [] => none
  | f + 1, t :: bs =>
    let tag := t.toNat
    match axInt tag with
    | some (n, sg) => (cut n bs).map fun p => (.num (!sg) (if sg then signed n (ofBe p.1) else (ofBe p.1 : Int)), p.2)
    | none =>
      match tag with
      | 0 => some (.null, bs)
      | 1 | 2 =>
        (berLength bs).bind fun p =>
          if p.2.length < p.1 then none
          else
            ((List.range p.1).foldl (fun acc _ =>
              acc.bind fun q => (axData f q.2).map fun x => (q.1 ++ [x.1], x.2)) (some (([] : List Ax), p.2))).map fun q =>
                (.list (tag == 1) q.1 (p.2.take (p.2.length - q.2.length)), q.2)
      | 3 => (cut 1 bs).map fun p => (.bool (p.1 != [0#8]), p.2)
      | 4 => (cutBer (fun n => (n + 7) / 8) bs).map fun p => (.other p.1, p.2)
      | 9 => (cutBer id bs).map fun p => (.octets p.1, p.2)
      | 10 | 12 => (cutBer id bs).map fun p => (.other p.1, p.2)
      | 13 => (cut 1 bs).map fun p => (.other p.1, p.2)
      | 19 => (axType f bs).bind fun r => (cutBer id r).map fun p => (.other p.1, p.2)
      | 22 => (cut 1 bs).map fun p => (.enum (ofBe p.1), p.2)
      | 23 => (cut 4 bs).map fun p => (axFloat 8 23 p.1, p.2)
      | 24 => (cut 8 bs).map fun p => (axFloat 11 52 p.1, p.2)
      | 25 => (cut 12 bs).map fun p => (.dateTime p.1, p.2)
      | 26 => (cut 5 bs).map fun p => (.other p.1, p.2)
      | 27 => (cut 4 bs).map fun p => (.other p.1, p.2)
      | 255 => some (.null, bs)
      | _ => none

/-- A value that fills a byte string. -/
def axWhole (bs : Bytes) : Option Ax :=
  match axData (bs.length + 1) bs with
  | some (x, []) => some x
  | _ => none

/-- The APDUs opened (table APDUs opened), and the two answers a downlink command may also get. -/
inductive Apdu where
  /-- data-notification: its body. -/
  | notify (body : Ax)
  /-- event-notification-request: time, class, OBIS, attribute, value. -/
  | event (time : Option Bytes) (cls : Nat) (obis : Bytes) (attr : Nat) (value : Ax)
  /-- get-response-normal: invoke-id, result, the encoded value. -/
  | get (invoke result : Nat) (value : Bytes)
  /-- get-response-with-datablock: invoke-id, last block, number, result, raw data. -/
  | block (invoke : Nat) (last : Bool) (number result : Nat) (raw : Bytes)
  /-- set-response or action-response: invoke-id, result, returned value. -/
  | done (invoke result : Nat) (value : Bytes)

/-- The encoded bytes of a value that fills a byte string. -/
def wholeBytes (bs : Bytes) : Option Bytes := (axWhole bs).map fun _ => bs

/-- A decrypted APDU; none for another tag or one that does not decode (R152). -/
def apduOfBytes (a : Bytes) : Option Apdu :=
  match a with
  | [] => none
  | t :: bs =>
    match t.toNat with
    | 0x0F =>
      (cut 4 bs).bind fun p => (cutBer id p.2).bind fun q => (axWhole q.2).map .notify
    | 0xC2 =>
      let body (time : Option Bytes) (r : Bytes) : Option Apdu :=
        (cut 9 r).bind fun p => (axWhole p.2).map fun v => .event time (ofBe (slice p.1 0 2)) (slice p.1 2 6) (field p.1 8 1) v
      (cut 1 bs).bind fun p => if p.1 = [0#8] then body none p.2 else (cutBer id p.2).bind fun q => body (some q.1) q.2
    | 0xC4 =>
      (cut 2 bs).bind fun p =>
        let invoke := field p.1 1 1
        if field p.1 0 1 = 1 then
          (cut 1 p.2).bind fun q =>
            if q.1 = [0#8] then (wholeBytes q.2).map (.get invoke 0)
            else if q.2.length = 1 then some (.get invoke (field q.2 0 1) []) else none
        else if field p.1 0 1 = 2 then
          (cut 6 p.2).bind fun q =>
            let last := field q.1 0 1 != 0
            let number := ofBe (slice q.1 1 4)
            if field q.1 5 1 = 0 then
              (cutBer id q.2).bind fun r => if r.2 = [] then some (.block invoke last number 0 r.1) else none
            else if q.2.length = 1 then some (.block invoke last number (field q.2 0 1) []) else none
        else none
    | 0xC5 => if field bs 0 1 = 1 ∧ bs.length = 3 then some (.done (field bs 1 1) (field bs 2 1) []) else none
    | 0xC7 =>
      if field bs 0 1 = 1 ∧ 4 ≤ bs.length then
        if field bs 3 1 = 0 ∧ bs.length = 4 then some (.done (field bs 1 1) (field bs 2 1) [])
        else if field bs 3 1 = 1 ∧ field bs 4 1 = 0 then (wholeBytes (bs.drop 5)).map (.done (field bs 1 1) (field bs 2 1))
        else none
      else none
    | _ => none

/-- A COSEM date-time that names an instant, in ns of TAI (R238). The deviation is the minutes from local time to UTC. -/
def axTime (z : Zone) (b : Bytes) : Option Nat :=
  let y := ofBe (slice b 0 2)
  let f (o : Nat) : Nat := field b o 1
  if b.length = 12 ∧ 1970 ≤ y ∧ y ≤ 9999 ∧ 1 ≤ f 2 ∧ f 2 ≤ 12 ∧ 1 ≤ f 3 ∧ f 3 ≤ monthDays y (f 2) ∧ f 5 ≤ 23 ∧ f 6 ≤ 59 ∧ f 7 ≤ 59 then
    let legal : Int := (daysOf y (f 2) (f 3) * 86400 + f 5 * 3600 + f 6 * 60 + f 7 : Nat)
    let dev := signed 2 (ofBe (slice b 9 2))
    let st := f 11
    let tai :=
      if dev ≠ -32768 then taiOfUtc z (legal + dev * 60)
      else if st % 2 = 0 ∧ st / 8 % 2 = 0 then taiOfLegal z legal (some (st / 128 % 2 == 1))
      else taiOfLegal z legal none
    some (tai * nsPerS + (if f 8 ≤ 99 then f 8 * 10 ^ 7 else 0))
  else none

/-- A number times a power of ten, rounded half to even (R154). -/
def axScaled (x : Ax) (k : Int) : Option Int :=
  let up : Int := 10 ^ k.toNat
  let down : Nat := 10 ^ (-k).toNat
  match x with
  | .num _ v => some (halfEven (v * up) down)
  | .real m e => some (halfEven (m * 2 ^ e.toNat * up) (down * 2 ^ (-e).toNat))
  | _ => none

/-- A pair of a scaler and a unit (R154). -/
def scalerUnit (x : Ax) : Option (Int × Nat) :=
  match x with
  | .list false [.num _ s, .enum u] _ => some (s, u)
  | .list false [.num _ s, .num true u] _ => some (s, u.toNat)
  | _ => none

end Sys2Proof.Machine
end

