-- ==== Sys2Proof/Machine/Readings.lean ====
section
/-!
DEFINITION. From an opened APDU to readings: columns, scalers, interval ends, derived values, registers and events
(R153 to R156), and the validation rules (R157, R158).
-/

namespace Sys2Proof.Machine

/-! ### Registers and events before they are exported -/

/-- A register value of a frame. -/
structure RegRead where
  /-- The entry, with its capture time. -/
  entry : RegEntry
  /-- A Clock value: the instant it names, ns. -/
  clock : Option Nat := none
  /-- A rule flags it. -/
  flagged : Bool := false
  deriving DecidableEq, Repr

/-- A meter event of a frame. -/
structure EvRead where
  /-- Origin: 0 meter event log, 1 event-notification. -/
  origin : Nat
  /-- Meter event code. -/
  code : Nat
  /-- Event time, ns; none takes the entry's interval end. -/
  time : Option Nat
  /-- The bytes of the entry that carries it. -/
  raw : Bytes
  deriving DecidableEq, Repr

/-- An interval reading before it is booked. -/
structure Reading where
  /-- The record. -/
  iv : Interval
  /-- Quantities a value was supplied for, 0 to 7. -/
  sup : List Nat := []
  /-- Cumulative values by quantity. -/
  cum : List (Nat × Int) := []
  /-- Its own end, ns, when its clock names an instant. -/
  own : Option Nat := none
  deriving DecidableEq, Repr

/-- Scaler and unit in force for a register: class, OBIS, scaler, unit. -/
abbrev Scalers := List (Nat × Bytes × Int × Nat)

/-- One piece of an APDU's content. -/
inductive Item where
  /-- An interval reading. -/
  | interval (r : Reading)
  /-- A register value. -/
  | register (g : RegRead)
  /-- A meter event. -/
  | event (e : EvRead)
  /-- A scaler_unit received: class, OBIS, scaler, unit. -/
  | unit (u : Nat × Bytes × Int × Nat)
  deriving DecidableEq, Repr

/-- What an APDU's content gives. -/
structure Content where
  /-- The pieces, in the order of the content that produces them (R162). -/
  items : List Item := []
  /-- The scaler_units in force, latest last. -/
  units : Scalers := []
  deriving DecidableEq, Repr

/-- A piece joins the content. -/
def Content.add (i : Item) (c : Content) : Content := { c with items := c.items ++ [i] }

/-! ### Columns (R153, R154) -/

/-- The scaler_unit attribute of a register class, 0 for a class without one (R154). -/
def unitAttr (cls : Nat) : Nat := if cls = 3 ∨ cls = 4 then 3 else if cls = 5 then 4 else 0

/-- A scaler_unit is remembered for its register. -/
def setUnit (cls : Nat) (obis : Bytes) (u : Int × Nat) (l : Scalers) : Scalers :=
  (l.filter fun x => !(x.1 == cls && x.2.1 == obis)) ++ [(cls, obis, u)]

/-- The scaler_units a slot's register cache holds. -/
def cachedUnits (x : Slot) : Scalers :=
  (x.cache.filter isScalerUnit).map fun r => (r.classId, r.obis, r.scaler, r.unit)

/-- A scaler_unit is received: in force for its register from here on, and a piece of the content (R146, R154). -/
def Content.receive (cls : Nat) (obis : Bytes) (u : Int × Nat) (c : Content) : Content :=
  { (c.add (.unit (cls, obis, u))) with units := setUnit cls obis u c.units }

/-- A column's element after its scaler_unit, if it carries one: none for an element that is one itself. -/
def pick (col : Column) (x : Ax) (c : Content) : Content × Option (Ax × Int × Nat) :=
  let a := unitAttr col.classId
  if a ≠ 0 ∧ col.attr = a then
    (match scalerUnit x with | some u => c.receive col.classId col.obis u | none => c, none)
  else
    let x1 : Ax := match x with
      | .list _ items _ => if col.index = 0 then x else items.getD (col.index - 1) .null
      | _ => x
    let inside : Option (Ax × (Int × Nat)) := match x1 with
      | .list _ [v, u] _ => if a = 0 then none else (scalerUnit u).map fun p => (v, p)
      | _ => none
    let c1 := match inside with | some p => c.receive col.classId col.obis p.2 | none => c
    let v := match inside with | some p => p.1 | none => x1
    match c1.units.find? fun p => a != 0 && p.1 == col.classId && p.2.1 == col.obis with
    | some p => (c1, some (v, p.2.2.1, p.2.2.2))
    | none => (c1, some (v, col.scaler, col.unit))

/-- The unit a target's family has, and its t (R153, R154). -/
def targetUnit (t : Nat) : Option (Nat × Int) :=
  match t with
  | 3 | 4 | 7 | 8 => some (30, 0)
  | 5 | 6 | 9 | 10 => some (32, 0)
  | 11 | 12 | 13 | 14 => some (35, 1)
  | 15 | 16 => some (13, 3)
  | _ => none

/-- The content octets of a value that is no number. -/
def octetsOf (x : Ax) : Bytes :=
  match x with
  | .octets b | .dateTime b | .other b | .list _ _ b => b
  | .enum v => le 1 v
  | _ => []

/-- A value for a target with its scaler and unit as exported; none where R154 discards it. -/
def convert (t : Nat) (x : Ax) (sc : Int) (unit : Nat) : Option (Int × Int × Nat) :=
  match targetUnit t with
  | some (u, k) => if unit = u then (axScaled x (sc + k)).map fun v => (v, sc, unit) else none
  | none =>
    if t = 2 ∨ t = 18 then
      match x with
      | .num true v => some (v, sc, unit)
      | _ => none
    else
      match x with
      | .num _ v => some (v, sc, unit)
      | .real _ _ => (axScaled x 0).map fun v => (v, sc, unit)
      | .bool b => some (if b then 1 else 0, sc, unit)
      | _ => some (signed 8 (field (octetsOf x) 0 8), 0, 0)

/-- The quantity of a target, 0 to 7; 8 for none. -/
def quantityOf (t : Nat) : Nat :=
  match t with
  | 3 | 7 | 15 | 16 => 0
  | 4 | 8 => 1
  | 5 | 9 => 2
  | 6 | 10 => 3
  | 11 => 4
  | 12 => 5
  | 13 => 6
  | 14 => 7
  | _ => 8

/-- A cumulative target, and an interval target of energy or volume. -/
def isCumulative (t : Nat) : Bool := t == 3 || t == 4 || t == 5 || t == 6 || t == 15
def isIntervalTarget (t : Nat) : Bool := t == 7 || t == 8 || t == 9 || t == 10 || t == 16

/-! ### Interval flags (R156) -/

def ifPowerDown : BitVec 16 := 0x0001#16
def ifEstimated : BitVec 16 := 0x0002#16
def ifClockAdjusted : BitVec 16 := 0x0008#16
def ifDerived : BitVec 16 := 0x0010#16
def ifSaturated : BitVec 16 := 0x0020#16
def ifReplaces : BitVec 16 := 0x0040#16

/-- The UNIT rule bit (rule type 12). -/
def rbUnit : BitVec 16 := 0x0800#16

/-- A value put into a quantity's unsigned field, saturated (R154). -/
def putValue (q : Nat) (v : Int) (r : Reading) : Reading :=
  let top : Int := if q < 4 then 2 ^ 32 - 1 else 2 ^ 16 - 1
  let x := (max 0 (min top v)).toNat
  let fl := if v < 0 ∨ top < v then r.iv.flags ||| ifSaturated else r.iv.flags
  let iv := if q < 4 then { r.iv with flags := fl, e := r.iv.e.set q x } else { r.iv with flags := fl, v := r.iv.v.set (q - 4) x }
  { r with iv, sup := r.sup ++ [q] }

/-- SATURATED of the entry's record where a value of it saturated (R154). -/
def markSaturated (b : Bool) (r : Reading) : Reading := if b then { r with iv := { r.iv with flags := r.iv.flags ||| ifSaturated } } else r

/-- An event code in its two bytes (R154). -/
def eventCode (v : Int) : Nat := (max 0 (min 65535 v)).toNat

/-- The instant a value of a Clock's time names (class 8, attribute 2). -/
def clockOf (z : Zone) (col : Column) (x : Ax) : Option Nat := if col.classId = 8 ∧ col.attr = 2 then axTime z (octetsOf x) else none

/-- A column discarded under R154. -/
def discard (r : Reading) : Reading := { r with iv := { r.iv with rules := r.iv.rules ||| rbUnit } }

/-! ### Profile entries -/

/-- A column that feeds the entry's interval record. -/
def feedsInterval (c : Column) : Bool := decide (2 ≤ c.target) && decide (c.target ≤ 16)

/-- The place of the entry's interval record: that of the first column that feeds it (R162, assumption log 28). -/
def openPlace (col : Column) (r : Reading) (c : Content) : Content :=
  if feedsInterval col ∧ ¬ (c.items.any fun i => match i with | .interval _ => true | _ => false) then c.add (.interval r) else c

/-- One column of a profile entry. -/
def profileColumn (z : Zone) (raw : Bytes) (acc : Reading × Content) (p : Column × Ax) : Reading × Content :=
  let (r, c) := acc
  let (col, x) := p
  if col.target = 0 then acc
  else
    let (c1, got) := pick col x (openPlace col r c)
    match got with
    | none => (r, c1)
    | some (v, sc, unit) =>
      if col.target = 1 then
        match v with
        | .null => (r, c1)
        | .octets b | .dateTime b => if b.length = 12 then ({ r with own := axTime z b }, c1) else (discard r, c1)
        | _ => (discard r, c1)
      else
        match convert col.target v sc unit with
        | none => (discard r, c1)
        | some (val, sc', unit') =>
          if col.target = 2 then
            let st := (min 255 (max 0 val)).toNat
            let r1 := markSaturated (decide (val < 0 ∨ 255 < val)) r
            ({ r1 with iv := { r1.iv with
                status := st, flags := if st / 128 % 2 = 1 then r1.iv.flags ||| ifPowerDown else r1.iv.flags } }, c1)
          else if col.target = 18 then
            (markSaturated (decide (65535 < val)) r, c1.add (.event { origin := 0, code := eventCode val, time := none, raw }))
          else if col.target = 17 then
            (r, c1.add (.register
              { entry := { obis := col.obis, classId := col.classId, attr := col.attr, target := 17, scaler := sc', unit := unit',
                           value := saturate 8 val, time := 0 }
                clock := clockOf z col v }))
          else if isCumulative col.target then ({ r with cum := r.cum ++ [(quantityOf col.target, val)] }, c1)
          else (putValue (quantityOf col.target) val r, c1)

/-- A new interval reading of a slot under a layout. -/
def freshReading (x : Slot) (l : Layout) : Reading :=
  { iv := { end_ := 0, flags := BitVec.ofNat 16 (x.medium % 4 * 256), e := [0, 0, 0, 0], v := [0, 0, 0, 0], asn := 0,
            status := 0, method := 0, rules := 0#16, capture := l.capture, inDemand := false } }

/-- One profile entry, with the registers and events it gives kept apart until its end is known; none where its element
count differs from the layout's (R153). -/
def profileEntry (z : Zone) (x : Slot) (l : Layout) (units : Scalers) (e : Ax) : Option (Reading × Content) :=
  match e with
  | .list _ items raw =>
    if items.length = l.cols.length then
      some ((l.cols.zip items).foldl (profileColumn z raw) (freshReading x l, { units }))
    else none
  | _ => none

/-- An instant rounded down to the capture period in legal time, and whether it moved (R155). -/
def roundEnd (z : Zone) (capture ns : Nat) : Nat × Bool :=
  let s := ns / nsPerS
  let m := legalS z s % max 1 capture
  (s - m, m != 0 || ns % nsPerS != 0)

/-- A reading given its end. -/
def withEnd (end_ : Nat) (adjusted : Bool) (r : Reading) : Reading :=
  { r with iv := { r.iv with end_, flags := if adjusted then r.iv.flags ||| ifClockAdjusted else r.iv.flags } }

/-- The ends of the entries of one APDU (R155). -/
def giveEnds (z : Zone) (capture stamp : Nat) (l : List Reading) : List Reading :=
  let own := l.map fun r => r.own.map (roundEnd z capture)
  let last := (roundEnd z capture stamp).1
  (List.range l.length).map fun i =>
    let r := l.getD i { iv := { end_ := 0, flags := 0#16, e := [], v := [], asn := 0, status := 0, method := 0, rules := 0#16,
                                capture, inDemand := false } }
    match own.getD i none with
    | some (e, a) => withEnd e a r
    | none =>
      let earlier := ((List.range i).reverse).findSome? fun j => (own.getD j none).map fun e => e.1 + (i - j) * capture
      let later := (List.range (l.length - i)).findSome? fun k => (own.getD (i + k) none).map fun e => e.1 - k * capture
      match earlier, later with
      | some e, _ => withEnd e false r
      | none, some e => withEnd e false r
      | none, none => withEnd (last - (l.length - 1 - i) * capture) true r

/-- The latest kept cumulative value of a quantity, with its end (R154). -/
def latestKept (v : Valid) (q : Nat) : Option (Nat × Int) :=
  (v.kept.filter fun k => k.1 == q).foldl (fun b k =>
    match b with
    | none => some k.2
    | some y => if y.1 ≤ k.2.1 then some k.2 else some y) none

/-- A cumulative value in its place among others, latest end first. -/
def keepIn (k : Nat × Nat × Int) : List (Nat × Nat × Int) → List (Nat × Nat × Int)
  | [] => [k]
  | x :: xs => if k.2.1 < x.2.1 then x :: keepIn k xs else if k.2.1 = x.2.1 then k :: xs else k :: x :: xs

/-- A cumulative value is kept with its end, the 32 of each quantity with the latest ends (R154; assumption log 27). -/
def keep (q end_ : Nat) (c : Int) (v : Valid) : Valid :=
  { v with kept := (keepIn (q, end_, c) (v.kept.filter fun k => k.1 == q)).take 32 ++ v.kept.filter fun k => k.1 != q }

/-- A reading's derived values, 0 where the kept value is not of the interval's start, and what its cumulative values leave kept
(R154). The cumulative value at its start is kept too, where none is (assumption log 27). -/
def deriveOne (l : Layout) (r : Reading) (v : Valid) : Reading × Valid :=
  let owned (q : Nat) : Bool := l.cols.any fun c => isIntervalTarget c.target && quantityOf c.target == q
  r.cum.foldl (fun acc p =>
    let (r, v) := acc
    let (q, c) := p
    let r1 := if owned q then r
      else match latestKept v q with
        | some (e, k) =>
          if e + l.capture = r.iv.end_ then
            let r' := putValue q (max 0 (c - k)) r
            { r' with iv := { r'.iv with flags := r'.iv.flags ||| ifDerived } }
          else putValue q 0 r
        | none => putValue q 0 r
    let start := r.iv.end_ - l.capture
    let v1 := if v.kept.any fun k => k.1 == q && k.2.1 == start then v else keep q start (c - r1.iv.e.getD q 0) v
    (r1, keep q r.iv.end_ c v1)) (r, v)

/-- Readings derived in the order they stand. -/
def deriveAll (l : Layout) (rs : List Reading) (v : Valid) : List Reading × Valid :=
  rs.foldl (fun acc r => let (r', v') := deriveOne l r acc.2; (acc.1 ++ [r'], v')) ([], v)

/-- The layout gives interval records: some column feeds one (assumption log 28). -/
def givesIntervals (l : Layout) : Bool := l.cols.any feedsInterval

/-- A piece of an entry once the entry's reading is settled: its record, and the times of its registers and events. -/
def settledItem (r : Reading) (i : Item) : Item :=
  match i with
  | .interval _ => .interval r
  | .register g => .register { g with entry := { g.entry with time := r.iv.end_ * nsPerS } }
  | .event e => .event { e with time := some (r.own.getD (r.iv.end_ * nsPerS)) }
  | .unit u => .unit u

/-- The entries of a profile (R153 to R155); none where one does not fit the layout. -/
def profileContent (z : Zone) (x : Slot) (l : Layout) (stamp : Nat) (entries : List Ax) (v : Valid) : Option (Content × Valid) :=
  let got := entries.foldl (fun acc e =>
    acc.bind fun a => (profileEntry z x l a.2 e).map fun p => (a.1 ++ [p], p.2.units)) (some (([] : List (Reading × Content)), cachedUnits x))
  got.map fun a =>
    let ends := giveEnds z l.capture stamp (a.1.map Prod.fst)
    let (recs, v') := if givesIntervals l then deriveAll l ends v else (ends, v)
    ({ items := (recs.zip (a.1.map Prod.snd)).flatMap fun p => p.2.items.map (settledItem p.1), units := a.2 }, v')

/-! ### Register lists and single attributes -/

/-- A register value of a column; a Clock's time names its instant. -/
def registerValue (z : Zone) (col : Column) (x : Ax) (sc : Int) (unit : Nat) : Option RegRead :=
  let clock := clockOf z col x
  (convert col.target x sc unit).map fun c =>
    { entry := { obis := col.obis, classId := col.classId, attr := col.attr, target := col.target, scaler := c.2.1, unit := c.2.2,
                 value := saturate 8 c.1, time := 0 }, clock }

/-- A CLOCK column's value: none where it is no date-time. Its number is left open (R151, assumption log 28). -/
def clockValue (z : Zone) (col : Column) (x : Ax) (sc : Int) (unit : Nat) : Option RegRead :=
  if (octetsOf x).length = 12 then
    some { entry := { obis := col.obis, classId := col.classId, attr := col.attr, target := 1, scaler := sc, unit,
                      value := saturate 8 (Config.clockValue (octetsOf x)), time := 0 }
           clock := axTime z (octetsOf x) }
  else none

/-- The attribute that holds a register's capture time: 5 of class 4, 6 of class 5 (table COSEM classes handled). -/
def isCaptureTime (c : Column) : Bool := (c.classId == 4 && c.attr == 5) || (c.classId == 5 && c.attr == 6)

/-- The time a value of a register list takes: the capture time the list carries for it, else its CLOCK, else the take time
(R151, assumption log 28). -/
def listTime (z : Zone) (pairs : List (Column × Ax)) (stamp : Nat) (col : Column) : Nat :=
  let timeOf (p : Column × Ax) : Option Nat := axTime z (octetsOf p.2)
  ((pairs.find? fun p => isCaptureTime p.1 && p.1.classId == col.classId && p.1.obis == col.obis).bind timeOf).getD
    (((pairs.find? fun p => p.1.target == 1).bind timeOf).getD stamp)

/-- One register list (R153); none where its element count differs from the layout's. -/
def listContent (z : Zone) (l : Layout) (stamp : Nat) (c : Content) (e : Ax) : Option Content :=
  match e with
  | .list _ items raw =>
    if items.length ≠ l.cols.length then none
    else
      let pairs := l.cols.zip items
      some (pairs.foldl (fun c p =>
        let (col, x) := p
        if col.target = 0 then c
        else
          let (c1, got) := pick col x c
          match got with
          | none => c1
          | some (v, sc, unit) =>
            if col.target = 18 then
              match convert 18 v sc unit with
              | some (code, _, _) =>
                c1.add (.event { origin := 0, code := eventCode code, time := some (listTime z pairs stamp col), raw })
              | none => c1
            else
              match (if col.target = 1 then clockValue z col v sc unit else registerValue z col v sc unit) with
              | some g => c1.add (.register { g with entry := { g.entry with time := listTime z pairs stamp col } })
              | none => c1) c)
  | _ => none

/-- The elements a pushed body holds: an array's elements, or itself. -/
def entriesOf (body : Ax) : List Ax :=
  match body with
  | .list true items _ => items
  | x => [x]

/-- What a data-notification's body gives under the slot's layout; none counts NOT_PARSED (R152, R153). -/
def notifyContent (z : Zone) (x : Slot) (layout : Option Layout) (stamp : Nat) (body : Ax) : Option (Content × Valid) :=
  match layout with
  | none => none
  | some l =>
    if l.isList then
      ((entriesOf body).foldl (fun acc e => acc.bind fun c => listContent z l stamp c e)
        (some { units := cachedUnits x })).map fun c => (c, x.valid)
    else profileContent z x l stamp (entriesOf body) x.valid

/-- What one attribute's value gives: a profile's buffer, a scaler_unit, an event code or a register value; `origin` is the
event origin (R152, assumption log 28). -/
def attributeContent (z : Zone) (x : Slot) (layout : Option Layout) (stamp origin : Nat) (time : Option Nat) (cls : Nat)
    (obis : Bytes) (attr : Nat) (value : Ax) (raw : Bytes) : Option (Content × Valid) :=
  if cls = 7 ∧ attr = 2 then
    match layout with
    | some l => if l.isList then none else profileContent z x l stamp (entriesOf value) x.valid
    | none => none
  else
    let col := ((layout.map fun l => l.cols).getD []).find? fun c => c.classId == cls && c.obis == obis && c.attr == attr
    let col := col.getD { classId := cls, obis, attr, index := 0, target := 17, scaler := 0, unit := 255 }
    let col := if col.target = 1 ∨ col.target = 0 then { col with target := 17 } else col
    let (c, got) := pick col value { units := cachedUnits x }
    match got with
    | none => some (c, x.valid)
    | some (v, sc, unit) =>
      if col.target = 18 then
        match convert 18 v sc unit with
        | some (code, _, _) =>
          some (c.add (.event { origin, code := eventCode code, time := some (time.getD stamp), raw }), x.valid)
        | none => some (c, x.valid)
      else
        match registerValue z col v sc unit with
        | some g => some (c.add (.register { g with entry := { g.entry with time := time.getD stamp } }), x.valid)
        | none => some (c, x.valid)

/-- The register entries of an unciphered frame in COMMISSIONING: one for each value of each column, with the entry's interval end,
or in a register list the value's own capture time (R151). -/
def commissionContent (z : Zone) (x : Slot) (layout : Option Layout) (stamp : Nat) (body : Ax) : List RegRead :=
  match layout with
  | none => []
  | some l =>
    let entries := (entriesOf body).map fun e => match e with
      | .list _ items _ => if items.length = l.cols.length then l.cols.zip items else []
      | _ => []
    if entries.any List.isEmpty then []
    else
      let ends : List Nat :=
        if l.isList then entries.map fun _ => stamp
        else
          ((profileContent z x l stamp (entriesOf body) x.valid).map fun _ =>
            (giveEnds z l.capture stamp (entries.map fun ps =>
              (ps.foldl (profileColumn z []) (freshReading x l, {})).1)).map fun r => r.iv.end_ * nsPerS).getD []
      ((entries.zip ends).foldl (fun (acc : List RegRead × Content) p =>
        p.1.foldl (fun acc q =>
          let (col, v0) := q
          if col.target = 0 then acc
          else
            let (c, got) := pick col v0 acc.2
            let time := if l.isList then listTime z p.1 p.2 col else p.2
            match got with
            | none => (acc.1, c)
            | some (v, sc, unit) =>
              match (if col.target = 1 then clockValue z col v sc unit else registerValue z col v sc unit) with
              | some g => (acc.1 ++ [{ g with entry := { g.entry with time } }], c)
              | none => (acc.1, c)) acc) ([], { units := cachedUnits x })).1

/-! ### Validation (R157, R158) -/

/-- The quantities a rule looks at (table Rule types). -/
def ruleQtys (r : Rule) : List Nat :=
  if r.qty ≠ 0xFF then [r.qty]
  else
    match r.type with
    | 1 | 4 => [0, 1, 2, 3, 4, 5, 6, 7]
    | 2 | 3 | 6 | 7 | 11 => [0, 1, 2, 3]
    | 5 => [1]
    | 8 => [4, 5, 6]
    | _ => []

/-- A quantity's value in a reading. -/
def valueOf (r : Reading) (q : Nat) : Int := if q < 4 then (r.iv.e.getD q 0 : Int) else (r.iv.v.getD (q - 4) 0 : Int)

/-- The last `n` measured values of a quantity; none while fewer are held. -/
def lastValues (v : Valid) (q n : Nat) : Option (List (Int × Option Int)) :=
  let h := (Tbl.getD v.recent q []).take n
  if h.length = n then some h else none

/-- Each of the last `n` measured values of a quantity is of a kind: with a value of that kind now, the run is `n + 1` long. -/
def runOf (v : Valid) (q n : Nat) (kind : Int × Option Int → Bool) : Bool :=
  match lastValues v q n with
  | some h => h.all kind
  | none => false

/-- The last register value of a quantity and the interval values since. -/
def lastRegOf (v : Valid) (q : Nat) : Option (Int × Int) := (v.lastReg.find? fun x => x.1 == q).map Prod.snd

/-- A cumulative value against CONTINUITY or ROLLBACK, with the interval value it closes. -/
def cumulativeFires (r : Rule) (v : Valid) (q : Nat) (c e : Int) : Bool :=
  match lastRegOf v q with
  | none => false
  | some (last, sum) => if r.type = 6 then decide (r.a < (c - last - (sum + e)).natAbs) else decide (r.a < last - c)

/-- Voltage L1 of a reading, where it was supplied. -/
def suppliedL1 (x : Reading) : Option Int := if 4 ∈ x.sup then some (valueOf x 4) else none

/-- The value is 0 while voltage L1 is above a limit (ZERO_RUN, R157). -/
def zeroUnder (a : Int) (p : Int × Option Int) : Bool := p.1 == 0 && (match p.2 with | some l1 => decide (a < l1) | none => false)

/-- One rule against an interval reading: whether it fires (R157). CLOCK judges it by how far the meter's clock was off in its frame,
where the frame tells (DESIGN CHOICE, assumption log 28). -/
def ruleOnReading (r : Rule) (gen : Bool) (off : Option Nat) (x : Reading) (v : Valid) : Bool :=
  let qs := (ruleQtys r).filter fun q => decide (q ∈ x.sup)
  match r.type with
  | 1 | 8 => qs.any fun q => decide (valueOf x q < r.a) || decide (r.b < valueOf x q)
  | 2 =>
    qs.any fun q =>
      match lastValues v q r.n with
      | some h => decide (r.b < valueOf x q) && decide (r.a * lowerMedian (h.map fun p => p.1.toNat) < 16 * valueOf x q)
      | none => false
  | 3 => qs.any fun q => zeroUnder r.a (valueOf x q, suppliedL1 x) && runOf v q (r.n - 1) (zeroUnder r.a)
  | 4 => qs.any fun q => valueOf x q != 0 && runOf v q (r.n - 1) fun p => p.1 == valueOf x q
  | 5 => decide (1 ∈ x.sup) && decide (r.a < valueOf x 1) && !gen
  | 6 | 7 =>
    (ruleQtys r).any fun q => match x.cum.find? fun p => p.1 == q with
      | some p => cumulativeFires r v q p.2 (valueOf x q)
      | none => false
  | 9 => x.iv.status &&& r.a.toNat != 0
  | 10 => match off with
    | some d => decide (r.a * nsPerS < (d : Int))
    | none => false
  | _ => false

/-- What a reading leaves in the rule history: the measured values, the register values, the sums (R158). -/
def remember (x : Reading) (v : Valid) : Valid :=
  let v1 := x.sup.foldl (fun u q =>
    { u with recent := Tbl.upd u.recent q [] fun h => ((valueOf x q, suppliedL1 x) :: h).take 96 }) v
  (List.range 4).foldl (fun u q =>
    match x.cum.find? fun p => p.1 == q with
    | some p => { u with lastReg := (q, p.2, 0) :: u.lastReg.filter fun y => y.1 != q }
    | none => { u with lastReg := u.lastReg.map fun y => if y.1 = q then (q, y.2.1, y.2.2 + valueOf x q) else y }) v1

/-- The bit of a rule type. -/
def ruleBit (t : Nat) : BitVec 16 := BitVec.ofNat 16 (2 ^ (t - 1))

/-- A reading against the slot's rules, in order, and the history it leaves (R158). -/
def judgeReading (rules : List Rule) (gen : Bool) (off : Option Nat) (x : Reading) (v : Valid) : Reading × Valid :=
  let bits := rules.foldl (fun a r => if ruleOnReading r gen off x v then a ||| ruleBit r.type else a) x.iv.rules
  ({ x with iv := { x.iv with rules := bits } }, remember x v)

/-- A register value against a rule (R158). -/
def ruleOnRegister (tai : Nat) (r : Rule) (g : RegRead) (v : Valid) : Bool :=
  let q := quantityOf g.entry.target
  let y := g.entry.value
  match r.type with
  | 1 | 8 => decide (11 ≤ g.entry.target) && decide (g.entry.target ≤ 14) && decide (q ∈ ruleQtys r)
      && (decide (y < r.a) || decide (r.b < y))
  | 6 | 7 => isCumulative g.entry.target && decide (q ∈ ruleQtys r) && cumulativeFires r v q y 0
  | 9 => g.entry.target == 2 && (y.toNat &&& r.a.toNat != 0)
  | 10 => match g.clock with
    | some t => decide (r.a * nsPerS < ((t : Int) - tai).natAbs)
    | none => false
  | _ => false

/-- A register value against the slot's rules, and the history it leaves (R158). -/
def judgeRegister (rules : List Rule) (tai : Nat) (g : RegRead) (v : Valid) : RegRead × Valid :=
  let q := quantityOf g.entry.target
  ({ g with flagged := rules.any fun r => ruleOnRegister tai r g v },
   if isCumulative g.entry.target then { v with lastReg := (q, g.entry.value, 0) :: v.lastReg.filter fun y => y.1 != q } else v)

/-- How far the first Clock value of a frame's content lies from an instant of TB2, ns. -/
def clockOff (tai : Nat) (l : List Item) : Option Nat :=
  (l.findSome? fun i => match i with | .register g => g.clock | _ => none).map fun t => ((t : Int) - tai).natAbs

/-- The pieces of a frame's content against the slot's rules, in the order they stand (R158). -/
def judgeItems (rules : List Rule) (gen : Bool) (tai : Nat) (l : List Item) (v : Valid) : List Item × Valid :=
  l.foldl (fun acc i =>
    match i with
    | .interval x => let (y, v) := judgeReading rules gen (clockOff tai l) x acc.2; (acc.1 ++ [.interval y], v)
    | .register g => let (h, v) := judgeRegister rules tai g acc.2; (acc.1 ++ [.register h], v)
    | i => (acc.1 ++ [i], acc.2)) ([], v)

end Sys2Proof.Machine
end

