-- ==== Sys2Proof/Machine/Opening.lean ====
section
/-!
DEFINITION. Opening a taken frame: route, key, authentication, ASN, parsing, validation, booking, commit and export
(R30 to R32, R142 to R163), its rejection, forwarding while a shard drains, and METER_REMOVE.
-/

namespace Sys2Proof.Machine

/-- Frames are opened: DEV_READY, a device ID, TB3 valid, replay ended, acceptance not stopped (R20, R288, R351, R383).
A refusal of taking does not keep the frames already taken from being opened (assumption log 29). -/
def opens (s : State) : Bool :=
  s.dev.devReady && s.dev.deviceId != 0#32 && tb3Valid s && s.dev.replayed && !s.dev.acceptStopped

/-! ### RAW_FRAME records (R32, R162) -/

/-- The payload of a RAW_FRAME record. -/
def rawPayload (e : Intake) (reason : Nat) : Bytes :=
  let a := apduOf e.origin e.frame
  le 2 a.length ++ le 1 e.origin ++ le 1 reason ++ le 1 e.lc ++ le 1 e.port ++ le 2 (unsigned 2 e.rssi)
    ++ le 2 (linkSequence e.origin e.frame) ++ le 2 (linkAddress e.origin e.frame) ++ zeros 4 ++ a

/-- A RAW_FRAME record of a slot's shard, whatever the shard's opened types. -/
def rawOfSlot (n : Nat) (e : Intake) (flags reason asn : Nat) (s : State) : State :=
  commitRec (slotRec s n 3 (BitVec.ofNat 8 flags) asn e.stamp (rawPayload e reason)) s

/-- The RAW_FRAME record of an opened or rejected frame: in field role only (R32, R162). -/
def rawFrame (n : Nat) (e : Intake) (flags reason asn : Nat) (s : State) : State :=
  if s.dev.core then s else rawOfSlot n e flags reason asn s

/-- The RAW_FRAME record of an UNROUTED frame: no shard, slot 0, epoch 0, ring 0, UNCIPHERED where its APDU is (R19, R32, R50).
With no slot there is no generation: its ASN is 0, ciphered or not (DESIGN CHOICE, assumption log 76). -/
def rawUnrouted (e : Intake) (s : State) : State :=
  if s.dev.core then s
  else commitRec { seq := 0, ring := 0, type := 3, flags := BitVec.ofNat 8 (4 + flag 5 (!isCiphered (apduOf e.origin e.frame))), slot := 0, shard := none, epoch := 0, asn := 0, stamp := e.stamp,
                   eui := 0#64, local_ := 0#16, payload := rawPayload e 1 } s

/-! ### Rejection (R31) -/

/-- A slot's counter rises, saturating at 32 bits (R146). -/
def countSlot (n i : Nat) (k : Nat) (s : State) : State :=
  modSlot n (fun x => { x with counters := x.counters.modify i fun c => min (c + k) (2 ^ 32 - 1) }) s

/-- A device counter rises (R398). -/
def countDev (i : Nat) (s : State) : State := s.onDev fun d => { d with counters := d.counters.modify i (· + 1) }

/-- Reasons of a RAW_FRAME payload (R162). -/
def rsUnrouted : Nat := 1
def rsNoKey : Nat := 2
def rsAuthFailed : Nat := 3
def rsNotNewer : Nat := 4
def rsDuplicate : Nat := 5
def rsUnciphered : Nat := 6

/-- The slot counter and the device counter of a reason (R146, R398); the device has none for UNCIPHERED. -/
def slotCounter (reason : Nat) : Nat := if reason = rsNoKey then 0 else if reason = rsAuthFailed then 1 else if reason = rsNotNewer then 2
  else if reason = rsDuplicate then 3 else 4
def devCounter (reason : Nat) : Option Nat := if reason = rsNoKey then some 6 else if reason = rsAuthFailed then some 5
  else if reason = rsNotNewer then some 4 else if reason = rsDuplicate then some 3 else none

/-- The code of the record of a frame not accepted: of the security class, 0x3xxx (R31, R322); which one is open (log 2). -/
def securityCode (reason : Nat) : Nat := 0x3000 + Config.rejectYew reason % 0x1000

/-- A frame of a slot is not accepted: counted, recorded at most once an hour per slot unless DUPLICATE, and exported as
REJECTED in field role (R31, R32). The data of the record are the reason and the frame's ASN, those of an UNROUTED frame its link
address: the manual gives them no layout (DESIGN CHOICE, assumption log 76). -/
def rejectFrame (n : Nat) (e : Intake) (reason asn : Nat) (s : State) : State :=
  let s1 := countSlot n (slotCounter reason) 1 s
  let s2 := match devCounter reason with | some i => countDev i s1 | none => s1
  let s3 := if reason = rsDuplicate then s2
    else limited (limitKey 0x3040 n) nsHour (yew (securityCode reason) kSlot n (le 1 reason ++ le 8 asn)) s2
  rawFrame n e (4 + (if reason = rsUnciphered then 32 else 0)) reason asn s3

/-- A frame that routes to no slot: counted, recorded at most once a minute, exported as UNROUTED in field role (R31, R144). -/
def unrouted (e : Intake) (s : State) : State :=
  rawUnrouted e (limited (limitKey 0x3041 0) nsMin
    (yew (securityCode rsUnrouted) kDevice 0 (le 4 (linkAddress e.origin e.frame))) (countDev 2 s))

/-! ### Keys and authentication (R147 to R149) -/

/-- EK and AK of a frame at a generation: the dedicated key for general-ded-ciphering, with the slot's AK (R148). -/
def frameKey (s : State) (n gen : Nat) (ded : Bool) : Option (Bytes × Bytes) :=
  let x := slot s n
  match keysOf s n gen with
  | none => none
  | some (ek, ak) =>
    if ded then (Tbl.get s.vlt.dedicated n).map fun d => (Config.trng d (keyBytes x.suite), ak) else some (ek, ak)

/-- The imported blob of a generation fails its integrity check: it is there, its unwrap key is there, and it gives no key
(R248). -/
def blobFails (s : State) (n gen : Nat) : Bool :=
  let x := slot s n
  x.imported && match blobOf x gen with
    | some b => unwrapKeyHeld s b && (meterBlob s b x.title).isNone
    | none => false

/-- The keys of a generation that a frame asks for: they head the cache, or a blob that fails is recorded once a day per slot
(R247, R248). -/
def askKeys (n gen : Nat) (s : State) : State :=
  match keysOf s n gen with
  | some k => cacheTouch n gen k s
  | none => if blobFails s n gen then limited (limitKey 0x3007 n) nsDay (yew 0x3007 kSlot n []) s else s

/-- The security control byte fits the slot (R147). -/
def controlOk (suite control : Nat) : Bool :=
  control % 16 == suite && control / 16 % 2 == 1 && control / 64 == 0

/-- The plaintext of a frame under a key, when its tag verifies (R147). -/
def openUnder (c : Ciphered) (k : Bytes × Bytes) : Option Bytes :=
  let iv := c.title ++ be 4 c.counter
  if c.control / 32 % 2 = 1 then Config.gcmOpen k.1 iv (le 1 c.control ++ k.2) c.body c.tag
  else (Config.gcmOpen k.1 iv (le 1 c.control ++ k.2 ++ c.body) [] c.tag).map fun _ => c.body

/-- The generations a frame is tried under: the current one, then the staged one, then the older one (R149). -/
def gensOf (x : Slot) : List Nat := [x.gen] ++ x.staged.toList ++ (x.older.map Prod.fst).toList

/-- The generation that authenticates a frame, with the plaintext; one whose key is not available authenticates none
(R30, R148, R149). -/
def authenticate (s : State) (n : Nat) (c : Ciphered) : Option (Nat × Bytes) :=
  (gensOf (slot s n)).findSome? fun g => (frameKey s n g c.dedicated).bind fun k => (openUnder c k).map fun p => (g, p)

/-- The generations whose keys a frame asks for: all up to the one that authenticates it; the current one alone where its header is
judged before any key (R149). -/
def askedGens (s : State) (n : Nat) (c : Option Ciphered) : List Nat :=
  let x := slot s n
  match c with
  | none => [x.gen]
  | some c =>
    if ¬ controlOk x.suite c.control then [x.gen]
    else match authenticate s n c with
      | some (g, _) => (gensOf x).takeWhile (fun h => h != g) ++ [g]
      | none => gensOf x

/-- The staged generation becomes current and the one it replaces the older (R149): its counters start afresh (R150, R305). -/
def promote (n : Nat) (g : Nat) (s : State) : State :=
  let s1 := modSlot n (fun x =>
    { x with gen := g, staged := none, exhausted := false, blob := if x.stagedBlob.isSome then x.stagedBlob else x.blob,
             stagedBlob := none, older := some (x.gen, x.blob), icBlock := none, icNext := 0 }) s
  let s2 := report 0x3025 kSlot n (le 2 g) 0x0702 3 n (le 2 g) (cacheDrop n s1)
  if s.pair.holder then queueItem 6 (le 4 n ++ le 1 (slot s n).keyPlan ++ le 1 1 ++ le 2 g) true none s2 else s2

/-! ### What an accepted frame leaves -/

/-- A register cache entry takes the latest value, most recently updated first, at most 56 (R146). -/
def cachePut (r : RegEntry) (l : List RegEntry) : List RegEntry :=
  (r :: l.filter fun y => !(y.classId == r.classId && y.obis == r.obis && y.attr == r.attr)).take 56

/-- The cache entry of a scaler_unit (R146, R154). -/
def unitEntry (stamp : Nat) (u : Nat × Bytes × Int × Nat) : RegEntry :=
  { obis := u.2.1, classId := u.1, attr := unitAttr u.1, target := 17, scaler := u.2.2.1, unit := u.2.2.2, value := 0, time := stamp }

/-- The readings of a frame ready to book: the ASN, REPLACES where an estimate of the same end was made (R160). -/
def stamped (x : Slot) (asn : Nat) (r : Reading) : Interval :=
  let est := x.valid.ends.any fun q => !q.measured && q.end_ == r.iv.end_
  { r.iv with asn, flags := if est then r.iv.flags ||| ifReplaces else r.iv.flags }

/-- Records of at most 64 intervals. -/
def chunks64 : Nat → List Interval → List (List Interval)
  | 0, _ => []
  | _ + 1, [] => []
  | f + 1, l => l.take 64 :: chunks64 f (l.drop 64)

/-- OPENED_INTERVAL records (R162). -/
def exportIntervals (n : Nat) (src : Source) (l : List Interval) (s : State) : State :=
  let x := slot s n
  (chunks64 l.length l).foldl (fun t c =>
    let fl := flag 0 src.accepted + flag 4 (c.any fun r => r.method != 0) + flag 5 (c.any fun r => r.flags.getLsbD 6)
      + flag 6 (c.any fun r => r.rules != 0#16)
    let cap := match c.head? with | some r => r.capture | none => 0
    let capture := match Tbl.get t.met.layouts x.layout with | some y => y.capture | none => cap
    commitRec (slotRec t n 1 (BitVec.ofNat 8 fl) src.asn src.stamp
      (le 2 c.length ++ le 1 x.layout ++ le 1 x.medium ++ le 4 capture ++ zeros 8 ++ c.flatMap intervalBytes)) t) s

/-- An OPENED_REGISTER record (R162). -/
def exportRegisters (n : Nat) (src : Source) (flags : Nat) (l : List RegEntry) (s : State) : State :=
  if l = [] then s
  else commitRec (slotRec s n 2 (BitVec.ofNat 8 (flag 0 src.accepted + flags)) src.asn src.stamp
    (countHead l.length ++ l.flatMap regBytes)) s

/-- An EVENT entry of a meter event (R162). -/
def meterEntry (e : EvRead) : Bytes := eventEntry e.origin 0 e.code 0 (e.time.getD 0 * nsUnit) (Config.eventData e.raw)

/-! ### The opened records of a frame (R162) -/

/-- What one opened record carries: pieces of one kind that stand together in the content. -/
inductive Opened where
  /-- OPENED_INTERVAL. -/
  | intervals (l : List Interval)
  /-- OPENED_REGISTER. -/
  | registers (l : List RegRead)
  /-- EVENT. -/
  | events (l : List EvRead)
  deriving DecidableEq, Repr

/-- Two neighbours of one kind stand in one record. -/
def Opened.join (a b : Opened) : Option Opened :=
  match a, b with
  | .intervals l, .intervals m => some (.intervals (l ++ m))
  | .registers l, .registers m => some (.registers (l ++ m))
  | .events l, .events m => some (.events (l ++ m))
  | _, _ => none

/-- A piece joins the records of the pieces before it. -/
def addOpened (l : List Opened) (o : Opened) : List Opened :=
  match l.getLast?.bind fun x => x.join o with
  | some j => l.dropLast ++ [j]
  | none => l ++ [o]

/-- The opened records of the content, in its order, each reading given as its interval records. -/
def openedOf (ivs : Reading → List Interval) (l : List Item) : List Opened :=
  l.foldl (fun acc i =>
    match i with
    | .interval r => addOpened acc (.intervals (ivs r))
    | .register g => addOpened acc (.registers [g])
    | .event e => addOpened acc (.events [e])
    | .unit _ => acc) []

/-- The records of a frame a rule flags: each interval record, and each OPENED_REGISTER record (R158). -/
def flaggedIn (o : Opened) : Nat :=
  match o with
  | .intervals l => (l.filter fun r => r.rules != 0#16).length
  | .registers l => if l.any RegRead.flagged then 1 else 0
  | .events _ => 0

/-- The intervals of a frame's content. -/
def Opened.readings (o : Opened) : List Interval := match o with | .intervals l => l | _ => []

/-- The events of a frame's content. -/
def Opened.told (o : Opened) : List EvRead := match o with | .events l => l | _ => []

/-- One opened record is written where the shard exports opened types (R161, R162). -/
def exportOpened (n : Nat) (src : Source) (s : State) (o : Opened) : State :=
  match o with
  | .intervals l => if exportsOpened s n then exportIntervals n src l s else s
  | .registers l => if exportsOpened s n then exportRegisters n src (flag 6 (l.any RegRead.flagged)) (l.map RegRead.entry) s else s
  | .events l => eventRec n src false (l.map meterEntry) s

/-- A piece of content in the register cache: its value, or the scaler_unit received (R146, R154). -/
def cacheItem (stamp : Nat) (l : List RegEntry) (i : Item) : List RegEntry :=
  match i with
  | .register g => cachePut g.entry l
  | .unit u => cachePut (unitEntry stamp u) l
  | _ => l

/-- The value bytes and class, OBIS and attribute of the METER_GET an answer belongs to. -/
def answeredGet (s : State) (n invoke : Nat) : Option DlCmd :=
  match dlAnswered s n invoke with
  | some c => if c.opcode = 0x0F01 then some c else none
  | none => none

/-- The readings an answer to a METER_GET gives (R152). -/
def getContent (z : Zone) (s : State) (n : Nat) (layout : Option Layout) (stamp invoke : Nat) (value : Bytes) : Option (Content × Valid) :=
  let x := slot s n
  match answeredGet s n invoke with
  | none => some ({}, x.valid)
  | some c =>
    match axWhole value with
    | none => none
    | some v =>
      attributeContent z x layout stamp 0 none (field c.desc 28 2) (slice c.desc 30 6) (field c.desc 36 1) v value

/-- The content of a decrypted APDU; none counts NOT_PARSED (R152). -/
def contentOf (z : Zone) (s : State) (n stamp : Nat) (a : Bytes) : Option (Content × Valid) :=
  let x := slot s n
  let layout := Tbl.get s.met.layouts x.layout
  match apduOfBytes a with
  | some (.notify body) => notifyContent z x layout stamp body
  | some (.event time cls obis attr v) =>
    attributeContent z x layout stamp 1 (time.bind (axTime z)) cls obis attr v a
  | some (.get invoke 0 value) => getContent z s n layout stamp invoke value
  | some (.get _ _ _) => some ({}, x.valid)
  | some (.block invoke true _ 0 raw) =>
    getContent z s n layout stamp invoke (((answeredGet s n invoke).map fun c => c.got).getD [] ++ raw)
  | some (.block _ _ _ _ _) => some ({}, x.valid)
  | _ => none

/-- What an answer means to the downlink command it belongs to (R416). -/
def answerDownlink (n asn : Nat) (a : Bytes) (s : State) : State :=
  match apduOfBytes a with
  | some (.get invoke result value) => dlResult n invoke result asn value s
  | some (.block invoke last number result raw) => dlBlock n invoke last number result asn raw s
  | some (.done invoke result value) => dlResult n invoke result asn value s
  | _ => s

/-- An accepted frame: steps 5 to 9 (R142). -/
def acceptFrame (n : Nat) (e : Intake) (asn counter : Nat) (plain : Bytes) (s0 : State) : State :=
  match s0.tim.zone with
  | none => s0
  | some z =>
    let src : Source := { asn, stamp := e.stamp, accepted := true }
    let x := slot s0 n
    let got := contentOf z s0 n (e.stamp / nsUnit) plain
    let (c, v) := got.getD ({}, x.valid)
    let (items, v2) := judgeItems (slotRules s0 n) x.generating (tb2 s0) c.items v
    let limit := match planAt s0 x.plan with | some p => p.plan.shift | none => 3600
    let evs := (openedOf (fun _ => []) items).flatMap Opened.told
    let shifts := evs.filterMap fun ev => Config.clockShift ev.raw
    let moved := shifts.filter fun p => beyond limit p && !decide (p ∈ v2.shifts)
    let known := (shifts.reverse ++ v2.shifts).dedup.take 16
    let recs := openedOf (fun r => splitShifts (known.reverse.filter (beyond limit)) (stamped x asn r)) items
    let ivs := recs.flatMap Opened.readings
    let touch (l : List RegEntry) : List RegEntry := items.foldl (cacheItem (e.stamp / nsUnit)) l
    let s1 := modSlot n (fun y =>
      { y with asn, accepted := s0.tim.tb2, valid := { v2 with shifts := known }, cache := touch y.cache
               exhausted := y.exhausted || counter == 0xFFFFFFFF }) s0
    let s2 := countSlot n 6 (recs.map flaggedIn).sum (if got.isNone then countSlot n 5 1 s1 else s1)
    let s3 := moved.foldl (fun t p => regroup n (shiftSplits t n p) (meterShift n asn t p)) (if moved = [] ∧ ivs = [] then s2 else roll n s2)
    let s4 := ivs.foldl (fun t r => feedGroups n r (book n r t)) s3
    let s5 := commit (countDev 1 s4)
    let s6 := if counter = 0xFFFFFFFF then report 0x3026 kSlot n (le 8 asn) 0x0701 1 n (le 8 asn) s5 else s5
    let s7 := rawFrame n e (1 + flag 4 got.isNone) 0 asn s6
    let s9 := recs.foldl (exportOpened n src) s7
    let s10 := evs.foldl (fun t ev => meterTamper n ev.code ev.origin src t) s9
    let s11 := ivs.foldl (fun t r => inferTamper n r src t) s10
    answerDownlink n asn plain s11

/-- An unciphered frame: counted, and parsed into unaccepted registers while the slot is in COMMISSIONING (R151). -/
def openUnciphered (n : Nat) (e : Intake) (s : State) : State :=
  let s1 := rejectFrame n e rsUnciphered 0 s
  match (slot s n).state, s.tim.zone, apduOfBytes (apduOf e.origin e.frame) with
  | .commissioning, some z, some (.notify body) =>
    let x := slot s n
    let regs := commissionContent z x (Tbl.get s.met.layouts x.layout) (e.stamp / nsUnit) body
    if exportsOpened s1 n then
      exportRegisters n { asn := 0, stamp := e.stamp, accepted := false } 32 (regs.map RegRead.entry) s1
    else s1
  | _, _, _ => s1

/-- A frame routed to a slot of a held shard: steps 2 to 9 (R142). A frame no available generation authenticates is NO_KEY where
the current generation's key is not available, and AUTH_FAILED else (R30, R149; assumption log 29). The ASN of such a frame is the
slot's current generation with the counter in the clear, 0 where its structure is malformed (DESIGN CHOICE, assumption log 76). -/
def openRouted (n : Nat) (e : Intake) (s0 : State) : State :=
  let s := s0.onCop fun c => { c with reload := c.reload.filter fun k => k != n }
  let x := slot s n
  let a := apduOf e.origin e.frame
  if ¬ isCiphered a then openUnciphered n e s
  else
    let ded := a.head? == some 0xDC#8
    let asnOf (g counter : Nat) : Nat := g * 2 ^ 32 + counter
    let have_ := (frameKey s n x.gen ded).isSome
    let s1 := (askedGens s n (cipheredOf a)).foldl (fun t g => askKeys n g t) s
    let fails (asn : Nat) : State := rejectFrame n e (if have_ then rsAuthFailed else rsNoKey) asn s1
    match cipheredOf a with
    | none => fails 0
    | some c =>
      match (if controlOk x.suite c.control then authenticate s1 n c else none) with
      | none => fails (asnOf x.gen c.counter)
      | some (g, plain) =>
        let s2 := if x.staged = some g then promote n g s1 else s1
        let asn := asnOf g c.counter
        if asn = max x.asn x.handover then rejectFrame n e rsDuplicate asn s2
        else if asn < max x.asn x.handover ∨ (g ≠ x.gen ∧ x.staged ≠ some g) then rejectFrame n e rsNotNewer asn s2
        else acceptFrame n e asn c.counter plain s2

/-- The invocation counter a frame shows in the clear. -/
def clearCounter (a : Bytes) : Nat := match cipheredOf a with | some c => c.counter | none => 0

/-- A frame forwarded without opening: the ASN from its clear header and the generation held for its slot (R32, R315). -/
def forwardFrame (n : Nat) (e : Intake) (s : State) : State :=
  let a := apduOf e.origin e.frame
  let asn := if isCiphered a then (slot s n).gen * 2 ^ 32 + clearCounter a else 0
  rawOfSlot n e (2 + flag 5 (!isCiphered a)) 0 asn s

/-- A shard whose frames are forwarded (R315). -/
def forwards (s : State) (k : Nat) : Bool := decide ((shard s k).state = .frozen) || decide ((shard s k).state = .draining)

/-- A shard this device takes frames for: held, or forwarding, at an epoch of its own (R19, R30, R315). -/
def placed (s : State) (k : Nat) : Bool := decide ((shard s k).state = .held) || forwards s k

/-- A frame taken that carries no APDU, an EMPTY frame say: there is nothing to open. In field role its RAW_FRAME record tells of
it like one not opened (R26, R32; DESIGN CHOICE, assumption log 58). -/
def nothingInside (n : Nat) (e : Intake) (s : State) : State := if s.dev.core then s else forwardFrame n e s

/-- One entry of the intake buffer is opened, forwarded or rejected (R30 to R32, R142, R144, R161). -/
def openEntry (e : Intake) (s : State) : State :=
  if e.transparent then
    match forwardSlot s e with
    | some n => if placed s (shardOf n) then forwardFrame n e s else unrouted e s
    | none => unrouted e s
  else
    match route s e.origin e.frame with
    | some n =>
      if forwards s (shardOf n) then forwardFrame n e s
      else if (apduOf e.origin e.frame).isEmpty then nothingInside n e s
      else if (shard s (shardOf n)).state = .held then openRouted n e s
      else unrouted e s
    | none => unrouted e s

/-- An entry leaves the intake buffer once its outcome is durable (R433). -/
def freeEntry (seq : Nat) (s : State) : State :=
  s.onProt fun p => { p with intake := p.intake.filter fun e => e.seq != seq }

/-- The outcome of an entry is committed, where it has not been already (R30, R433). -/
def commitOutcome (before after : State) : State := if after.cop.commits = before.cop.commits then commit after else after

/-- The entry opened, its outcome committed, its place freed; a mode that waited for it reaches its shard's slots (R161). -/
def openAndFree (e : Intake) (s : State) : State :=
  let t := freeEntry e.seq (commitOutcome s (openEntry e s))
  match forwardSlot s e with
  | some n => settleMode (shardOf n) t
  | none => t

/-- The quad whose engine opens an entry: that of the owner of its shard; none for a frame of no slot, which no quad has to be
awake for (R13, R15; assumption log 75). -/
def entryQuad (s : State) (e : Intake) : Option Nat :=
  (if e.transparent then forwardSlot s e else route s e.origin e.frame).map fun n => ownerOf s (shardOf n) / 4

/-- An entry can be delivered: its quad is in RUN (R13). -/
def deliverable (s : State) (e : Intake) : Bool :=
  match entryQuad s e with
  | some q => quadRuns s q
  | none => true

/-- An entry is sent toward a quad below RUN: it stays in the crossing FIFO, or in the intake buffer while the FIFO is full, and
the crossing raises a wake request for the domain (R13). -/
def sendCrossing (e : Intake) (s : State) : State :=
  match entryQuad s e with
  | none => s
  | some q =>
    raiseWake q (s.onPwr fun p =>
      { p with
        crossing := if (q, e.seq) ∈ p.crossing ∨ Config.crossingDepth ≤ (p.crossing.filter fun x => x.1 == q).length then p.crossing
          else p.crossing ++ [(q, e.seq)] })

/-- The oldest taken frame whose quad is in RUN is opened; older ones wait in their crossings (R13, R15, R142). -/
def openNext (s : State) : State :=
  if opens s then
    let s1 := (s.prot.intake.takeWhile fun e => !deliverable s e).foldl (fun t e => sendCrossing e t) s
    match s.prot.intake.find? (deliverable s) with
    | some e => openAndFree e s1
    | none => s1
  else s

/-- Every entry of the intake buffer is opened in taken order; one whose quad is below RUN is sent toward it and waits (R13, R46). -/
def openAll (s : State) : State := s.prot.intake.foldl (fun t e => if deliverable t e then openAndFree e t else sendCrossing e t) s

/-! ### METER_REMOVE (R143, R401, R402) -/

/-- Entries of the intake buffer that route to a slot. -/
def framesOf (s : State) (n : Nat) : List Intake :=
  s.prot.intake.filter fun e => (if e.transparent then forwardSlot s e else route s e.origin e.frame) == some n

/-- The frames of a slot's shard, up to the last of the slot, are opened in taken order (R15, R143). -/
def openSlotFrames (n : Nat) (s : State) : State :=
  let last := ((framesOf s n).map Intake.seq).foldl max 0
  (s.prot.intake.filter fun e => decide (e.seq ≤ last) && (forwardSlot s e).map shardOf == some (shardOf n)).foldl
    (fun t e => openAndFree e t) s

/-- The slot is the reference or a member of a balance group. -/
def inGroup (s : State) (n : Nat) : Bool :=
  s.lt.groups.any fun g => (gHasRef g.2 && g.2.reference == n) || g.2.members.any fun m => m.1 == n

/-- A slot's Bramble connection is ended with the reason "slot removed" (table Bramble event types). -/
def endConnection (n : Nat) (s : State) : State :=
  s.onBr fun b => { b with conns := Tbl.mod b.conns n fun c =>
    if c.terminating.isSome then c else { c with terminating := some (2, none) } }

/-- A slot leaves the directory and returns to EMPTY. -/
def removeSlot (n : Nat) (s : State) : State :=
  syncDirectory ((cacheDrop n (endConnection n s)).onMet fun m => { m with slots := Tbl.del m.slots n })

def meterRemoveDef : CmdDef :=
  { opcode := 0x0202, role := fun _ => .oper
    args := fun s c => slotExists s c none
    state := fun s c => orFail (inUse s c.slotArg && !inGroup s c.slotArg) stStateConflict
    objects := fun _ c => slotObject c
    waits := fun s c => s.dev.devReady && ((!opens s && !(framesOf s c.slotArg).isEmpty) || (framesOf s c.slotArg).any fun e => !deliverable s e)
    act := fun c s =>
      let n := c.slotArg
      (.result [], removeSlot n (dlSlotRemoved n (roll n (openSlotFrames n s)))) }

def execFrameOpen (s : State) : Host.Outcome State Fault Refusal := whileRunning openNext s
def execMeterRemove (d : Desc) (s : State) : Host.Outcome State Fault Refusal := runCmd meterRemoveDef (.meterRemove d) d s

end Sys2Proof.Machine
end

