-- ==== Sys2Proof/Machine/Time.lean ====
section
/-!
DEFINITION. The TIME island: rates and slews of the bases, TB2's selection, step and holdover, the zone record, the leap
second and the latches (R224 to R227, R233 to R239, R241, R408).
-/

namespace Sys2Proof.Machine

/-! ### Domains and bases -/

/-- Domain A, or domain B. -/
def dom (s : State) (b : Bool) : Domain := if b then s.tim.domB else s.tim.domA

/-- A domain changed. -/
def modDom (b : Bool) (f : Domain → Domain) (s : State) : State :=
  s.onTim fun t => if b then { t with domB := f t.domB } else { t with domA := f t.domA }

/-- The base of a domain, in units. -/
def domBase (s : State) (b : Bool) : Nat := if b then s.tim.tb1 else s.tim.tb0

/-- A domain's code: 0 A, 1 B. -/
def domCode (b : Bool) : Nat := if b then 1 else 0

/-- Difference of a domain's base from TB2, in units. -/
def baseDiff (s : State) (b : Bool) : Int := (domBase s b : Int) - s.tim.tb2

/-- A difference in ns, toward zero. -/
def diffNs (d : Int) : Int := Int.tdiv d nsUnit

/-- The status of a base changed. -/
def modStat (n : Nat) (f : TbStat → TbStat) (s : State) : State :=
  s.onTim fun t => { t with stat := Tbl.upd t.stat n {} f }

/-- A base has stepped: counted, and vector 37 signalled though the count stands at 255 (R239). -/
def countStep (n : Nat) (s : State) : State :=
  let s1 := if 255 ≤ (tbStat s n).steps then signal 37 s else s
  modStat n (fun x => { x with steps := min 255 (x.steps + 1) }) s1

/-! ### Mean rates (R232, R233) -/

/-- Spans of the last 1,000 s with one more in front. -/
def keepSpans : Nat → List (Nat × Int) → List (Nat × Int)
  | _, [] => []
  | left, (n, r) :: rest => if left = 0 then [] else (min left n, r) :: keepSpans (left - min left n) rest

/-- A span is told. -/
def addSpan (n : Nat) (r : Int) (l : List (Nat × Int)) : List (Nat × Int) :=
  if n = 0 then l else keepSpans (1000 * nsPerS) ((n, r) :: l)

/-- The mean rate over the spans; the present rate where there is none. -/
def meanRate (now : Int) (l : List (Nat × Int)) : Int :=
  let total := (l.map Prod.fst).sum
  if total = 0 then now else (l.map fun x => (x.1 : Int) * x.2).sum / total

/-- The time a domain has spent in LOCKED at its present frequency is told. -/
def noteFreq (b : Bool) (s : State) : State :=
  modDom b (fun d =>
    { d with history := if d.state = .locked then addSpan (tb6 s - d.histAt) d.freq d.history else d.history
             histAt := tb6 s }) s

/-- The time TB2 has followed at its present rate is told. -/
def noteFollow (s : State) : State :=
  s.onTim fun t =>
    { t with follow := (match t.selected with
        | some b => addSpan (tb6 s - t.followAt) (dom s b).freq t.follow
        | none => t.follow)
             followAt := tb6 s }

/-! ### Status bits (R239) -/

/-- The status bits that follow from the state of the domains and of TB2; SLEWING rises here and falls at the end of the
slew. TB4 and TB5 hold a trusted value from a start with TB2 valid on, or once they have closed the difference from a TB2
made valid later (assumption log 10). -/
def refreshBits (s : State) : State :=
  let one (n : Nat) (b : Bool) (s : State) : State :=
    modStat n (fun x => { x with
      valid := (dom s b).state = .locked || (dom s b).state = .holdover
      following := (dom s b).state = .locked
      holdover := (dom s b).state = .holdover }) s
  let v := tb2Valid s
  let f := s.tim.selected.isSome
  let two (n base : Nat) (differs : Bool) (s : State) : State :=
    modStat n (fun x => { x with
      valid := if n = 2 then x.valid else x.valid || (v && base == s.tim.tb2)
      following := f
      holdover := v && !f
      slewing := x.slewing || differs }) s
  let away : Bool := match s.tim.selected with | some b => baseDiff s b != 0 | none => false
  two 5 s.tim.tb5 (v && s.tim.tb5 != s.tim.tb2) (two 4 s.tim.tb4 (v && s.tim.tb4 != s.tim.tb2)
    (two 2 s.tim.tb2 away (one 1 true (one 0 false s))))

/-! ### Events (R241) -/

/-- A time event of a kind, at most once per minute. -/
def timeEvent (code notice prio : Nat) (data : Bytes) (source : Nat) (ndata : Bytes) (s : State) : State :=
  limited (limitKey code 0) nsMin (report code kDevice 0 data notice prio source ndata) s

/-- A clockIdentity as its octet string. -/
def idBytes (w : DWord) : Bytes := be 8 w.toNat

/-- The code of a domain state (table Domain block). -/
def domStateCode : DomState → Nat
  | .disabled => 0
  | .listening => 1
  | .acquiring => 2
  | .locked => 3
  | .holdover => 4

/-- The port a domain uses: its primary, or the alternate (R229). -/
def portInUse (d : Domain) : Nat := if d.cfg.getLsbD 2 == d.alt then 0 else 1

/-- A domain changes state; entering and leaving LOCKED are told, and HOLDOVER takes the mean frequency (R232, R241). -/
def setDomState (b : Bool) (new : DomState) (s : State) : State :=
  let d := dom s b
  if d.state = new then s
  else
    let s1 := noteFreq b s
    let s2 := modDom b (fun d =>
      { d with state := new, good := 0, bad := 0
               freq := if new = .holdover then meanRate d.freq d.history else d.freq }) s1
    if new = .locked then
      timeEvent 0x2010 0x0B01 3
        (le 1 (domCode b) ++ le 1 (portInUse d) ++ zeros 2 ++ idBytes d.gmId ++ le 1 (bits d.cfg 8 8)) (domCode b) (idBytes d.gmId) s2
    else if d.state = .locked then
      timeEvent 0x2011 0x0B01 2 (le 1 (domCode b) ++ le 1 (domStateCode new) ++ zeros 2 ++ idBytes d.gmId) (domCode b) (idBytes d.gmId) s2
    else s2

/-! ### TB2: step, selection, holdover (R233, R234) -/

/-- STEP_THRESHOLD in units. -/
def stepLimit (s : State) : Int := (s.tim.stepThreshold.toNat : Int) * 1000 * nsUnit

/-- A domain is usable (R233). -/
def usableDom (s : State) (b : Bool) : Bool := decide ((baseDiff s b).natAbs ≤ (stepLimit s).natAbs)

/-- The domains SELECT admits, in order of preference. -/
def allowedDoms (s : State) : List Bool :=
  match bits s.tim.select 0 2 with
  | 0 => [false, true]
  | 1 => [false]
  | 2 => [true]
  | _ => []

/-- The admitted domains that are LOCKED. -/
def lockedDoms (s : State) : List Bool := (allowedDoms s).filter fun b => decide ((dom s b).state = .locked)

/-- TB2's present uncertainty in ns; 0 while following (R233). -/
def uncertainty (s : State) : Nat :=
  if s.tim.selected.isSome then 0
  else s.tim.uncert + (tb6 s - s.tim.holdSince) * s.tim.holdPpb.toNat / nsPerS

/-- The size of a TB3 step from one reading to another, in legal seconds, a part of a second counted as one. -/
def stepSize (a b : Nat) : Nat := ceilDiv (max a b - min a b) nsPerS

/-- Marks that TB3 has reached are created before it steps (R175, R188). -/
def issueReached (s : State) : State :=
  match s.tim.zone with
  | none => s
  | some z => if marksMayRise s then markUpTo z (tb2s s) (markFuel s) (startPlans s) else s

/-- TB2 steps by an amount and is valid from then on; TB3 steps with it. A step that makes them valid leaves the marks it
passes to the start-up (R187, R188, R234). -/
def stepTb2 (delta : Int) (cause : Nat) (s0 : State) : State :=
  let s := issueReached s0
  let old := s.tim.tb2
  let new := ((old : Int) + delta).toNat
  let s1 := modStat 2 (fun x => { x with valid := true }) (countStep 2 (s.onTim fun t => { t with tb2 := new }))
  let s2 := if s.tim.zone.isSome then countStep 3 s1 else s1
  let s3 := report 0x2016 kDevice 0 (le 12 (stamp96 old) ++ le 12 (stamp96 new)) 0x0B05 1 cause
    (le 8 (unsigned 8 (saturate 8 (diffNs ((new : Int) - old))))) s2
  match s.tim.zone with
  | some z =>
    if tb3Valid s then
      let a := legalNs z (old / nsUnit)
      let b := legalNs z (new / nsUnit)
      stepTb3 (old / nsUnit) (new / nsUnit) (stepSize a b) (decide (new < old)) a b s3
    else s3
  | none => s3

/-- The one step of a start: at the first LOCKED domain, where TB2 was invalid or too far off (R234 case 1). -/
def firstStep (s : State) : State :=
  if s.tim.stepped then s
  else
    match lockedDoms s with
    | [] => s
    | b :: _ =>
      let s1 := s.onTim fun t => { t with stepped := true }
      if ¬ tb2Valid s ∨ ¬ usableDom s b then stepTb2 (baseDiff s b) 0 s1 else s1

/-- The code of a selection: 0 domain A, 1 domain B, 2 holdover. -/
def selCode : Option Bool → Nat
  | some b => domCode b
  | none => 2

/-- TB2 turns to another domain, or to holdover at its mean rate with its uncertainty growing from zero (R233). -/
def turnTo (pick : Option Bool) (s : State) : State :=
  let s1 := noteFollow s
  let diff := match pick with | some b => diffNs (baseDiff s b) | none => 0
  let s2 := s1.onTim fun t =>
    { t with selected := pick
             rate := if pick.isNone then meanRate t.rate t.follow else t.rate
             uncert := if pick.isNone then 0 else t.uncert
             holdSince := if pick.isNone then tb6 s else t.holdSince }
  timeEvent 0x2012 0x0B02 2 (le 1 (selCode s.tim.selected) ++ le 1 (selCode pick) ++ zeros 2 ++ le 8 (unsigned 8 diff))
    (selCode pick) (le 8 (unsigned 8 diff)) s2

/-- A LOCKED domain that is not usable is told, whatever SELECT admits, at most once per hour (R234). -/
def sayDisagree (s : State) : State :=
  match [false, true].find? fun b => decide ((dom s b).state = .locked) && !usableDom s b with
  | none => s
  | some b =>
    let diff := le 8 (unsigned 8 (diffNs (baseDiff s b)))
    limited (limitKey 0x2015 0) nsHour
      (report 0x2015 kDevice 0 (le 1 (domCode b) ++ zeros 3 ++ diff ++ le 4 s.tim.stepThreshold.toNat) 0x0B03 1 (domCode b) diff) s

/-- The domain TB2 follows is judged again: the step of a start, the first admitted domain that is LOCKED and usable, else
holdover (R233, R234). -/
def reselect (s : State) : State :=
  let s1 := firstStep s
  let pick := if tb2Valid s1 then (lockedDoms s1).find? (usableDom s1) else none
  let s2 := if pick = s1.tim.selected then s1 else turnTo pick s1
  refreshBits (if tb2Valid s2 then sayDisagree s2 else s2)

/-- SELECT. -/
def writeTimeSelect (v : Word) (s : State) : State := reselect (s.onTim fun t => { t with select := v &&& 3#32 })

/-- TB2's holdover uncertainty is above HOLD_LIMIT (R233, R241). -/
def holdoverLimit (s : State) : State :=
  let u := uncertainty s
  guarded (tb2Valid s && decide (s.tim.holdLimit.toNat * 1000 < u))
    (timeEvent 0x2013 0x0B04 1 (le 8 u ++ le 4 s.tim.holdLimit.toNat) 0 (le 8 u)) s

/-- The slew of a base ends once it has closed its difference (R226, R233). -/
def slewEnd (n : Nat) (s : State) : State :=
  let done : Bool := match n with
    | 2 => match s.tim.selected with | some b => baseDiff s b == 0 | none => true
    | 4 => s.tim.tb4 == s.tim.tb2
    | 5 => s.tim.tb5 == s.tim.tb2
    | _ => false
  guarded done (fun s => refreshBits (modStat n (fun x => { x with slewing := false }) s)) s

/-! ### One cycle (R225, R226, R233) -/

/-- A difference closed by at most an amount. -/
def closeBy (most : Nat) (diff : Int) : Int := max (-(most : Int)) (min most diff)

/-- A base after one 4 ns cycle at a rate in 0.001 ppb, with a slew. -/
def advance (base : Nat) (rate slew : Int) : Nat := ((base : Int) + 4 * nsUnit + 4 * rate + slew).toNat

/-- TB2's rate without slew. -/
def tb2Rate (s : State) : Int := match s.tim.selected with | some b => (dom s b).freq | none => s.tim.rate

/-- One cycle of the TIME clock: every base advances; TB2 closes its difference from the selected base by at most 1 µs/s,
TB4 and TB5 theirs from TB2 by at most 0.1 µs/s. -/
def tick (t : TimeUnit) (s : State) : TimeUnit :=
  let r := tb2Rate s
  let slew : Int := match s.tim.selected with | some b => closeBy 4000000 (baseDiff s b) | none => 0
  let toward (b : Nat) : Int := if tb2Valid s then closeBy 400000 ((s.tim.tb2 : Int) - b) else 0
  { t with tb0 := advance t.tb0 t.domA.freq 0, tb1 := advance t.tb1 t.domB.freq 0, tb2 := advance t.tb2 r slew
           tb4 := advance t.tb4 r (toward t.tb4), tb5 := advance t.tb5 r (toward t.tb5)
           tb6 := t.tb6 + 4 * nsUnit, tb7 := t.tb7 + 4 * nsUnit }

/-! ### The zone record and the leap second (R235 to R237) -/

/-- A DST rule as its six bytes spell it. -/
def dstRule (b : Bytes) (off : Nat) : Nat × Nat × Nat × Nat := (field b off 1, field b (off + 1) 1, field b (off + 2) 1, field b (off + 4) 2)

/-- A zone record as ZONE_READ returns it: its reserved bytes read as zero (R6, table Zone record). -/
def zoneBytes (b : Bytes) : Bytes := [17, 21, 27, 30, 31].foldl (fun x i => patch x i (zeros 1)) (slice b 0 32)

/-- A zone record as its 32 bytes spell it. -/
def zoneOf (b : Bytes) : Zone :=
  { id := BitVec.ofNat 32 (field b 0 4), tai := field b 4 2, taiAfter := field b 6 2
    leap := field b 8 6, std := fieldS b 14 2, dst := field b 16 1, start := dstRule b 18, end_ := dstRule b 24, bytes := zoneBytes b }

/-- A DST rule is in range. -/
def dstRuleOk (r : Nat × Nat × Nat × Nat) : Bool :=
  decide (1 ≤ r.1) && decide (r.1 ≤ 12) && decide (1 ≤ r.2.1) && decide (r.2.1 ≤ 5) && decide (1 ≤ r.2.2.1) && decide (r.2.2.1 ≤ 7)
    && decide (r.2.2.2 < 1440)

/-- A zone record's fields are in range and its leap instant is a UTC midnight; with no leap announced both values of TAI−UTC are
equal (R236). -/
def zoneOk (b : Bytes) : Bool :=
  let z := zoneOf b
  decide (-720 ≤ z.std) && decide (z.std ≤ 840) && decide (z.dst ≤ 120) && dstRuleOk z.start && dstRuleOk z.end_
    && (if z.leap = 0 then z.taiAfter == z.tai else ((z.leap : Int) - z.taiAfter) % 86400 == 0)

/-- A zone record takes effect: measured, recorded, and TB3 stepped where present legal time differs (R236, R237, R257). -/
def useZone (b : Bytes) (s0 : State) : State :=
  let s := issueReached s0
  let z := zoneOf b
  let was := tb3Valid s
  let now := tb2 s
  let a := tb3 s
  let c := legalNs z now
  let step : Int := if was then (c / nsPerS : Nat) - ((a / nsPerS : Nat) : Int) else 0
  let prev := match s.tim.zone with | some y => y.id.toNat | none => 0
  let s1 := s.onTim fun t => { t with zone := some z, leapDone := decide (z.leap = 0 ∨ (tb2Valid s ∧ z.leap ≤ tb2s s)) }
  let s2 := modStat 3 (fun x => { x with leap := z.leap != 0 && !(tb2Valid s && decide (z.leap ≤ tb2s s)) }) s1
  let s2 := match s.tim.zone with
    | some y => s2.onTar fun t => { t with plans := Tbl.mapVals t.plans fun _ p => refloor y z p }
    | none => s2
  let s3 := yew 0x2017 kDevice 0 (le 4 z.id.toNat ++ le 4 prev ++ le 8 (unsigned 8 step)) (extend 4 b s2)
  if was ∧ a ≠ c then stepTb3 now now (stepSize a c) (decide (c < a)) a c (countStep 3 s3) else s3

def zoneLoadDef : CmdDef :=
  { opcode := 0x0701, role := fun _ => .secur
    lenOk := fun _ _ n => n == 32
    args := fun _ c => orFail (zoneOk c.payload) stBadArgument
    objects := fun _ _ => [(8, 2 ^ 17)]
    act := fun c s => mirrorCmd 5 (recordItem 2 c.payload) c [] (useZone c.payload) s }

/-- The announced leap second passes (R235, R241). -/
def leapSecond (s : State) : State :=
  match s.tim.zone with
  | none => s
  | some z =>
    guarded (tb2Valid s && !s.tim.leapDone && z.leap != 0 && decide (z.leap ≤ tb2s s))
      (fun s => timeEvent 0x2018 0x0B06 3 (le 2 z.tai ++ le 2 z.taiAfter ++ zeros 2 ++ le 6 z.leap) 0 (le 2 z.taiAfter)
        (modStat 3 (fun x => { x with leap := false }) (s.onTim fun t => { t with leapDone := true }))) s

/-! ### TIME_STEP and ZONE_READ (R234, R408) -/

/-- The domain a mode of TIME_STEP names. -/
def stepDom (mode : Nat) : Bool := mode == 2

def timeStepDef : CmdDef :=
  { opcode := 0x0702, role := fun _ => .secur
    args := fun _ c => orFail (decide (c.arg 0 1 ≤ 2) && (c.arg 0 1 != 0 || c.arg 4 8 != 0)) stBadArgument
    state := fun s c =>
      if c.arg 0 1 = 0 then orFail (tb2Valid s) stStateConflict
      else orFail (decide ((dom s (stepDom (c.arg 0 1))).state = .locked)) stStateConflict
    objects := fun _ _ => [(8, 2 ^ 17)]
    act := fun c s =>
      let mode := c.arg 0 1
      let delta : Int := if mode = 0 then signed 8 (c.arg 4 8) * nsUnit else baseDiff s (stepDom mode)
      let s1 := if mode ≠ 0 ∧ ¬ tb2Valid s then s.onTim fun t => { t with stepped := true } else s
      let s2 := reselect (stepTb2 delta 1 s1)
      (.result (le 1 (tbStat s2 2).steps), s2) }

def zoneReadDef : CmdDef :=
  { tokenRead 0x0703 (fun s _ => match s.tim.zone with | some z => z.bytes | none => []) with
    state := fun s _ => orFail s.tim.zone.isSome stStateConflict }

/-! ### The latches (R224, R239) -/

/-- The 96-bit value of a base. TB3 keeps TB2's fraction, but for the held second of an inserted leap second. -/
def baseStamp (s : State) (n : Nat) : Nat :=
  match n with
  | 0 => stamp96 s.tim.tb0
  | 1 => stamp96 s.tim.tb1
  | 2 => stamp96 s.tim.tb2
  | 3 =>
    match s.tim.zone with
    | none => 0
    | some z =>
      let held := legalNs z (tb2 s) == legalNs z (tb2 s + 1)
      stamp96 (legalNs z (tb2 s) * nsUnit + if held then 0 else s.tim.tb2 % nsUnit)
  | 4 => stamp96 s.tim.tb4
  | 5 => stamp96 s.tim.tb5
  | 6 => stamp96 s.tim.tb6
  | _ => stamp96 s.tim.tb7

/-- A read of word 0 latches all 96 bits and returns the lowest 32. -/
def latchRead (n : Nat) (s : State) : State :=
  let v := BitVec.ofNat 96 (baseStamp s n)
  guarded (decide (n < 8)) (fun s => emit (.read (le 4 v.toNat)) (modStat n (fun x => { x with latch := v }) s)) s

/-! ### The meanings -/

def execZoneLoad (d : Desc) (s : State) : Host.Outcome State Fault Refusal := runCmd zoneLoadDef (.zoneLoad d) d s
def execTimeStep (d : Desc) (s : State) : Host.Outcome State Fault Refusal := runCmd timeStepDef (.timeStep d) d s
def execZoneRead (d : Desc) (s : State) : Host.Outcome State Fault Refusal := runCmd zoneReadDef (.zoneRead d) d s
def execTbLatchRead (n : Nat) (s : State) : Host.Outcome State Fault Refusal := whileRunning (latchRead n) s
def execSelectWrite (v : Word) (s : State) : Host.Outcome State Fault Refusal := whileRunning (writeTimeSelect v) s
def execLeapSecond (s : State) : Host.Outcome State Fault Refusal := whileRunning leapSecond s
def execTb2HoldoverLimit (s : State) : Host.Outcome State Fault Refusal := whileRunning holdoverLimit s
def execSlewEnd (n : Nat) (s : State) : Host.Outcome State Fault Refusal := whileRunning (slewEnd n) s

end Sys2Proof.Machine
end

