-- ==== Sys2Proof/Machine/Pair.lean ====
section
/-!
DEFINITION. The pleached pair: forming and dissolving it, heartbeats, the witness and the downlink token, and what becomes
of a mirrored item on either device (R291 to R307).
-/

namespace Sys2Proof.Machine

/-! ### Link keys (R292) -/

/-- A link key: first 16 B of SHAKE256("KHZORYEN" ‖ x ‖ sender ‖ receiver). -/
def linkKey (x : Bytes) (sender receiver : Word) : Bytes :=
  Config.shake 16 (ascii "KHZORYEN" ++ x ++ le 4 sender.toNat ++ le 4 receiver.toNat)

/-- A derived key enters the lowest free host slot, with its record of TRANSPORT_ESTABLISHED; the slot is answered. -/
def putLinkKey (use : Nat) (bytes : Bytes) (s : State) : Nat × State :=
  let n := (freeHostSlot s).getD 0
  let k : Key := { use, alg := 1, origin := 2, factory := false, label := 0, key := bytes, pub := [], created := createdNow s }
  (n, yew 0x3005 kDevice 0 (le 2 n ++ checkValue bytes) (putKey n k s))

/-- The keys of a link to a peer whose public key is given: an ENCRYPT key for sending, a DECRYPT key for receiving. -/
def linkKeys (keySlot : Nat) (peer : Word) (pub : Bytes) (s : State) : (Nat × Nat) × State :=
  let x := match keyAt s keySlot with | some k => Config.ecdh k.key pub | none => []
  let (a, s1) := putLinkKey 1 (linkKey x s.dev.deviceId peer) s
  let (b, s2) := putLinkKey 2 (linkKey x peer s.dev.deviceId) s1
  ((a, b), s2)

/-- Key slots emptied. -/
def dropKeys (l : List Nat) (s : State) : State :=
  onKeys (fun keys => l.foldl (fun t n => Tbl.del t n) keys) s

/-- The key slots of the pair record in force. -/
def pairKeys (s : State) : List Nat :=
  match s.pair.record with
  | some r => [r.keys.1, r.keys.2.1, r.keys.2.2.1, r.keys.2.2.2]
  | none => []

/-- The key slots of the witness table in force. -/
def witnessKeys (s : State) : List Nat :=
  s.pair.witnessed.flatMap fun w => [w.slots.1.1, w.slots.1.2, w.slots.2.1, w.slots.2.2]

/-- Host slots free once some are emptied. -/
def freeHostSlots (s : State) (freed : List Nat) : Nat :=
  ((List.range 1008).filter fun i => (keyAt s (i + 16)).isNone || decide (i + 16 ∈ freed)).length

/-! ### Mirrored items in use (R304) -/

/-- The link configuration of a slot's connection as an item spells it: UNANCHORED until its meter is heard (R136). -/
def mirroredConn (s : State) (item : Bytes) : Conn :=
  let n := field item 0 4
  let p := brParamsOf (slice item 12 44)
  let net := match conn s n with
    | some c => c.net
    | none => ((s.lane.chans.find? fun q => q.2.act.macType == 2).map fun q => q.2.act.netId).getD 0
  { slot := n, net, aw := BitVec.ofNat 32 (field item 4 4), state := .unanchored, params := p, ppm := (Tbl.get s.br.heardPpm n).getD 500, n0 := field item 56 4,
    a0 := tb5 s, open_ := false, stored := field item 56 4, superviseAt := tb6 s + p.timeout * nsMs, win := none, lastCopy := none,
    txSeq := 0#16, lc := none, plan := (netPlan s net).getD 0, update := none, terminating := none, down := [], sentNow := false, restore := none, resp := none }

/-- A record of a running connection with other parameters is an update the partner is about to send: the old and the new are both tried
until a frame tells which holds, and one with the same parameters ends it (R134, R137, R304; DESIGN CHOICE, assumption log 58). -/
def mirroredUpdate (p : BrParams) (c : Conn) : Conn :=
  { c with update := if p = c.params then none
      else some { params := p, instant := c.stored, acked := false, both := true,
                  isMap := p.interval == c.params.interval && p.timeout == c.params.timeout, ready := true, attempts := 1 } }

/-- A connection record acknowledged by the partner: CONNECT_RESP goes out where its instant can still be met, an update may
be sent (R137, R304). -/
def connAcked (n : Nat) (s : State) : State :=
  match conn s n with
  | none => s
  | some c =>
    let s1 := modConn n (fun x => { x with resp := none, update := x.update.map fun u => { u with ready := true } }) s
    match c.resp with
    | none => s1
    | some (lc, launch, f) =>
      let k := (chan s1 lc).act
      match brSend .response lc launch k.rdvMode f false s1 with
      | some t => t
      | none =>
        if canSend s1 lc ∧ dwellRefuses .response lc k.rdvMode f s1 then dwellNotice k k.centre (countStat lc sbSuppressed 1 s1) else s1

/-- The routes an item's 65,536 rows spell. -/
def routesOf (b : Bytes) : Tbl Route :=
  (List.range 65536).filterMap fun a =>
    let r := slice b (4 * a) 4
    let f := field r 3 1
    if f / 2 % 2 = 0 then none
    else some (a, { parent := if f / 4 % 2 = 1 then none else some (field r 0 2), level := field r 2 1, relay := f % 2 == 1 })

/-- A kind 3 item on the partner: a tone map, a route version, or the beacon number base. -/
def useLinkItem (item : Bytes) (s : State) : State :=
  let net := field item 2 2
  let x := field item 4 2
  if field item 0 1 = 0 then
    modNeigh net x (fun y => { y with tx := some (mapOfBytes (tb6 s) (slice item 8 12)) }) (openNeigh net x s)
  else if field item 0 1 = 1 then
    modNet net (fun h => { h with next := some (routesOf (item.drop 12), field item 8 4), unacked := [] }) s
  else
    let s1 := adoptRoutes net (modNet net (fun h => { h with beacon := field item 8 4 }) s)
    modNet net (fun h => { h with beacon := h.beacon + 1, lastBeacon := nsOf (field item 12 12) }) s1

/-- A generation staged for a slot, with its blob where the key is imported (R249). -/
def stageNow (n g : Nat) (blob : Bytes) (s : State) : State :=
  cacheDrop n <| modSlot n (fun x => { x with staged := some g, stagedBlob := if x.imported then some blob else none }) s

/-- The slots of a key plan that GENERATION_STAGE_PLAN stages: derived, nothing staged, a generation left (R249, R409). -/
def stageable (s : State) (plan : Nat) : List Nat :=
  (s.met.slots.filter fun p => p.2.state != .empty && !p.2.imported && p.2.keyPlan == plan && p.2.staged.isNone
    && p.2.gen != 0xFFFF).map Prod.fst

/-- GENERATION_STAGED is recorded (R249). -/
def stagedEvent (n g : Nat) (s : State) : State := yew 0x3024 kSlot n (le 2 g) s

/-- Every slot of a key plan is staged to its next generation. -/
def stagePlan (plan : Nat) (s : State) : State :=
  (stageable s plan).foldl (fun t n => stagedEvent n ((slot t n).gen + 1) (stageNow n ((slot t n).gen + 1) [] t)) s

/-- A kind 6 item: a generation staged or promoted, per slot or plan. -/
def useGeneration (own : Bool) (item : Bytes) (s : State) : State :=
  let n := field item 0 4
  let g := field item 6 2
  if n = 0xFFFFFFFF then stagePlan (field item 4 1) s
  else if (slot s n).state = .empty then s
  else if field item 5 1 = 0 then (if (slot s n).staged = some g then s else stagedEvent n g (stageNow n g (slice item 8 80) s))
  else if own ∨ (slot s n).gen = g then s
  else promote n g s

/-- A kind 5 item: a switch list, rule calendar or zone record takes its place as if it had been loaded here. -/
def useRecord (item : Bytes) (s : State) : State :=
  let b := item.drop 4
  if field item 0 1 = 0 then useList b s else if field item 0 1 = 1 then useCalendar b s else useZone b s

/-- A mirrored item is used: by the device that sent it, or by its partner (table Mirrored items). -/
def useItem (own : Bool) (kind : Nat) (item : Bytes) (s : State) : State :=
  if kind = 1 then
    let s1 := icReserved (field item 0 4) (field item 4 2) (field item 8 4) own s
    if own then dlPump (field item 0 4) s1 else s1
  else if kind = 2 then dlUse own item s
  else if kind = 3 then (if own then s else useLinkItem item s)
  else if kind = 4 then
    if own then connAcked (field item 0 4) s
    else match conn s (field item 0 4) with
      | some c =>
        if c.aw = BitVec.ofNat 32 (field item 4 4) then modConn c.slot (mirroredUpdate (brParamsOf (slice item 12 44))) s
        else s.onBr fun b => { b with conns := Tbl.put b.conns (field item 0 4) (mirroredConn s item) }
      | none => s.onBr fun b => { b with conns := Tbl.put b.conns (field item 0 4) (mirroredConn s item) }
  else if kind = 5 then useRecord item s
  else if kind = 6 then useGeneration own item s
  else s

/-- An item leaves the queue and is used, unless it has been, and the command that waits for it completes. -/
def takeItem (m : MirrorItem) (s : State) : State := finishMirrored m (if m.used then s else useItem true m.kind m.item s)

/-- Items not acknowledged are committed and used in PARTNER_LOST; they stay in the queue to be sent again (R304). -/
def useWaiting (s : State) : State :=
  let l := s.pair.mirror.filter fun m => !m.used
  let s1 := s.onPair fun p => { p with mirror := p.mirror.map fun m => { m with used := true, command := none } }
  l.foldl (fun t m => takeItem m (commit t)) s1

/-! ### Forming and dissolving (R291, R292) -/

/-- The fields of a pair record are good (R291). -/
def pairRecordOk (s : State) (b : Bytes) : Bool :=
  field b 0 4 != 0 && field b 4 4 != s.dev.deviceId.toNat && field b 20 4 != s.dev.deviceId.toNat
    && Config.p384Valid (slice b 40 97) && Config.p384Valid (slice b 137 97)

/-- The pair as a record leaves it: PAIRING, the token with no one; the term goes on for a pair of the same ID. -/
def pairWith (r : PairRec) (p : Pair) : Pair :=
  let same := match p.record with | some o => o.id == r.id | none => false
  { p with
    record := some r
    state := .pairing
    term := if same then p.term else 0
    holder := false
    fenced := false
    holdUntil := none
    grant := none
    partnerHeard := none
    witnessHeard := none
    holderHeard := none
    witnessSilent := false
    mirror := if same then p.mirror else []
    mirrorSeq := if same then p.mirrorSeq else 0
    mirrorIn := if same then p.mirrorIn else 0
    incoming := none
    agreed := []
    resync := none
    resynced := [] }

/-- A pair record is loaded, with its keys derived. -/
def configure (keySlot : Nat) (b : Bytes) (s : State) : State :=
  let partner : Word := BitVec.ofNat 32 (field b 4 4)
  let witness : Word := BitVec.ofNat 32 (field b 20 4)
  let (p, s1) := linkKeys keySlot partner (slice b 40 97) (dropKeys (pairKeys s) (useWaiting s))
  let (w, s2) := linkKeys keySlot witness (slice b 137 97) s1
  let r : PairRec :=
    { id := BitVec.ofNat 32 (field b 0 4), partner, witness, first := field b 36 1 % 2 == 1, keys := (p.1, p.2, w.1, w.2), bytes := b }
  stopTransmitting (s2.onPair (pairWith r))

def pairConfigureDef : CmdDef :=
  { opcode := 0x0C01, role := fun _ => .secur
    lenOk := fun _ _ n => n == 240
    args := fun s c => slotInRange (c.arg 0 2) (orFail (pairRecordOk s c.payload) stBadArgument)
    state := fun s c => orFail (s.dev.deviceId != 0#32 && isDeriveKey (keyAt s (c.arg 0 2))) stStateConflict
    res := fun s _ => orFail (decide (4 ≤ freeHostSlots s (pairKeys s))) stInternal
    objects := fun _ c => [(11, 0), (4, c.arg 0 2)]
    act := fun c s => (.result [], configure (c.arg 0 2) c.payload s) }

/-- The device is ALONE again and may speak; commands that waited for a partner complete. -/
def dissolve (s : State) : State :=
  let s1 := dropKeys (pairKeys s) (useWaiting s)
  dlPumpAll (s1.onPair fun p =>
    { record := none, discard := p.discard, sent := p.sent, accepted := p.accepted, witnessed := p.witnessed,
      oldTerms := p.oldTerms, beat := p.beat, drain := p.drain })

def pairDissolveDef : CmdDef :=
  { opcode := 0x0C02, role := fun _ => .secur
    state := fun s _ => orFail s.pair.record.isSome stStateConflict
    objects := fun _ _ => [(11, 0)]
    act := fun _ s => (.result [], dissolve s) }

/-- The code of a pair state (R413). -/
def pairStateCode : PairState → Nat
  | .alone => 0
  | .pairing => 1
  | .resync => 2
  | .paired => 3
  | .partnerLost => 4

def pairStatusDef : CmdDef :=
  inlineRead 0x0C03 fun s _ =>
    le 1 (pairStateCode s.pair.state) ++ le 1 (flag 0 s.pair.holder) ++ zeros 2 ++ le 4 s.pair.term
      ++ le 4 (match s.pair.record with | some r => r.partner.toNat | none => 0) ++ le 4 s.pair.mirror.length

/-! ### The witness table (R303, R413) -/

/-- The entries of a witness table payload. -/
def witnessEntries (b : Bytes) : List Bytes := (List.range (b.length / 232)).map fun i => slice b (232 * i) 232

/-- Keys decode and no ID is repeated: pair IDs over the table, device IDs within an entry. -/
def witnessOk (b : Bytes) : Bool :=
  let l := witnessEntries b
  l.all (fun e => Config.p384Valid (slice e 36 97) && Config.p384Valid (slice e 133 97) && field e 4 4 != field e 8 4)
    && decide (l.map fun e => field e 0 4).Nodup

/-- An entry joins the table with its keys, resuming a term known of its pair. -/
def witnessEntry (keySlot : Nat) (old : List Witnessed) (s : State) (e : Bytes) : State :=
  let id : Word := BitVec.ofNat 32 (field e 0 4)
  let d1 : Word := BitVec.ofNat 32 (field e 4 4)
  let d2 : Word := BitVec.ofNat 32 (field e 8 4)
  let (a, s1) := linkKeys keySlot d1 (slice e 36 97) s
  let (b, s2) := linkKeys keySlot d2 (slice e 133 97) s1
  let was := old.find? fun w => w.id == id
  let term := match was with | some w => w.term | none => Tbl.getD s.pair.oldTerms id.toNat 0
  let holder := match was with | some w => (if w.devs = (d1, d2) then w.holder else none) | none => none
  s2.onPair fun p =>
    { p with witnessed := p.witnessed ++ [{ id, devs := (d1, d2), term, holder, heard := (0, 0), slots := (a, b), bytes := e }] }

/-- The table is replaced; terms of pairs dropped from it stay. -/
def loadWitness (keySlot : Nat) (b : Bytes) (s : State) : State :=
  let old := s.pair.witnessed
  let s1 := (dropKeys (witnessKeys s) s).onPair fun p =>
    { p with witnessed := [], oldTerms := old.foldl (fun t w => Tbl.put t w.id.toNat w.term) p.oldTerms }
  (witnessEntries b).foldl (witnessEntry keySlot old) s1

def witnessTableLoadDef : CmdDef :=
  { opcode := 0x0C04, role := fun _ => .secur
    lenOk := fun _ _ n => n % 232 == 0 && decide (n ≤ 3712)
    args := fun _ c => slotInRange (c.arg 0 2) (orFail (witnessOk c.payload) stBadArgument)
    state := fun s c => orFail (c.payload.isEmpty || isDeriveKey (keyAt s (c.arg 0 2))) stStateConflict
    res := fun s c =>
      orFail (decide (4 * (witnessEntries c.payload).length ≤ freeHostSlots s (witnessKeys s))) stInternal
    objects := fun _ c => [(8, 11), (4, c.arg 0 2)]
    act := fun c s => (.result [], loadWitness (c.arg 0 2) c.payload s) }

/-! ### Heartbeats and silence (R299) -/

/-- 20 ms: a party not heard for so long is silent. -/
def silence : Nat := 20 * nsMs

/-- Nothing has been heard for 20 ms. -/
def silentSince (s : State) (t : Option Nat) : Bool :=
  match t with
  | some x => decide (x + silence ≤ tb6 s)
  | none => true

/-- The holder flag a device of a pair sends: 1 it holds the token, 2 its partner does, 0 neither (assumption log 16). -/
def ownFlag (s : State) : Nat :=
  if s.pair.holder then 1 else if s.pair.grant.isNone && !silentSince s s.pair.holderHeard then 2 else 0

/-- The holder flag toward the other end of a link: a receiver is told 2 when the sender knows it to be the holder. -/
def flagFor (s : State) (l : Link) : Nat :=
  match l.witness with
  | some (i, _) =>
    match s.pair.witnessed[i]? with
    | some w => if w.holder = some l.peer then 2 else 0
    | none => 0
  | none =>
    match s.pair.record with
    | some r => if l.peer = r.partner then ownFlag s else if s.pair.holder then 1 else 0
    | none => 0

/-- The body of a heartbeat on a link. -/
def heartbeatBody (s : State) (l : Link) : Bytes :=
  le 1 (if l.witness.isSome then 0 else pairStateCode s.pair.state) ++ le 1 (flagFor s l) ++ zeros 2
    ++ le 12 (stamp96 s.tim.tb2) ++ le 8 (if l.witness.isSome then 0 else s.pair.mirrorIn) ++ zeros 8

/-- ZORYEN_HEARTBEAT_TX: every 1 ms of TB6, to each other party, on both ports (R299). -/
def heartbeatTx (s : State) : State :=
  if links s = [] ∨ tb6 s < s.pair.beat + nsMs then s
  else
    (links s).foldl (fun t l => (portsUp s).foldl (fun u p => zSendOn [p] l zHeartbeat (heartbeatBody u l) u) t)
      (s.onPair fun p => { p with beat := tb6 s })

/-! ### Resynchronisation begins (R308) -/

/-- Shards HELD. -/
def heldShards (s : State) : List Nat := (s.met.shards.filter fun p => p.2.state == .held).map Prod.fst

/-- H("KHHWV" ‖ the 4,096 high-water ASNs of a shard). -/
def vectorHash (s : State) (k : Nat) : Hash :=
  Config.hash (ascii "KHHWV" ++ (List.range 4096).flatMap fun i => le 8 (slot s (k * 4096 + i)).asn)

/-- RESYNC_REQ for a shard. -/
def resyncReq (k : Nat) (s : State) : State := zToPartner zResyncReq (le 1 k ++ zeros 3 ++ hashBytes (vectorHash s k)) s

/-- PAIRED once every HELD shard agrees. -/
def judgePaired (s : State) : State :=
  if s.pair.state = .resync ∧ (heldShards s).all fun k => decide (k ∈ s.pair.agreed) then
    report 0x7005 kDevice 0 [] 0x0E04 2 0 [] (s.onPair fun p => { p with state := .paired, resync := none, resynced := [] })
  else s

/-- RESYNC: unacknowledged items go again and each HELD shard is asked about. -/
def startResync (s : State) : State :=
  let s1 := s.onPair fun p => { p with state := .resync, agreed := [], resync := none, resynced := [] }
  judgePaired ((heldShards s1).foldl (fun t k => resyncReq k t) (s1.pair.mirror.foldl (fun t m => sendMirror m t) s1))

/-! ### What a heartbeat tells (R292, R299, R301) -/

/-- The holder is named at its term: it speaks again if it had been fenced. -/
def namedHolder (s : State) : State :=
  let s1 := s.onPair fun p => { p with namedAt := tb6 s, fenced := false }
  if s.pair.fenced then dlPumpAll s1 else s1

/-- An authenticated heartbeat: of the partner, of the witness, or of a device witnessed. -/
def heartbeat (m : ZMsg) (s : State) : State :=
  let f := field m.body 1 1
  match m.link.witness with
  | some (i, _) =>
    s.onPair fun p => { p with witnessed := p.witnessed.modify i fun w =>
      if f = 1 ∧ m.term = w.term ∧ w.holder = none then { w with holder := some m.sender } else w }
  | none =>
    let s1 := if f = 2 ∧ m.term = s.pair.term ∧ s.pair.holder then namedHolder s else s
    match s.pair.record with
    | none => s1
    | some r =>
      if m.sender = r.partner then
        let s2 := s1.onPair fun p =>
          { p with partnerHeard := some (tb6 s), holderHeard := if f = 1 then some (tb6 s) else p.holderHeard }
        if s2.pair.state = .pairing ∨ s2.pair.state = .partnerLost then startResync s2 else s2
      else s1.onPair fun p => { p with witnessSilent := false }

/-- PARTNER_LOST: the partner's heartbeats have stopped for 20 ms (table Pair states). -/
def partnerLost (s : State) : State :=
  guarded ((s.pair.state == .paired || s.pair.state == .resync) && silentSince s s.pair.partnerHeard)
    (fun t => useWaiting (report 0x7001 kDevice 0 [] 0x0E01 0 0 []
      (t.onPair fun p => { p with state := .partnerLost, agreed := [], resync := none, resynced := [], incoming := none }))) s

/-- WITNESS_SILENT: the witness has said nothing for 20 ms (R303). -/
def witnessQuiet (s : State) : State :=
  guarded (s.pair.record.isSome && !s.pair.witnessSilent && silentSince s s.pair.witnessHeard && decide (silence ≤ tb6 s))
    (fun t => report 0x7004 kDevice 0 [] 0x0E03 1 0 [] (t.onPair fun p => { p with witnessSilent := true })) s

/-! ### The token (R300 to R302) -/

/-- The frame comes from the witness of the device's own pair. -/
def fromWitness (s : State) (m : ZMsg) : Bool :=
  m.link.witness.isNone && match s.pair.record with | some r => m.sender == r.witness | none => false

/-- TOKEN_GRANT: a grant at the highest term, naming this device, stands until it can take the token. -/
def tokenGrant (m : ZMsg) (s : State) : State :=
  let t := field m.body 0 4
  if ¬ fromWitness s m ∨ t < s.pair.term then s
  else
    let s1 := learnTerm t s
    if field m.body 4 4 = s1.dev.deviceId.toNat ∧ ¬ s1.pair.holder then s1.onPair fun p => { p with grant := some t } else s1

/-- TOKEN_TAKE: the grantee has heard no heartbeat of the holder for 20 ms; each slot starts past the highest block
reserved (R302, R305). -/
def tokenTake (s : State) : State :=
  guarded (s.pair.grant.isSome && silentSince s s.pair.holderHeard)
    (fun t =>
      let s1 := t.onPair fun p => { p with holder := true, fenced := false, grant := none, holdUntil := some (tb6 t + 5 * nsMs), namedAt := tb6 t }
      let s2 := s1.onMet fun m => { m with slots := Tbl.mapVals m.slots fun _ x => { x with icNext := icBlockNext x * 65536 } }
      report 0x7002 kDevice 0 (le 4 t.pair.term) 0x0E02 1 0 (le 4 t.pair.term) (commit s2)) s

/-- TOKEN_HOLD_END: 5 ms on, the device transmits as holder and resumes what is pending (R302, R306, R343). -/
def tokenHoldEnd (s : State) : State :=
  guarded (match s.pair.holdUntil with | some t => decide (t ≤ tb6 s) | none => false)
    (fun t =>
      let s1 := dlResume (t.onPair fun p => { p with holdUntil := none })
      (s1.dl.campaigns.map Prod.fst).foldl (fun u c => campResume c u) s1) s

/-- HOLDER_FENCE: not named holder for 10 ms, it stops transmitting (R301). -/
def holderFence (s : State) : State :=
  guarded (s.pair.holder && !s.pair.fenced && decide (s.pair.namedAt + 10 * nsMs ≤ tb6 s))
    (fun t => stopTransmitting (t.onPair fun p => { p with fenced := true })) s

/-! ### As witness (R302, R303) -/

/-- A device has been heard within 20 ms. -/
def fresh (s : State) (t : Nat) : Bool := t != 0 && decide (tb6 s < t + silence)

/-- The device to grant to: the one of the two that does not hold, when the holder is silent and it is not. For a first grant
the witness does not know which device has FIRST_HOLDER set: either may be the one (assumption log 16). -/
def grantee (s : State) (w : Witnessed) : Option Word :=
  match w.holder with
  | none =>
    let second := Config.openNat s.free % 2 == 1
    if fresh s (if second then w.heard.2 else w.heard.1) then some (if second then w.devs.2 else w.devs.1) else none
  | some h =>
    if h = w.devs.1 then (if ¬ fresh s w.heard.1 ∧ silence ≤ tb6 s ∧ fresh s w.heard.2 then some w.devs.2 else none)
    else if ¬ fresh s w.heard.2 ∧ silence ≤ tb6 s ∧ fresh s w.heard.1 then some w.devs.1 else none

/-- WITNESS_GRANT: the term rises by one, is committed, and the grant leaves (R302, R303). -/
def witnessGrant (pair : Nat) (s : State) : State :=
  match (s.pair.witnessed.zip (List.range 16)).find? fun p => p.1.id.toNat == pair with
  | none => s
  | some (w, i) =>
    match grantee s w with
    | none => s
    | some d =>
      if w.term = 2 ^ 32 - 1 then s
      else
        let s1 := commit ((if w.holder.isNone then s.draw else s).onPair fun p =>
          { p with witnessed := p.witnessed.modify i fun w => { w with term := w.term + 1, holder := some d } })
        match (witnessLinks s1).find? fun l => l.pair == w.id && l.peer == d with
        | some l => zSend l zGrant (le 4 (w.term + 1) ++ le 4 d.toNat) s1
        | none => s1

/-! ### Mirror messages (R298, R304) -/

/-- Pieces of a length have all arrived, in steps of 8,192 B. -/
def arrived (a : Arriving) : Bool := (List.range (max 1 (ceilDiv a.len 8192))).all fun i => (Tbl.get a.pieces (8192 * i)).isSome

/-- The bytes of the pieces, in order. -/
def assembled (a : Arriving) : Bytes := (a.pieces.flatMap Prod.snd).take a.len

/-- What has arrived of an item, with a piece more. -/
def withPiece (old : Option Arriving) (seq kind len off : Nat) (piece : Bytes) : Arriving :=
  let base : Arriving := match old with
    | some a => if a.seq = seq ∧ a.kind = kind then a else { seq, kind, len, pieces := [] }
    | none => { seq, kind, len, pieces := [] }
  { base with pieces := Tbl.put base.pieces off piece }

/-- MIRROR: the next item in order is applied and acknowledged once every fragment is there, and an item applied before is
acknowledged again; one past a gap waits to be sent again (R298, R304; DESIGN CHOICE, assumption log 40). -/
def mirrorMessage (m : ZMsg) (s : State) : State :=
  if ¬ fromPartner s m then s
  else
    let seq := field m.body 0 8
    let ack (t : State) : State := zToPartner zAck (le 8 seq) t
    if seq ≤ s.pair.mirrorIn then ack s
    else if s.pair.mirrorIn + 1 < seq then s
    else
      let a := withPiece s.pair.incoming seq (field m.body 8 1) (field m.body 12 4) (field m.body 16 4) (m.body.drop 20)
      if ¬ arrived a then s.onPair fun p => { p with incoming := some a }
      else
        ack (commit (useItem false a.kind (assembled a) (s.onPair fun p => { p with incoming := none, mirrorIn := seq })))

/-- MIRROR_ACK: the item is used and its command completes. -/
def mirrorAck (m : ZMsg) (s : State) : State :=
  if ¬ fromPartner s m then s
  else
    match s.pair.mirror.find? fun x => x.seq == field m.body 0 8 with
    | none => s
    | some x => takeItem x (s.onPair fun p => { p with mirror := p.mirror.filter fun y => y.seq != x.seq })

/-! ### Staging a generation (R249, R409) -/

/-- The blob of an imported slot's next generation unwraps; no key is asked for in a transparent shard (R161, R248). -/
def stageBlobOk (s : State) (n g : Nat) (blob : Bytes) : Bool :=
  !(slot s n).imported || (blobFits blob (slot s n).suite g && (bare s (shardOf n) || (meterBlob s blob (slot s n).title).isSome))

/-- The item of a generation staged. -/
def stageItem (s : State) (n g : Nat) (blob : Bytes) : Bytes :=
  le 4 n ++ le 1 (slot s n).keyPlan ++ le 1 0 ++ le 2 g ++ (if (slot s n).imported then slice blob 0 80 else [])

def generationStageDef : CmdDef :=
  { opcode := 0x080A, role := fun _ => .oper
    lenOk := fun s d n => if (slot s (inl d 0 4 % 2 ^ 20)).imported then n == 80 else n == 0
    args := fun s c =>
      slotExists s c (orElse (decide ((slot s c.slotArg).gen < 0xFFFF) && (!(slot s c.slotArg).imported || decide (blobSlot c.payload < 1024)))
          stOutOfRange
        (orElse (!(slot s c.slotArg).imported || !blobMisuse s c.payload) stIgnored
          (orFail (stageBlobOk s c.slotArg ((slot s c.slotArg).gen + 1) c.payload) stBadArgument)))
    state := fun s c => orFail (inUse s c.slotArg && (slot s c.slotArg).staged.isNone) stStateConflict
    failed := fun c st s => if st = stIgnored then keyMisuse (blobSlot c.payload) s else s
    objects := fun _ c => slotObject c
    act := fun c s =>
      let n := c.slotArg
      let g := (slot s n).gen + 1
      mirrorCmd 6 (stageItem s n g c.payload) c [] (fun t => stagedEvent n g (stageNow n g c.payload t)) s }

def generationStagePlanDef : CmdDef :=
  { opcode := 0x080B, role := fun _ => .oper
    state := fun s c => orFail (masterOf s (c.arg 0 1)).isSome stStateConflict
    act := fun c s =>
      mirrorCmd 6 (le 4 0xFFFFFFFF ++ le 1 (c.arg 0 1) ++ le 1 0 ++ le 2 0) c (le 4 (stageable s (c.arg 0 1)).length)
        (stagePlan (c.arg 0 1)) s }

/-! ### Ingest over Ethernet (R26, R294) -/

/-- ETHERNET_INGEST: in core role a whole RAW_FRAME record with a correct CRC is taken; any other is dropped. -/
def ethernetIngest (r : Bytes) (s : State) : State :=
  match ingestRecords 1 r with
  | some [x] =>
    if ¬ s.dev.core then s
    else if mayTake (intakeSize x) s then takeRaw 3 x s
    else refuseTake 1 (latchRefusal (intakeSize x) s)
  | _ => s

/-! ### The meanings -/

def execPairConfigure (d : Desc) (s : State) : Host.Outcome State Fault Refusal := runCmd pairConfigureDef (.pairConfigure d) d s
def execPairDissolve (d : Desc) (s : State) : Host.Outcome State Fault Refusal := runCmd pairDissolveDef (.pairDissolve d) d s
def execPairStatus (d : Desc) (s : State) : Host.Outcome State Fault Refusal := runCmd pairStatusDef (.pairStatus d) d s
def execWitnessTableLoad (d : Desc) (s : State) : Host.Outcome State Fault Refusal := runCmd witnessTableLoadDef (.witnessTableLoad d) d s
def execGenerationStage (d : Desc) (s : State) : Host.Outcome State Fault Refusal := runCmd generationStageDef (.generationStage d) d s
def execGenerationStagePlan (d : Desc) (s : State) : Host.Outcome State Fault Refusal := runCmd generationStagePlanDef (.generationStagePlan d) d s
def execZoryenHeartbeatTx (s : State) : Host.Outcome State Fault Refusal := whileRunning heartbeatTx s
def execZoryenHeartbeat (z : ZorRx) (s : State) : Host.Outcome State Fault Refusal := whileRunning (zReceive zHeartbeat z heartbeat) s
def execTokenGrant (z : ZorRx) (s : State) : Host.Outcome State Fault Refusal := whileRunning (zReceive zGrant z tokenGrant) s
def execTokenTake (s : State) : Host.Outcome State Fault Refusal := whileRunning tokenTake s
def execTokenHoldEnd (s : State) : Host.Outcome State Fault Refusal := whileRunning tokenHoldEnd s
def execHolderFence (s : State) : Host.Outcome State Fault Refusal := whileRunning holderFence s
def execWitnessGrant (pair : Nat) (s : State) : Host.Outcome State Fault Refusal := whileRunning (witnessGrant pair) s
def execPartnerLost (s : State) : Host.Outcome State Fault Refusal := whileRunning partnerLost s
def execWitnessSilent (s : State) : Host.Outcome State Fault Refusal := whileRunning witnessQuiet s
def execZoryenMirror (z : ZorRx) (s : State) : Host.Outcome State Fault Refusal := whileRunning (zReceive zMirror z mirrorMessage) s
def execZoryenMirrorAck (z : ZorRx) (s : State) : Host.Outcome State Fault Refusal := whileRunning (zReceive zAck z mirrorAck) s
def execEthernetIngest (r : Bytes) (s : State) : Host.Outcome State Fault Refusal := whileRunning (ethernetIngest r) s

end Sys2Proof.Machine
end

