-- ==== Sys2Proof/Machine/Cluster.lean ====
section
/-!
DEFINITION. Shard parts, resynchronisation by parts, and the migration of a shard (R308 to R315, R413).
-/

namespace Sys2Proof.Machine

/-! ### What a part's areas spell that the manual gives no layout for (assumption log 15) -/

/-- The connection a link area spells. Free. -/
opaque decodeConn : Bytes → Option Conn

/-- The key blob an imported slot brings in its link area: in force, or staged (true). Free. -/
opaque decodeBlob : Bytes → Bool → Option Bytes

/-- The tariff totals at a slot's last PERIOD_END, as its hot state implies them. Free. -/
opaque decodeTotals : Bytes → Tbl Nat

/-! ### The configuration digest (R311) -/

/-- A plan record as its 32 bytes (R167). -/
def planBytes (n : Nat) (p : Plan) : Bytes :=
  le 1 n ++ le 1 p.d ++ le 1 (flag 0 p.sliding) ++ le 1 p.s ++ le 1 p.rule ++ le 1 p.day ++ le 2 p.minute ++ le 2 p.n ++ le 2 p.grace
    ++ le 2 p.shift ++ zeros 2 ++ le 8 p.anchor ++ zeros 8

/-- An ID, or zero for none. -/
def idOrZero (i : Option Word) : Bytes := le 4 (match i with | some w => w.toNat | none => 0)

/-- H("KHCFG" ‖ plan records, list IDs, calendar IDs and the zone ID, in plan order). -/
def configDigest (s : State) : Hash :=
  Config.hash (ascii "KHCFG" ++ (s.tar.plans.flatMap fun p =>
    planBytes p.1 p.2.plan ++ idOrZero (p.2.active.map fun l => l.id) ++ idOrZero (p.2.passive.map fun l => l.id)
      ++ idOrZero (p.2.calendar.map fun c => c.id) ++ idOrZero (p.2.nextCalendar.map fun c => c.id))
    ++ idOrZero (s.tim.zone.map fun z => z.id))

/-! ### A part (R311) -/

/-- The size of a part. -/
def partSize : Nat := 4261952

/-- The closed, unsealed determinant of a slot as 256 B, or zeros. -/
def slotDet (s : State) (n : Nat) : Bytes :=
  match s.tar.store.find? fun d => d.slot == n with
  | some d => slice (determinantBytes d) 0 256
  | none => zeros 256

/-- The last boundary mark the slots rolled past: due instant and kind. -/
def lastMark (s : State) : Bytes :=
  match s.tar.marks.getLast? with
  | some m => stampNs m.due ++ le 1 m.kind
  | none => zeros 13

/-- A part of a shard, its CRC taken with the CRC field zero. -/
def partBytes (s : State) (k p : Nat) : Bytes :=
  let head := le 1 1 ++ le 1 p ++ zeros 2 ++ le 4 s.dev.deviceId.toNat ++ le 1 k ++ zeros 1 ++ le 2 (shard s k).epoch ++ lastMark s ++ zeros 3
  let first := k * 4096 + p * 256
  let rest := hashBytes (configDigest s) ++ ((List.range 256).flatMap fun i => le 8 (slot s (first + i)).asn)
    ++ (List.range 256).flatMap fun i => slice (hotState s (first + i)) 0 16384 ++ slotDet s (first + i)
  head ++ le 4 (crc32c (head ++ zeros 4 ++ rest)).toNat ++ rest

/-! ### Loading a part (R313) -/

/-- The part is one: its size, format and number, and its CRC. -/
def partCrcOk (b : Bytes) : Bool :=
  b.length == partSize && field b 0 1 == 1 && decide (field b 1 1 < 16)
    && (crc32c (b.take 28 ++ zeros 4 ++ b.drop 32)).toNat == field b 28 4

/-- Hot state of slot i of a part. -/
def partHot (b : Bytes) (i : Nat) : Bytes := slice b (2112 + 16640 * i) 16384

/-- The slot of a part holds a meter. -/
def partUsed (b : Bytes) (i : Nat) : Bool := field (partHot b i) 0x14 1 != 0

/-- No EUI-64 or system title of the part is held in another slot than the one the part places it in. -/
def identitiesFree (s : State) (k : Nat) (b : Bytes) : Bool :=
  (List.range 256).all fun i =>
    let h := partHot b i
    let n := k * 4096 + field b 1 1 * 256 + i
    let own (x : Option Nat) : Bool := match x with | some m => m == n | none => true
    !partUsed b i || (own (slotByEui s (BitVec.ofNat 64 (field h 0 8))) && own (slotByTitle s (slice h 8 8)))

/-- The part fits this device's configuration and its meters their slots. -/
def partFits (s : State) (k : Nat) (b : Bytes) : Bool := slice b 32 32 == hashBytes (configDigest s) && identitiesFree s k b

/-- The order of marks of one instant (R176); a CLOCK_STEP stands before the marks its step causes. -/
def kindRank (kind : Nat) : Nat := if kind = mkClockStep then 0 else kind

/-- The device's highest boundary index at or before a part's last mark. -/
def rolledFor (s : State) (b : Bytes) : Nat :=
  let due := nsOf (field b 12 12)
  let rank := kindRank (field b 24 1)
  s.tar.marks.foldl (fun r m => if m.due < due ∨ (m.due = due ∧ kindRank m.kind ≤ rank) then max r m.index else r) 0

/-- Start and end of a period this device knows, TAI s. -/
def periodSpan (s : State) (period : Nat) : Nat × Nat :=
  match planAt s (period / 2 ^ 26) with
  | none => (0, 0)
  | some x =>
    let num := period % 2 ^ 26
    if x.period % 2 ^ 26 = num then (x.start, 0)
    else
      match (x.sealed_ ++ x.closing.map fun c => (c.1, c.2.2.1, c.2.2.2)).find? fun c => c.1 % 2 ^ 26 == num with
      | some c => (c.2.1, c.2.2)
      | none => (0, 0)

/-- A maximum demand as a determinant's six bytes spell it (R194). -/
def detMax (start : Nat) (x : Nat) : MaxDemand :=
  { w := x % 2 ^ 24, end_ := if x = 0 then 0 else start + x / 2 ^ 24 % 2 ^ 20 * 60, incomplete := x / 2 ^ 44 % 2 == 1,
    partial_ := x / 2 ^ 45 % 2 == 1, sliding := x / 2 ^ 46 % 2 == 1 }

/-- The determinant a part's 256 B spell; its closing totals come from the hot state's books (assumption log 15). -/
def detOf (s : State) (n : Nat) (b hot : Bytes) : Determinant :=
  let span := periodSpan s (field b 4 4)
  { slot := n, period := field b 4 4, start := span.1, end_ := span.2, e := tblOf 0 32 fun i => field b (32 + 4 * i) 4,
    totals := decodeTotals hot, maxima := tblOf {} 16 fun i => detMax span.1 (field b (160 + 6 * i) 6),
    flags := BitVec.ofNat 16 (field b 8 2), medium := field b 10 1, eui := BitVec.ofNat 64 (field b 12 8), firstAsn := field b 20 6,
    lastAsn := field b 26 6, adjust := [], hashed := false, enc := field b 11 1 % 4 }

/-- A slot of a part takes its place, with its determinant and its connection. -/
def loadSlot (k : Nat) (b : Bytes) (migrated : Bool) (rolled : Nat) (s : State) (i : Nat) : State :=
  let n := k * 4096 + field b 1 1 * 256 + i
  let hot := partHot b i
  let det := slice b (2112 + 16640 * i + 16384) 256
  let s1 := s.onTar fun t => { t with store := t.store.filter fun d => d.slot != n }
  if ¬ partUsed b i then cacheDrop n (s1.onMet fun m => { m with slots := Tbl.del m.slots n })
  else
    let old := slot s n
    let same := old.eui == BitVec.ofNat 64 (field hot 0 8)
    let link := slice hot 0x800 256
    let capture := match Tbl.get s.met.layouts (field hot 0x1B 1) with | some l => l.capture | none => 0
    let blob := if field hot 0x17 1 = 0 then none else if same then old.blob else decodeBlob link false
    let staged := if field hot 0x17 1 = 0 then none else if same then old.stagedBlob else decodeBlob link true
    let x0 := slotOfBytes hot capture (periodSpan s (field hot 0x108 4)).1 (decodeTotals hot) blob staged
    let x : Slot :=
      { x0 with
        bill := { x0.bill with rolled }
        icNext := icBlockNext x0 * 65536
        handover := if migrated then field b (64 + 8 * i) 8 else old.handover }
    let s2 := cacheDrop n (keepBare n (s1.onMet fun m => { m with slots := Tbl.put m.slots n x }))
    let s3 := if allZero det then s2 else s2.onTar fun t => { t with store := t.store ++ [detOf s n det hot] }
    s3.onBr fun br => { br with conns := match decodeConn link with
      | some c => Tbl.put br.conns n { c with slot := n, state := .unanchored }
      | none => Tbl.del br.conns n }

/-- A part is loaded into a shard: its slots, directory entries and hot state become those of the part. -/
def loadPart (k : Nat) (b : Bytes) (migrated : Bool) (s : State) : State :=
  commit (syncDirectory ((List.range 256).foldl (loadSlot k b migrated (rolledFor s b)) s))

/-! ### Resynchronisation (R308) -/

/-- The parts of a shard go to the partner in fragments of 8,192 B, each slot rolled past every mark first. -/
def sendParts (k : Nat) (s : State) : State :=
  let s1 := rollAll (slotsIn s k) s
  (List.range 16).foldl (fun t p =>
    let b := partBytes s1 k p
    (List.range (ceilDiv partSize 8192)).foldl
      (fun u i => zToPartner zResyncData (le 1 k ++ le 1 p ++ zeros 2 ++ le 4 (8192 * i) ++ (b.drop (8192 * i)).take 8192) u) t) s1

/-- RESYNC_REQ: the shard is in step when the hashes agree; otherwise the device with the greater sum sends its parts. -/
def resyncReqMessage (m : ZMsg) (s : State) : State :=
  let k := field m.body 0 1
  let h : Hash := BitVec.ofNat 256 (field m.body 4 32)
  if ¬ fromPartner s m ∨ (shard s k).state ≠ .held then s
  else if h = vectorHash s k then judgePaired (s.onPair fun p => { p with agreed := (k :: p.agreed).dedup })
  else if Config.sumGreater k h then sendParts k s else s

/-- Every part of a shard has been loaded: its past is no longer exported from here, and it is in step. -/
def resyncLoaded (k : Nat) (s : State) : State :=
  let s1 := s.onMet fun m => { m with records := m.records.filter fun r =>
    !(r.shard == some k && decide ((ring s r.ring).erWritten < r.seq || r.seq = 0)) }
  judgePaired (resyncReq k (s1.onPair fun p =>
    { p with agreed := (k :: p.agreed).dedup, resynced := p.resynced.filter fun x => x.1 != k }))

/-- RESYNC_DATA: a part of a HELD shard is loaded when its last fragment has arrived and R313 admits it. -/
def resyncDataMessage (m : ZMsg) (s : State) : State :=
  let k := field m.body 0 1
  let p := field m.body 1 1
  if ¬ fromPartner s m ∨ (shard s k).state ≠ .held ∨ s.pair.state ≠ .resync then s
  else
    let a := withPiece s.pair.resync k p partSize (field m.body 4 4) (m.body.drop 8)
    if ¬ arrived a then s.onPair fun q => { q with resync := some a }
    else
      let s1 := s.onPair fun q => { q with resync := none }
      let b := assembled a
      if partCrcOk b ∧ field b 1 1 = p ∧ partFits s1 k b then
        let s2 := (loadPart k b false s1).onPair fun q => { q with resynced := ((k, p) :: q.resynced).dedup }
        if (List.range 16).all fun i => decide ((k, i) ∈ s2.pair.resynced) then resyncLoaded k s2 else s2
      else s1

/-! ### Migration (R310 to R315) -/

def migratePrepareDef : CmdDef :=
  { opcode := 0x0C05, role := fun _ => .oper
    args := fun s c => shardArg s c none
    state := fun s c => orFail (decide ((shard s (c.arg 0 1)).state = .unheld)) stStateConflict
    objects := fun _ c => shardObject c
    act := fun c s => (.result [], modShard (c.arg 0 1) (fun x => { x with state := .incoming, parts := [], drainEnd := 0 }) s) }

/-- A sealing of a plan of the shard's slots is in progress. -/
def shardSealing (s : State) (k : Nat) : Bool := (slotsIn s k).any fun n => sealingOf s (slot s n).plan

/-- Frames taken for slots of the shard and not yet opened. -/
def shardFrames (s : State) (k : Nat) : List Intake := s.prot.intake.filter fun e => (forwardSlot s e).map shardOf == some k

/-- Freezing: the frames taken are opened, every slot rolls past every mark, and the shard takes no more (R310). -/
def freeze (k : Nat) (s : State) : State :=
  let s1 := (shardFrames s k).foldl (fun t e => openAndFree e t) s
  judgePaired (modShard k (fun x => { x with state := .frozen }) (rollAll (slotsIn s1 k) s1))

def migrateFreezeDef : CmdDef :=
  { opcode := 0x0C06, role := fun _ => .oper
    args := fun s c => shardArg s c none
    state := fun s c => orFail (decide ((shard s (c.arg 0 1)).state = .held)) stStateConflict
    objects := fun _ c => shardObject c
    waits := fun s c =>
      (shard s (c.arg 0 1)).state == .held
        && (shardSealing s (c.arg 0 1) || (s.dev.devReady && !opens s && !(shardFrames s (c.arg 0 1)).isEmpty)
          || (shardFrames s (c.arg 0 1)).any fun e => !deliverable s e)
    act := fun c s => (.result [], freeze (c.arg 0 1) s) }

def migrateSnapshotDef : CmdDef :=
  { opcode := 0x0C07, role := fun _ => .oper
    args := fun s c => shardArg s c (orFail (decide (c.arg 1 1 < 16)) stOutOfRange)
    state := fun s c => orFail (decide ((shard s (c.arg 0 1)).state = .frozen) && holdsToken s) stStateConflict
    objects := fun _ c => shardObject c
    act := fun c s =>
      (.result [], emit (.hostWrite (BitVec.ofNat 64 (c.arg 8 8)) (partBytes s (c.arg 0 1) (c.arg 1 1))) s) }

def migrateLoadDef : CmdDef :=
  { opcode := 0x0C08, role := fun _ => .oper
    lenOk := fun _ _ n => n == partSize
    args := fun s c => shardArg s c (orFail (partCrcOk c.payload) stBadArgument)
    state := fun s c =>
      orFail (decide ((shard s (c.arg 0 1)).state = .incoming) && partFits s (c.arg 0 1) c.payload) stStateConflict
    objects := fun _ c => shardObject c
    act := fun c s =>
      let k := c.arg 0 1
      (.result [], modShard k (fun x =>
        { x with parts := (field c.payload 1 1 :: x.parts).dedup, srcEpoch := field c.payload 10 2 }) (loadPart k c.payload true s)) }

/-- The 16 parts are loaded. -/
def allParts (s : State) (k : Nat) : Bool := (List.range 16).all fun i => decide (i ∈ (shard s k).parts)

/-- The shard is HELD at the epoch after the source's (R314). -/
def commitShard (k : Nat) (s : State) : State :=
  let e := nextEpoch (shard s k).srcEpoch
  report 0x7010 kShard k (le 2 e) 0x0E05 3 k (le 2 e) (modShard k (fun x => { x with state := .held, epoch := e, parts := [] }) s)

def migrateCommitDef : CmdDef :=
  { opcode := 0x0C09, role := fun _ => .signed
    lenOk := fun _ _ n => n == 4
    args := fun s c => shardArg s c none
    state := fun s c => orFail (decide ((shard s (c.arg 0 1)).state = .incoming) && allParts s (c.arg 0 1)) stStateConflict
    objects := fun _ c => shardObject c
    act := fun c s => (.result [], commitShard (c.arg 0 1) s) }

/-- A shard's slots and their unsealed determinants leave the device. -/
def clearShard (k : Nat) (s : State) : State :=
  let s1 := (slotsIn s k).foldl (fun t n => cacheDrop n (removeSlot n (dlSlotRemoved n t))) s
  s1.onTar fun t => { t with store := t.store.filter fun d => shardOf d.slot != k }

def migrateReleaseDef : CmdDef :=
  { opcode := 0x0C0A, role := fun _ => .oper
    args := fun s c => shardArg s c none
    state := fun s c => orFail (decide ((shard s (c.arg 0 1)).state = .frozen)) stStateConflict
    objects := fun _ c => shardObject c
    act := fun c s =>
      (.result [], (modShard (c.arg 0 1) (fun x => { x with state := .draining, drainEnd := tb7 s + s.pair.drain * nsMin }) s).onTar
        fun t => { t with store := t.store.filter fun d => shardOf d.slot != c.arg 0 1 }) }

/-- Abort: a FROZEN shard is HELD again, an INCOMING one UNHELD and empty; the epoch stays (R310). -/
def abortShard (k : Nat) (s : State) : State :=
  if (shard s k).state = .frozen then dlPumpAll (modShard k (fun x => { x with state := .held }) s)
  else modShard k (fun x => { x with state := .unheld, parts := [] }) (clearShard k s)

def migrateAbortDef : CmdDef :=
  { opcode := 0x0C0B, role := fun _ => .oper
    args := fun s c => shardArg s c none
    state := fun s c =>
      orFail (decide ((shard s (c.arg 0 1)).state = .frozen) || decide ((shard s (c.arg 0 1)).state = .incoming)) stStateConflict
    objects := fun _ c => shardObject c
    act := fun c s => (.result [], abortShard (c.arg 0 1) s) }

def drainWindowSetDef : CmdDef :=
  { opcode := 0x0C0C, role := fun _ => .oper
    args := fun _ c => orFail (decide (1 ≤ c.arg 0 1) && decide (c.arg 0 1 ≤ 60)) stOutOfRange
    objects := fun _ _ => [(8, 11)]
    act := fun c s => (.result [], s.onPair fun p => { p with drain := c.arg 0 1 }) }

/-- DRAIN_WINDOW_END: the shard is UNHELD and its frames are taken no more (R315). -/
def drainEnds (k : Nat) (s : State) : State :=
  guarded (decide ((shard s k).state = .draining) && decide ((shard s k).drainEnd ≤ tb7 s))
    (fun t => commit (modShard k (fun x => { x with state := .unheld }) (clearShard k t))) s

/-! ### The meanings -/

def execMigratePrepare (d : Desc) (s : State) : Host.Outcome State Fault Refusal := runCmd migratePrepareDef (.migratePrepare d) d s
def execMigrateFreeze (d : Desc) (s : State) : Host.Outcome State Fault Refusal := runCmd migrateFreezeDef (.migrateFreeze d) d s
def execMigrateSnapshot (d : Desc) (s : State) : Host.Outcome State Fault Refusal := runCmd migrateSnapshotDef (.migrateSnapshot d) d s
def execMigrateLoad (d : Desc) (s : State) : Host.Outcome State Fault Refusal := runCmd migrateLoadDef (.migrateLoad d) d s
def execMigrateCommit (d : Desc) (s : State) : Host.Outcome State Fault Refusal := runCmd migrateCommitDef (.migrateCommit d) d s
def execMigrateRelease (d : Desc) (s : State) : Host.Outcome State Fault Refusal := runCmd migrateReleaseDef (.migrateRelease d) d s
def execMigrateAbort (d : Desc) (s : State) : Host.Outcome State Fault Refusal := runCmd migrateAbortDef (.migrateAbort d) d s
def execDrainWindowSet (d : Desc) (s : State) : Host.Outcome State Fault Refusal := runCmd drainWindowSetDef (.drainWindowSet d) d s
def execDrainWindowEnd (k : Nat) (s : State) : Host.Outcome State Fault Refusal := whileRunning (drainEnds k) s
def execZoryenResyncReq (z : ZorRx) (s : State) : Host.Outcome State Fault Refusal := whileRunning (zReceive zResyncReq z resyncReqMessage) s
def execZoryenResyncData (z : ZorRx) (s : State) : Host.Outcome State Fault Refusal := whileRunning (zReceive zResyncData z resyncDataMessage) s

end Sys2Proof.Machine
end

