-- ==== Sys2Proof/Machine/Estimate.lean ====
section
/-!
DEFINITION. Estimation of gaps and the shape table (R159, R160).
-/

namespace Sys2Proof.Machine

/-- A record's span, in its ring or gone from it, shares time with the interval that ends at an instant. -/
def overlaps (capture e : Nat) (q : EndSeen) : Bool := decide (e - capture < q.end_) && decide (q.end_ - q.capture < e)

/-- Interval ends a slot is missing that have waited long enough: from the end of the first record it has had on, in rising order, each a
whole multiple of the capture period in legal time (R155); an interval with a record, held or gone from the ring, measured or estimated,
is not missing (R159, R160). -/
def missingEnds (z : Zone) (x : Slot) (capture wait now : Nat) : List Nat :=
  match least (x.valid.ends.map fun q => q.end_) with
  | none => []
  | some first =>
    let start := (roundEnd z capture (first * nsPerS)).1
    (((List.range ((now - wait - start) / max 1 capture + 1)).map fun i =>
        (roundEnd z capture ((start + i * capture + capture / 2) * nsPerS)).1).dedup).filter fun e =>
      decide (e + wait ≤ now) && !(x.valid.ends.any (overlaps capture e)) && decide (first ≤ e)

/-- The wait of one ESTIMATE rule, s (table Rule types). -/
def waitOf (r : Rule) : Nat := if r.a = 0 then 14400 else r.a.toNat

/-- The wait of a set's ESTIMATE rules: an interval's one estimate is made once the longest is over (assumption log 27). -/
def estimateWait (l : List Rule) : Nat := (l.map waitOf).foldl max 0

/-- The quantities a set's ESTIMATE rules name. -/
def estimatedQtys (l : List Rule) : List Nat := (l.flatMap ruleQtys).dedup

/-- The history days of a quantity: those of the first rule that names it. -/
def historyDays (l : List Rule) (q : Nat) : Nat := match l.find? fun r => decide (q ∈ ruleQtys r) with | some r => r.n | none => 1

/-- The first run of consecutive missing intervals; a leap second may part two ends by one second more (R235). -/
def firstRun (capture : Nat) : List Nat → List Nat
  | [] => []
  | e :: rest => rest.foldl (fun acc x =>
      if acc.getLast? = some (x - capture) ∨ acc.getLast? = some (x - capture - 1) then acc ++ [x] else acc) [e]

/-- The cumulative value kept for a quantity at an interval end. -/
def keptAt (v : Valid) (q end_ : Nat) : Option Int := (v.kept.find? fun k => k.1 == q && k.2.1 == end_).map fun k => k.2.2

/-- One unit more for the `left` largest remainders, ties to the earlier (R159). -/
def giveUnits : Nat → List (Nat × Nat) → List Nat
  | 0, l => l.map Prod.fst
  | k + 1, l =>
    let top := (l.map Prod.snd).foldl max 0
    if top = 0 then l.map Prod.fst
    else
      let i := (l.findIdx fun x => x.2 == top)
      giveUnits k (l.modify i fun x => (x.1 + 1, 0))

/-- Method 1: a difference distributed exactly over weights (R159). -/
def distribute (d : Nat) (w : List Nat) : List Nat :=
  let total := max 1 w.sum
  let parts := w.map fun x => (d * x / total, d * x % total)
  giveUnits (d - (parts.map Prod.fst).sum) parts

/-- The quantities a layout supplies. -/
def suppliedBy (l : Layout) : List Nat := ((l.cols.map fun c => quantityOf c.target).filter fun q => decide (q < 4)).dedup

/-- The estimated records of a run (R159, R160). -/
def estimateRun (z : Zone) (x : Slot) (l : Layout) (rules : List Rule) (run : List Nat) : List Interval :=
  let c := l.capture
  let qs := (estimatedQtys rules).filter fun q => decide (q ∈ suppliedBy l)
  let first := run.headD 0 - c
  let last := run.getLast?.getD 0
  let diff (q : Nat) : Option Nat :=
    match keptAt x.valid q first, keptAt x.valid q last with
    | some a, some b => if a ≤ b then some (b - a).toNat else none
    | _, _ => none
  let weights (q : Nat) : List Nat := run.map fun e => max 1 ((Tbl.getD x.valid.shape q []).getD (dayIndex z e c) 0)
  let bounded := !qs.isEmpty && qs.all fun q => (diff q).isSome
  let value (q : Nat) : List Nat :=
    if ¬ decide (q ∈ qs) then run.map fun _ => 0
    else if bounded then distribute ((diff q).getD 0) (weights q)
    else run.map fun e => shapeEstimate z x q e c
  let all := (List.range 4).map value
  (List.range run.length).map fun i =>
    let e := (all.map fun l => l.getD i 0)
    let sat := e.any fun y => decide (2 ^ 32 - 1 < y)
    { end_ := run.getD i 0
      flags := BitVec.ofNat 16 (x.medium % 4 * 256) ||| ifEstimated ||| (if sat then ifSaturated else 0#16)
      e := e.map fun y => min y (2 ^ 32 - 1), v := [0, 0, 0, 0], asn := x.asn, status := 0
      method := if bounded then 1 else 2, rules := ruleBit 11, capture := c, inDemand := false }

/-- The first run of a slot's missing intervals is estimated, exported without ACCEPTED, and reaches its groups (R159, R160,
R209). -/
def gapEstimate (n : Nat) (s : State) : State :=
  let x := slot s n
  let rules := estimateRules s n
  match s.tim.zone, Tbl.get s.met.layouts x.layout with
  | some z, some l =>
    if rules ≠ [] ∧ tb3Valid s ∧ x.state ≠ .empty ∧ ¬ l.isList ∧ 900 ≤ l.capture ∧ (shard s (shardOf n)).state = .held ∧ ownerRuns s n then
      let run := firstRun l.capture (missingEnds z x l.capture (estimateWait rules) (tb2s s))
      if run = [] then s
      else
        let recs := estimateRun z x l rules run
        let seen := recs.reverse.map fun r => ({ end_ := r.end_, capture := r.capture, measured := false, half := false } : EndSeen)
        let held (y : Slot) : Slot :=
          { y with ring := (recs.reverse ++ y.ring).take 256, valid := { y.valid with ends := seen ++ y.valid.ends } }
        let s1 := countSlot n 7 recs.length (modSlot n held s)
        let s2 := recs.foldl (fun t r => feedGroups n r t) s1
        let s3 := commit s2
        if exportsOpened s3 n then exportIntervals n (noFrame s3 n) recs s3 else s3
    else s
  | _, _ => s

/-- An exponential average with weight 1 ÷ N, half to even (assumption log 27). -/
def expAverage (n old new : Nat) : Nat := (halfEven ((old : Int) * (n - 1) + new) (max 1 n)).toNat

/-- The shape of a quantity after a legal day's measured values, by place in the day (R159). -/
def shapeAfter (n slots : Nat) (old : List Nat) (day : List (Nat × Nat)) : List Nat :=
  (List.range slots).map fun i =>
    match day.find? fun p => p.1 == i with
    | some p => if old = [] then p.2 else expAverage n (old.getD i 0) p.2
    | none => old.getD i 0

/-- One slot's shape table and daily means take in the legal day before today (R159). -/
def updateShape (z : Zone) (today : Nat) (l : Layout) (rules : List Rule) (x : Slot) : Slot :=
  let c := l.capture
  let per := 86400 / max 1 c
  let day := x.ring.filter fun r => r.method == 0 && legalS z (r.end_ - 1) / 86400 + 1 == today
  if day = [] then x
  else
    let v := (estimatedQtys rules).foldl (fun (v : Valid) q =>
      let days := historyDays rules q
      let values := day.map fun r => (dayIndex z r.end_ c, r.e.getD q 0)
      let old := Tbl.getD v.shape q []
      let w := shapeAfter days per old values
      let mean := if old = [] then (values.map Prod.snd).sum else expAverage days (Tbl.getD v.mean q 0) (values.map Prod.snd).sum
      { v with shape := Tbl.put v.shape q w, mean := Tbl.put v.mean q mean }) x.valid
    { x with valid := { v with shapeDay := today } }

/-- Once a legal day, the shape tables of the slots that estimate take in the day that has ended (R159). -/
def shapeTableUpdate (s : State) : State :=
  match s.tim.zone with
  | some z =>
    if tb3Valid s then
      let today := legalS z (tb2s s) / 86400
      (s.met.slots.map Prod.fst).foldl (fun t n =>
        match Tbl.get t.met.layouts (slot t n).layout with
        | some l =>
          if estimateRules t n ≠ [] ∧ 900 ≤ l.capture ∧ (slot t n).valid.shapeDay < today ∧ ownerRuns t n then
            modSlot n (updateShape z today l (estimateRules t n)) t
          else t
        | none => t) (s.onMet fun m => { m with shapeRun := tb6 s })
    else s
  | none => s

def execGapEstimate (n : Nat) (s : State) : Host.Outcome State Fault Refusal := whileRunning (gapEstimate n) s
def execShapeTableUpdate (s : State) : Host.Outcome State Fault Refusal := whileRunning shapeTableUpdate s

end Sys2Proof.Machine
end

