-- ==== Sys2Proof/Machine/Firmware.lean ====
section
/-!
DEFINITION. The device's own firmware: loading, verifying, activating, confirming and reverting an image (16, R412).
-/

namespace Sys2Proof.Machine

/-- The inactive slot. -/
def inactive (s : State) : Img := if s.fw.activeB then s.fw.a else s.fw.b

/-- The inactive slot's number, 0 for A and 1 for B. -/
def inactiveNo (s : State) : Nat := if s.fw.activeB then 0 else 1

/-- The inactive slot changed. -/
def modInactive (f : Img → Img) (s : State) : State :=
  s.onFw fun w => if w.activeB then { w with a := f w.a } else { w with b := f w.b }

/-- A slot is in TRIAL. -/
def inTrial (s : State) : Bool := s.fw.a.state == .trial || s.fw.b.state == .trial

/-- Blocks an image of a length arrives in (R331). -/
def Img.expected (m : Img) : Nat := ceilDiv m.length 4096

/-- The image as the slot holds it. -/
def Img.bytes (m : Img) : Bytes :=
  ((List.range m.expected).flatMap fun i => slice (Tbl.getD m.blocks i []) 0 4096).take m.length

/-- The bytes before the signature block (R328). -/
def Img.signed (m : Img) : Bytes := m.bytes.take (m.length - 2576)

/-- The signature block. -/
def Img.sigs (m : Img) : Bytes := m.bytes.drop (m.length - 2576)

/-- The components an image header lists: kind, offset, length and digest (table Image header). -/
def components (h : Bytes) : List (Nat × Nat × Nat × Bytes) :=
  (List.range (field h 5 1)).map fun i => (field h (32 + 28 * i) 1, field h (36 + 28 * i) 4, field h (40 + 28 * i) 4, slice h (44 + 28 * i) 16)

/-- A component entry's own fields, and its digest over the image (R328, R332); reserved bytes are ignored (R6). -/
def componentOk (m : Img) (c : Nat × Nat × Nat × Bytes) : Bool :=
  decide (1 ≤ c.1 ∧ c.1 ≤ 4) && c.2.1 % 4096 == 0 && decide (c.2.1 + c.2.2.1 ≤ m.signed.length)
    && c.2.2.2 == hashHead 16 (ascii "KHCOMP" ++ slice m.signed c.2.1 c.2.2.1)

/-- Magic, header fields and component digests (R328, R332); reserved bytes are ignored (R6). -/
def headerOk (m : Img) : Bool :=
  let h := m.signed
  let n := field h 5 1
  let kinds := (components h).map Prod.fst
  slice h 0 4 == ascii "KHIM" && field h 4 1 == 1 && decide (1 ≤ n ∧ n ≤ 4) && decide (field h 6 2 ≤ 63)
    && field h 8 4 == m.length && decide kinds.Nodup && decide (1 ∈ kinds) && decide (2 ∈ kinds)
    && (components h).all (componentOk m)

/-- The message the image signatures cover. -/
def imageMessage (m : Img) : Bytes := ascii "KHIMAGE" ++ hashBytes (Config.hash m.signed)

/-- The signature check: slot 4, and slot 5 when it holds a key (R329). -/
def signaturesOk (s : State) (m : Img) : Bool :=
  verifyUnder s 4 (imageMessage m) (slice m.sigs 8 1280)
    && ((Tbl.get s.vlt.keys 5).isNone || verifyUnder s 5 (imageMessage m) (slice m.sigs 1296 1280))

/-- Security version of the header. -/
def headerVersion (m : Img) : Nat := field m.signed 6 2

/-- Digests of components 2 to 4 by kind. -/
def digests (m : Img) : List (Nat × Bytes) :=
  ((components m.signed).filter fun c => decide (2 ≤ c.1)).map fun c => (c.1, c.2.2.2)

/-- A digest of a list of components. -/
def digestOf (l : List (Nat × Bytes)) (kind : Nat) : Option Bytes := (l.find? fun c => c.1 == kind).map Prod.snd

/-! ### Commands -/

/-- IMAGE_BEGIN (R331). -/
def imageBeginDef : CmdDef :=
  { opcode := 0x0B01, role := fun _ => .oper
    args := fun _ c => orFail (decide (4096 ≤ c.arg 0 4 ∧ c.arg 0 4 ≤ 33554432)) stOutOfRange
    state := fun s _ => orFail (!inTrial s) stStateConflict
    objects := fun s _ => [(9, inactiveNo s)]
    act := fun c s =>
      (.result [], yew 0x5001 kDevice 0 (le 1 (inactiveNo s) ++ zeros 3 ++ le 4 (c.arg 0 4))
        (modInactive (fun _ => { state := .loading, length := c.arg 0 4 }) s)) }

/-- A block is kept; the last one makes the slot LOADED (R331). -/
def putBlock (off : Nat) (b : Bytes) (m : Img) : Img :=
  let blocks := Tbl.put m.blocks (off / 4096) b
  { m with blocks, state := if m.expected ≤ blocks.length then .loaded else .loading }

/-- IMAGE_BLOCK (R331). -/
def imageBlockDef : CmdDef :=
  { opcode := 0x0B02, role := fun _ => .oper
    lenOk := fun s d n =>
      if (inactive s).state = .loading then blockLengthOk (inactive s).length (inl d 0 4) n else decide (1 ≤ n ∧ n ≤ 4096)
    args := fun s c =>
      orElse (c.arg 0 4 % 4096 == 0 && ((inactive s).state != .loading || decide (c.arg 0 4 < (inactive s).length))) stOutOfRange
        (orFail ((crc32c c.payload).toNat == c.arg 4 4) stBadArgument)
    state := fun s _ => orFail ((inactive s).state == .loading) stStateConflict
    objects := fun s _ => [(9, inactiveNo s)]
    act := fun c s => (.result [], modInactive (putBlock (c.arg 0 4) c.payload) s) }

/-- The code of a slot state (table Firmware commands). -/
def imgCode : ImgState → Nat
  | .empty => 0
  | .loading => 1
  | .loaded => 2
  | .verified => 3
  | .trial => 4
  | .confirmed => 5

/-- IMAGE_STATUS (R331, R412). -/
def imageStatusDef : CmdDef :=
  inlineRead 0x0B03 fun s _ =>
    le 1 (imgCode s.fw.a.state) ++ le 1 (imgCode s.fw.b.state) ++ le 1 (flag 0 s.fw.activeB) ++ le 1 s.fw.floor
      ++ le 2 s.fw.a.version ++ le 2 s.fw.b.version ++ le 4 (inactive s).blocks.length ++ le 4 (inactive s).expected

/-- The first check of IMAGE_VERIFY that fails (R332). -/
def imageCheck (s : State) (m : Img) : Option Nat :=
  orElse (headerOk m) stBadArgument
    (orElse (signaturesOk s m) stSignatureFailed (orFail (decide (s.fw.floor ≤ headerVersion m)) stOutOfRange))

/-- A passing verify: VERIFIED with its hash and version, a staged copy, MEAS2 (R332). -/
def verified (s : State) : State :=
  let m := inactive s
  let h := Config.hash m.signed
  let s1 := modInactive (fun x => { x with state := .verified, version := headerVersion m, hash := h }) s
  let s2 := s1.onFw fun w => { w with staged := some (digests m) }
  yew 0x5002 kDevice 0 (hashBytes h) (extend 2 (le 1 (inactiveNo s) ++ hashBytes h) s2)

/-- ROM recovery boots a verified image at once, in TRIAL, through an internal reset with CAUSE 6 (R387). -/
def recoveryBoot (s : State) : State :=
  match s.dev.phase with
  | .romRecovery _ =>
    ((modInactive (fun x => { x with state := .trial }) s).onFw fun w => { w with activeB := !w.activeB }).onDev fun d =>
      { d with phase := .inReset, bootDue := some 6 }
  | _ => s

/-- IMAGE_VERIFY (R332). -/
def imageVerifyDef : CmdDef :=
  { opcode := 0x0B04, role := fun _ => .oper
    state := fun s _ => orElse ((inactive s).state == .loaded) stStateConflict (imageCheck s (inactive s))
    failed := fun _ st s =>
      if (inactive s).state = .loaded ∧ s.dev.phase = .running then
        report 0x5003 kDevice 0 (le 1 (inactiveNo s) ++ zeros 1 ++ le 2 st) 0x0F01 1 0 (le 1 (inactiveNo s) ++ zeros 1 ++ le 2 st) s
      else s
    objects := fun s _ => [(9, inactiveNo s)]
    act := fun _ s => (.result [], recoveryBoot (verified s)) }

/-- The ports whose lane microcode is swapped. -/
def microcodePorts : List Nat := List.range 16

/-- The activation: the boot record, MEAS1, the running copy, the swaps that follow the pause (R333, R335). -/
def activateImage (s : State) : State :=
  let m := inactive s
  let n := inactiveNo s
  let staged := s.fw.staged.getD (digests m)
  let s1 := modInactive (fun x => { x with state := .trial }) s
  let s2 := extend 1 m.sigs (extend 1 m.signed s1)
  let s3 := s2.onFw fun w =>
    { w with activeB := !w.activeB, runningB := !w.activeB, trialAt := tb6 s, expired := false, staged := none, running := staged }
  let s4 := s3.onLane fun l =>
    { l with microcodeDue := if digestOf staged 3 = digestOf s.fw.running 3 ∨ digestOf staged 3 = none then l.microcodeDue else microcodePorts }
  let s5 := s4.onVlt fun v =>
    { v with swapDue := v.swapDue || (digestOf staged 4 != digestOf s.fw.running 4 && (digestOf staged 4).isSome) }
  let s6 := s5.onDev fun d => { d with ildinRel := BitVec.ofNat 32 (field m.signed 12 4) }
  report 0x5004 kDevice 0 (le 1 n ++ zeros 1 ++ le 2 m.version) 0x0F03 2 0 (le 1 n ++ zeros 1 ++ le 2 m.version) s6

/-- ACTIVATE (R333). -/
def activateDef : CmdDef :=
  { opcode := 0x0B05, role := fun _ => .signed
    state := fun s _ => orFail ((inactive s).state == .verified && !inTrial s) stStateConflict
    objects := fun _ _ => [(9, 0), (9, 1)]
    act := fun _ s => (.result [], activateImage s) }

/-- The trial may still be confirmed (R336, R337). -/
def confirmable (s : State) : Bool := inTrial s && decide (tb6 s < s.fw.trialAt + 600 * nsPerS)

/-- A slot in TRIAL becomes CONFIRMED. -/
def confirmImg (m : Img) : Img := if m.state = .trial then { m with state := .confirmed } else m

/-- CONFIRM (R336, R338). -/
def confirmDef : CmdDef :=
  { opcode := 0x0B06, role := fun _ => .oper
    state := fun s _ => orFail (confirmable s) stStateConflict
    objects := fun _ _ => [(9, 0), (9, 1)]
    act := fun _ s =>
      let v := (runningImg s).version
      let n := flag 0 s.fw.runningB
      (.result [], report 0x5005 kDevice 0 (le 1 n ++ zeros 1 ++ le 2 v) 0x0F03 3 0 (le 1 n ++ zeros 1 ++ le 2 v)
        (s.onFw fun w => { w with a := confirmImg w.a, b := confirmImg w.b, floor := max w.floor v, expired := false })) }

/-- IMAGE_ABORT (R330). -/
def imageAbortDef : CmdDef :=
  { opcode := 0x0B07, role := fun _ => .oper
    state := fun s _ => orFail ((inactive s).state == .loading) stStateConflict
    objects := fun s _ => [(9, inactiveNo s)]
    act := fun _ s => (.result [], modInactive (fun _ => {}) s) }

def execImageBegin (d : Desc) (s : State) : Host.Outcome State Fault Refusal := runCmd imageBeginDef (.imageBegin d) d s
def execImageBlock (d : Desc) (s : State) : Host.Outcome State Fault Refusal := runCmd imageBlockDef (.imageBlock d) d s
def execImageStatus (d : Desc) (s : State) : Host.Outcome State Fault Refusal := runCmd imageStatusDef (.imageStatus d) d s
def execImageVerify (d : Desc) (s : State) : Host.Outcome State Fault Refusal := runCmd imageVerifyDef (.imageVerify d) d s
def execActivate (d : Desc) (s : State) : Host.Outcome State Fault Refusal := runCmd activateDef (.activate d) d s
def execConfirm (d : Desc) (s : State) : Host.Outcome State Fault Refusal := runCmd confirmDef (.confirm d) d s
def execImageAbort (d : Desc) (s : State) : Host.Outcome State Fault Refusal := runCmd imageAbortDef (.imageAbort d) d s

/-! ### Events -/

/-- FW_TRIAL_EXPIRED: 600 s have passed without CONFIRM (R337). -/
def trialExpired (s : State) : State :=
  guarded (inTrial s && !s.fw.expired && decide (s.fw.trialAt + 600 * nsPerS ≤ tb6 s))
    (fun t => report 0x5006 kDevice 0 (le 1 (flag 0 t.fw.runningB)) 0x0F02 0 0 (le 1 (flag 0 t.fw.runningB))
      (t.onFw fun w => { w with expired := true })) s

def execFwTrialExpired (s : State) : Host.Outcome State Fault Refusal := whileRunning trialExpired s

/-- SECURITY_PROCESSOR_SWAP: at a point where Holly holds no locked sequence (R335). -/
def securitySwap (s : State) : State :=
  guarded (s.vlt.swapDue && !(s.pwr.owners.any fun p => p.2.who == 17 && p.2.locked))
    (fun t => t.onVlt fun v => { v with swapDue := false }) s

def execSecurityProcessorSwap (s : State) : Host.Outcome State Fault Refusal := whileRunning securitySwap s

end Sys2Proof.Machine
end

