-- ==== Sys2Proof/Machine/HostRegs.lean ====
section
/-!
DEFINITION. Rings, export writing, the result window, Privet and MSI-X as the host reaches them (R56, R57, R62 to R64, R71 to
R77). A row of a register takes the word the host writes; a value it may not hold is ignored as a whole (R60).
-/

namespace Sys2Proof.Machine

/-! ### Submission and completion rings (R62 to R64) -/

/-- An export ring is enabled: RING_CTRL and ER_CTRL. -/
def Ring.exports (r : Ring) : Bool := r.ringCtrl.getLsbD 1 && r.erCtrl.getLsbD 0

/-- A meaning that acts while the host can reach the rings: the device runs, or serves ROM recovery (R387, R432). -/
def whileReachable (f : State → State) (s : State) : Host.Outcome State Fault Refusal :=
  match s.dev.phase with
  | .running => .next (settle s (f s))
  | .romRecovery _ => .next (settle s (f s))
  | _ => .next s

/-- A ring number. -/
def ringExists (n : Nat) : Bool := decide (n < 16)

/-- SQ_TAIL (R62). -/
def writeSqTail (n : Nat) (v : Word) (s : State) : State :=
  guarded (ringExists n) (fun s => fetch n (modRing n (fun r => { r with sqTail := v.truncate 12 }) s)) s

/-- Held completions go out and fetching resumes. -/
def drainRing (n : Nat) (s : State) : State := fetch n (drainHeld n (ring s n).heldCq s)

/-- CQ_HEAD (R63). -/
def writeCqHead (n : Nat) (v : Word) (s : State) : State :=
  guarded (ringExists n) (fun s => drainRing n (modRing n (fun r => { r with cqHead := v.truncate 12 }) s)) s

/-- CQ_CTRL: ignored as a whole with CQ_ORDER above 6, or changed while the ring submits (R63, R64). Where the write index and the
phase stand after CQ_BASE or CQ_ORDER has changed the manual does not say: the model keeps both (DESIGN CHOICE, assumption log 74). -/
def writeCqCtrl (n : Nat) (v : Word) (s : State) : State :=
  let r := ring s n
  let ok := ringExists n && decide (bits v 0 4 ≤ 6) && (!r.submits || bits v 0 4 == bits r.cqCtrl 0 4)
  guarded ok (fun s => drainRing n (modRing n (fun x => { x with cqCtrl := v &&& 0xFFFFFF3F#32 }) s)) s

/-! ### Export rings (R74, R75) -/

/-- An export ring that has just become enabled writes again from its cursor + 1 (R75); the manual states it after a reset of the
HOST island, and the model does the same for a ring disabled and enabled again (DESIGN CHOICE, assumption log 74). -/
def exportRestart (n : Nat) (before : Ring) (s : State) : State :=
  if (ring s n).exports && !before.exports then
    modRing n (fun r => { r with erWritten := r.erCursor.toNat }) s
  else s

/-- RING_CTRL (R64, R75). -/
def writeRingCtrl (n : Nat) (v : Word) (s : State) : State :=
  guarded (ringExists n)
    (fun s => fetch n (exportRestart n (ring s n) (modRing n (fun r => { r with ringCtrl := v &&& 0x3#32 }) s))) s

/-- ER_CTRL (R75). -/
def writeErCtrl (n : Nat) (v : Word) (s : State) : State :=
  guarded (ringExists n)
    (fun s => exportRestart n (ring s n) (modRing n (fun r => { r with erCtrl := v &&& 0xFFFFFF03#32 }) s)) s

/-- ER_CREDIT: credit is added, capped at ER_SIZE (R75). -/
def writeErCredit (n : Nat) (v : Word) (s : State) : State :=
  guarded (ringExists n) (modRing n fun r => { r with erCredit := min (r.erCredit + v.toNat) r.erSize.toNat }) s

/-- ER_SIZE: a power of two from 64 KiB to 1 GiB, else ignored; credit held above the new size is capped at it (R75). -/
def writeErSize (n : Nat) (v : Word) (s : State) : State :=
  let ok := (List.range 15).any fun i => v.toNat == 65536 * 2 ^ i
  guarded (ringExists n && ok) (modRing n fun r => { r with erSize := v, erCredit := min r.erCredit v.toNat }) s

/-- Shards that wait for a cursor to pass their last record on an old ring (R50). -/
def shardsWaiting (s : State) (n : Nat) : List Nat :=
  (s.met.shards.filter fun k => match k.2.moving with
    | some (old, q) => old == n && decide (q ≤ (ring s n).erCursor.toNat)
    | none => false).map Prod.fst

/-- The consumer cursor advances: records at or below it are no longer retained, and shards held back behind it take their
place on their new rings; a backward write or one beyond the last sequence is ignored (R50, R52, R75). -/
def advanceCursor (n : Nat) (c : DWord) (s : State) : State :=
  let r := ring s n
  if c.toNat < r.erCursor.toNat ∨ r.erLastSeq.toNat < c.toNat then s
  else
    let s1 := commit (modRing n (fun x => { x with erCursor := c }) s)
    let s2 := s1.onMet fun m => { m with records := m.records.filter fun x => !(x.ring == n && x.seq != 0 && decide (x.seq ≤ c.toNat)) }
    let s3 := if s2.met.records = s.met.records then s2 else trimSome s2
    judgeBacklog ((shardsWaiting s3 n).foldl (fun t k => placeHeld k t) s3)

/-- A 64-bit register takes effect when its upper word is written; while it stands fast neither word is taken (R59, R64). -/
def write64 (n key : Nat) (upper fast : Bool) (v : Word) (f : DWord → State → State) (s : State) : State :=
  if fast then s
  else if upper then f (v ++ Tbl.getD (ring s n).low key 0#32) s
  else modRing n (fun r => { r with low := Tbl.put r.low key v }) s

/-- ER_CURSOR (R52, R75). -/
def writeErCursor (n : Nat) (upper : Bool) (v : Word) (s : State) : State :=
  guarded (ringExists n) (write64 n 0x30 upper false v (advanceCursor n)) s

/-- SQ_BASE, CQ_BASE and ER_BASE; the first two stand while the ring submits (R64). -/
def writeBase (n off : Nat) (upper : Bool) (v : Word) (s : State) : State :=
  let masked (c : DWord) : DWord := c &&& 0xFFFFFFFFFFFFF000#64
  guarded (ringExists n) (write64 n off upper (off != 0x20 && (ring s n).submits) v fun c s =>
    if off = 0x20 then modRing n (fun r => { r with erBase := masked c }) s
    else if off = 0 then modRing n (fun r => { r with sqBase := masked c }) s
    else modRing n (fun r => { r with cqBase := masked c }) s) s

/-- The 64 B header of a record of a type, its CRC over header and body (table Export record header). -/
def recHeader (dev : Word) (r : Rec) (resent : Bool) (body : Bytes) : Bytes :=
  let h := le 1 r.type ++ le 1 (r.flags.toNat + flag 3 resent) ++ le 2 (64 + body.length) ++ le 4 dev.toNat ++ le 4 r.slot
    ++ le 2 r.epoch ++ zeros 2 ++ le 8 r.asn ++ le 12 (stamp96 r.stamp) ++ le 8 r.seq ++ le 8 r.eui.toNat ++ le 2 r.local_.toNat ++ zeros 6
  h ++ le 4 (crc32c (h ++ body)).toNat

/-- A record as it stands in host memory. -/
def recBytes (dev : Word) (r : Rec) (resent : Bool) : Bytes :=
  let body := padTo 64 r.payload
  recHeader dev r resent body ++ body

/-- The header of a filler (R74). -/
def fillerBytes (len : Nat) : Bytes :=
  let h := zeros 2 ++ le 2 len ++ zeros 56
  h ++ le 4 (crc32c h).toNat

/-- A record that can no longer be read from the store: it is delivered no more (R36, R281). -/
def lostRecord (s : State) (r : Rec) : Bool :=
  s.cop.unreadable.any fun u => u.1 == r.slot && decide (u.2.1 ≤ r.asn) && decide (r.asn ≤ u.2.2)

/-- The next record a ring owes its consumer (R52, R75). -/
def nextExport (s : State) (n : Nat) : Option Rec :=
  (s.met.records.filter fun r => r.ring == n && decide ((ring s n).erWritten < r.seq) && !lostRecord s r).foldl
    (fun b r => match b with
      | none => some r
      | some x => if r.seq < x.seq then some r else some x) none

/-- A record awaits its interrupt: at the count vector 16 + n fires; the first starts the time (table Ring control block). -/
def erInterrupt (n : Nat) (s : State) : State :=
  let r := ring s n
  if ¬ r.erCtrl.getLsbD 1 then s
  else if coalesceCount r.erCtrl ≤ r.erUnsignalled + 1 then
    signal (16 + n) (modRing n (fun x => { x with erUnsignalled := 0, erDeadline := none }) s)
  else
    let time := bits r.erCtrl 16 16
    modRing n (fun x =>
      { x with erUnsignalled := x.erUnsignalled + 1
               erDeadline := if x.erUnsignalled = 0 ∧ time ≠ 0 then some (tb6 s + time * 1000) else x.erDeadline }) s

/-- Bytes put at ER_PRODUCER, what follows header word 0 before it; then the producer advances and credit is used (R74). After a
record that ends at the ring's end ER_PRODUCER reads 0, where the manual gives only the offset after the last record
(DESIGN CHOICE, assumption log 74). -/
def putExport (n len : Nat) (bs : Bytes) (s : State) : State :=
  let r := ring s n
  modRing n (fun x =>
    { x with erProducer := BitVec.ofNat 32 (if r.erProducer.toNat + len = r.erSize.toNat then 0 else r.erProducer.toNat + len)
             erCredit := x.erCredit - len }) (emit (.export_ n r.erProducer.toNat (bs.take 4)) (emit (.export_ n (r.erProducer.toNat + 4) (bs.drop 4)) s))

/-- The next record is written to an enabled ring while the credit covers it; one that would straddle the end has a filler
written first (R74). -/
def exportRecordWrite (n : Nat) (s : State) : State :=
  let r := ring s n
  match (if ringExists n && r.exports then nextExport s n else none) with
  | none => s
  | some x =>
    let len := recLength x
    let left := r.erSize.toNat - r.erProducer.toNat
    if left < len then (if 0 < left ∧ left ≤ r.erCredit then putExport n left (fillerBytes left) s else s)
    else if r.erCredit < len then s
    else
      let s1 := putExport n len (recBytes s.dev.deviceId x (decide (x.seq ≤ r.erEver))) s
      erInterrupt n (modRing n (fun y => { y with erWritten := x.seq, erEver := max y.erEver x.seq }) s1)

/-- The coalescing time of a completion ring (vector 0 to 15) or an export ring (16 to 31) passes (R73). -/
def coalesceTimeout (v : Nat) (s : State) : State :=
  let due (d : Option Nat) : Bool := match d with | some t => decide (t ≤ tb6 s) | none => false
  if v < 16 then
    guarded (due (ring s v).cqDeadline) (fun s => signal v (modRing v (fun r => { r with cqUnsignalled := 0, cqDeadline := none }) s)) s
  else if v < 32 then
    guarded (due (ring s (v - 16)).erDeadline)
      (fun s => signal v (modRing (v - 16) (fun r => { r with erUnsignalled := 0, erDeadline := none }) s)) s
  else s

/-! ### The result window (R71, R72) -/

/-- The token the window shows. -/
def shownToken (s : State) : Option Token := s.host.tokens.find? fun t => t.id == s.host.select

/-- Bytes of a page of a result. -/
def pageBytes : Nat := 65472

/-- The result window: header and page; PENDING with no length and no payload before the result is ready; all zero for a token
not held or a page not there (R71). -/
def resultWindow (s : State) : Bytes :=
  let page := s.host.page.toNat
  match shownToken s with
  | none => []
  | some t =>
    if tb6 s < t.readyAt then (if page = 0 then le 4 t.id.toNat ++ le 2 stPending else []) else
    let count := ceilDiv t.result.length pageBytes
    if page ≠ 0 ∧ count ≤ page then []
    else
      let body := (t.result.drop (page * pageBytes)).take pageBytes
      le 4 t.id.toNat ++ le 2 t.status ++ zeros 2 ++ le 4 t.result.length ++ le 2 page ++ le 2 count ++ le 4 (crc32c body).toNat
        ++ zeros 44 ++ body

/-- RESULT_SELECT, RESULT_PAGE and RESULT_RELEASE (R71). -/
def writeSelect (v : Word) (s : State) : State := s.onHost fun h => { h with select := v }
def writePage (v : Word) (s : State) : State := s.onHost fun h => { h with page := v.truncate 16 }
def writeRelease (v : Word) (s : State) : State := s.onHost fun h => { h with tokens := h.tokens.filter fun t => t.id != v }

/-! ### Privet (R76, R77) -/

/-- A read of NOTICE_POP from word 0 on, of bytes of that word or of all 32 B at once: the next notice, or a stall while there is none,
behind the reads that stall already (R77). -/
def popRead (r : Option (BitVec 4)) (s : State) : State :=
  match popNotice s.host.notices with
  | some (n, rest) =>
    emit (.read (popBytes r (noticeBytes n))) (s.onHost fun h => { h with notices := rest, latch := noticeBytes n })
  | none => s.onHost fun h => { h with stalled := h.stalled ++ [(tb6 s, r)] }

/-- The read that has stalled longest ends with an all-zero entry (R77). -/
def endStall (s : State) : State :=
  match s.host.stalled with
  | (_, r) :: rest => emit (.read (popBytes r [])) (s.onHost fun h => { h with stalled := rest, latch := [] })
  | [] => s

/-- Every read that stalls ends so (R77). -/
def endStalls (s : State) : State := s.host.stalled.foldl (fun t _ => endStall t) s

/-- The stall limit of the read that has stalled longest passes (R77). -/
def stallTimeout (s : State) : State :=
  match s.host.stalled with
  | (t, _) :: _ => guarded (decide (t + s.host.stallLimit.toNat * 1000 ≤ tb6 s)) endStall s
  | [] => s

/-- NOTICE_STALL: at most 20,000 µs; NOTICE_IRQ: its four bits. -/
def writeStall (v : Word) (s : State) : State := guarded (decide (v.toNat ≤ 20000)) (fun s => s.onHost fun h => { h with stallLimit := v }) s
def writeNoticeIrq (v : Word) (s : State) : State := s.onHost fun h => { h with noticeIrq := v &&& 0xF#32 }

/-! ### MSI-X (R73) -/

/-- Pending vectors whose message may now be sent are sent, and their bits cleared (R73). -/
def sendPending (s : State) : State :=
  if s.host.msixEnable && !s.host.msixMask then
    (List.range 64).foldl (fun t v =>
      let e := Tbl.getD t.host.msix v {}
      if t.host.pba.getLsbD v && !e.masked then
        emit (.msix v e.addr e.data) (t.onHost fun h => { h with pba := h.pba &&& ~~~ BitVec.ofNat 64 (2 ^ v) })
      else t) s
  else s

/-- A table entry changed, and what it releases sent. -/
def modMsix (v : Nat) (f : MsixEntry → MsixEntry) (s : State) : State :=
  sendPending (s.onHost fun h => { h with msix := Tbl.upd h.msix v {} f })

/-- The capability's control word, or an entry's mask. -/
def msixUnmask (op : MsixOp) (s : State) : State :=
  match op with
  | .control en mask => sendPending (s.onHost fun h => { h with msixEnable := en, msixMask := mask })
  | .vector v mask => modMsix v.val (fun e => { e with masked := mask }) s

/-- A word of the MSI-X table: two of address, data, control. -/
def writeMsixWord (off : Nat) (v : Word) (s : State) : State :=
  modMsix (off / 16) (fun e => match off % 16 / 4 with
    | 0 => { e with addr := setLow e.addr v }
    | 1 => { e with addr := v ++ e.addr.truncate 32 }
    | 2 => { e with data := v }
    | _ => { e with masked := v.getLsbD 0 }) s
where
  setLow (a : DWord) (v : Word) : DWord := ((a >>> 32).truncate 32 : Word) ++ v

/-! ### Reset of the HOST island (R57) -/

/-- A ring set after a reset of the HOST island: cursor and last sequence stay, and what was delivered is remembered. -/
def resetRing (r : Ring) : Ring := { erCursor := r.erCursor, erLastSeq := r.erLastSeq, erEver := r.erEver }

/-- The HOST island reset: ring control blocks, MSI-X, result selection and the read latch; commands already fetched
answer no ring until they are submitted again (R57). -/
def hostReset (s : State) : State :=
  s.onHost fun h =>
    { h with rings := Tbl.mapVals h.rings fun _ r => resetRing r
             running := h.running.map fun x => { x with rings := [] }
             waiting := h.waiting.map fun w => { w with quiet := true }
             select := 0#32, page := 0#16, msixEnable := false, msixMask := false, msix := [], pba := 0#64, latch := []
             stalled := [] }

/-- FLR, PERST_N and a link-down act on the endpoint whatever else the device does, while it has supply (R57, R426). -/
def endpointReset (s : State) : State := if s.dev.phase = .off then s else hostReset s

/-! ### The meanings -/

def execSqTail (n : Nat) (v : Word) (s : State) : Host.Outcome State Fault Refusal := whileReachable (writeSqTail n v) s
def execCqHead (n : Nat) (v : Word) (s : State) : Host.Outcome State Fault Refusal := whileReachable (writeCqHead n v) s
def execCqEnable (n : Nat) (v : Word) (s : State) : Host.Outcome State Fault Refusal := whileReachable (writeCqCtrl n v) s
def execSubmissionEnable (n : Nat) (v : Word) (s : State) : Host.Outcome State Fault Refusal := whileReachable (writeRingCtrl n v) s
def execExportEnable (n : Nat) (ctrl : Bool) (v : Word) (s : State) : Host.Outcome State Fault Refusal :=
  whileRunning (if ctrl then writeRingCtrl n v else writeErCtrl n v) s
def execErCredit (n : Nat) (v : Word) (s : State) : Host.Outcome State Fault Refusal := whileRunning (writeErCredit n v) s
def execErCursor (n : Nat) (upper : Bool) (v : Word) (s : State) : Host.Outcome State Fault Refusal := whileRunning (writeErCursor n upper v) s
def execExportRecordWrite (n : Nat) (s : State) : Host.Outcome State Fault Refusal := whileRunning (exportRecordWrite n) s
def execInterruptCoalesceTimeout (v : Nat) (s : State) : Host.Outcome State Fault Refusal := whileReachable (coalesceTimeout v) s
def execResultSelect (v : Word) (s : State) : Host.Outcome State Fault Refusal := whileRunning (writeSelect v) s
def execResultPage (v : Word) (s : State) : Host.Outcome State Fault Refusal := whileRunning (writePage v) s
def execResultRelease (v : Word) (s : State) : Host.Outcome State Fault Refusal := whileRunning (writeRelease v) s
def execNoticePop (s : State) : Host.Outcome State Fault Refusal := whileRunning (popRead none) s
def execNoticePopStallTimeout (s : State) : Host.Outcome State Fault Refusal := whileRunning stallTimeout s
def execMsixUnmask (op : MsixOp) (s : State) : Host.Outcome State Fault Refusal := whileReachable (msixUnmask op) s
def execFunctionLevelReset (s : State) : Host.Outcome State Fault Refusal := always endpointReset s
def execPerstNAssert (s : State) : Host.Outcome State Fault Refusal := always endpointReset s
def execPcieLinkDown (s : State) : Host.Outcome State Fault Refusal := always endpointReset s

end Sys2Proof.Machine
end

