-- ==== Sys2Proof/Machine/Ptp.lean ====
section
/-!
DEFINITION. The two PTP domains: Announce and master selection, ports, Sync and servo, delay measurement (R228 to R232).
Message layouts and the comparison of masters are those of the standard the manual names (assumption log 31).
Corrections and path delays are exact in units of 2^-16 ps.
-/

namespace Sys2Proof.Machine

/-! ### Messages (assumption log 31) -/

/-- Units of 2^-16 ps in a ns, in a ps, and in a unit of a correctionField (2^-16 ns). -/
def uNs : Int := 65536000
def uPs : Int := 65536
def uCorr : Int := 1000

/-- Message types. -/
def ptSync : Nat := 0
def ptDelayReq : Nat := 1
def ptPdelayReq : Nat := 2
def ptPdelayResp : Nat := 3
def ptFollowUp : Nat := 8
def ptDelayResp : Nat := 9
def ptPdelayRespFollowUp : Nat := 10
def ptAnnounce : Nat := 11

/-- Fields of the common header. -/
def pmType (m : Bytes) : Nat := field m 0 1 % 16
def pmDomain (m : Bytes) : Nat := field m 4 1
def pmTwoStep (m : Bytes) : Bool := field m 6 1 / 2 % 2 == 1
def pmCorr (m : Bytes) : Int := signed 8 (ofBe (slice m 8 8)) * uCorr
def pmSource (m : Bytes) : Bytes := slice m 20 10
def pmSeq (m : Bytes) : Nat := ofBe (slice m 30 2)
def pmLog (m : Bytes) : Int := fieldS m 33 1

/-- A timestamp of ten octets, in ns. -/
def pmTime (m : Bytes) (off : Nat) : Int := (ofBe (slice m off 6) : Nat) * 1000000000 + (ofBe (slice m (off + 6) 4) : Nat)

/-- Ten octets of a timestamp in ns. -/
def pmStamp (ns : Int) : Bytes := be 6 (ns / 1000000000).toNat ++ be 4 (ns % 1000000000).toNat

/-- The port identity of a port of the device. -/
def ownIdentity (s : State) (p : Nat) : Bytes := idBytes (Config.clockIdentity s.dev.fit.serial) ++ be 2 (p + 1)

/-- An interval stated as a power of two of a second, in ns. -/
def intervalNs (l : Int) : Nat := if 0 ≤ l then nsPerS * 2 ^ l.toNat else nsPerS / 2 ^ (-l).toNat

/-- Intervals of 2^-4 s to 2^4 s are supported. -/
def rateOk (m : Bytes) : Bool := decide (-4 ≤ pmLog m) && decide (pmLog m ≤ 4)

/-- A message of the version and profiles the device runs, of a type and at least a length. -/
def pmOk (m : Bytes) (len : Nat) : Bool :=
  field m 0 1 / 16 == 0 && field m 5 1 == 0 && field m 1 1 % 16 == 2 && decide (len ≤ m.length)

/-- A message of the supported transport, version and profiles, of at least a length. -/
def msgOk (r : PtpRx) (len : Nat) : Bool := r.ether == 0x88F7 && pmOk r.bytes len

/-- The message types the device's profiles know; management, signalling and reserved ones are not supported (table PTP support). -/
def knownTypes : List Nat :=
  [ptSync, ptDelayReq, ptPdelayReq, ptPdelayResp, ptFollowUp, ptDelayResp, ptPdelayRespFollowUp, ptAnnounce]

/-- A message of the device's own: header and body, without its Ethernet header. -/
def ownMessage (s : State) (p type domain seq : Nat) (corr : Int) (flags : Nat) (body : Bytes) : Bytes :=
  le 1 type ++ le 1 2 ++ be 2 (34 + body.length) ++ le 1 domain ++ zeros 1 ++ le 1 flags ++ zeros 1
    ++ be 8 (unsigned 8 (corr / uCorr)) ++ zeros 4 ++ ownIdentity s p ++ be 2 seq ++ zeros 1 ++ le 1 0x7F ++ body

/-! ### Ports -/

/-- ETH-A or ETH-B. -/
def ethPort (s : State) (p : Nat) : EthPort := if p = 0 then s.tim.ethA else s.tim.ethB

/-- An Ethernet port changed. -/
def modEth (p : Nat) (f : EthPort → EthPort) (s : State) : State :=
  s.onTim fun t => if p = 0 then { t with ethA := f t.ethA } else { t with ethB := f t.ethB }

/-- PORT_PTP: peer-to-peer delay, and two-step responses of its own. -/
def EthPort.p2p (e : EthPort) : Bool := e.ptp.getLsbD 0
def EthPort.twoStep (e : EthPort) : Bool := e.ptp.getLsbD 1

/-- ASYMMETRY in units. -/
def EthPort.asymmetry (e : EthPort) : Int := signed 4 e.asym.toNat * uPs

/-- A message is discarded and counted (R228). -/
def discardPtp (p : Nat) (s : State) : State :=
  modEth p (fun e => { e with discard := BitVec.ofNat 32 (min (e.discard.toNat + 1) (2 ^ 32 - 1)) }) s

/-- A message meets the row of its type: one that is not supported, or not of the row's form, is discarded; one whose type belongs to
another row leaves this one's state (R228). -/
def ptpTyped (type : Nat) (ok : Bool) (r : PtpRx) (take : State → State) (s : State) : State :=
  if pmType r.bytes ≠ type then (if pmType r.bytes ∈ knownTypes then s else discardPtp r.port s)
  else if ok then take s else discardPtp r.port s

/-- A domain runs on a port. -/
def runsOn (s : State) (b : Bool) (p : Nat) : Bool := (dom s b).state != .disabled && portInUse (dom s b) == p

/-- DOMAIN_NUMBER. -/
def domNumber (d : Domain) : Nat := bits d.cfg 8 8

/-- The domain a message belongs to: one that is enabled, with the message's domainNumber and the port in use. -/
def domOf (s : State) (p : Nat) (m : Bytes) : Option Bool :=
  [false, true].find? fun b => runsOn s b p && domNumber (dom s b) == pmDomain m

/-- PROFILE: the Power Utility Profile, with peer delay, or the default profile, with end-to-end delay. -/
def Domain.power (d : Domain) : Bool := d.cfg.getLsbD 1

/-- A message on a port is of the delay mechanism of the domain it belongs to, if any (table PTP support). -/
def profileFits (s : State) (r : PtpRx) (p2p : Bool) : Bool :=
  (ethPort s r.port).p2p == p2p && match domOf s r.port r.bytes with
    | some b => (dom s b).power == p2p
    | none => true

/-- The base a port's stamps are taken on: that of the domain that runs on it. -/
def portTb (s : State) (p : Nat) : Nat := if runsOn s true p && !runsOn s false p then s.tim.tb1 / nsUnit else s.tim.tb0 / nsUnit

/-- An ingress stamp after compensation, in ns (R230). -/
def ingressNs (s : State) (r : PtpRx) : Int := (r.ingress - ((ethPort s r.port).ingress.toNat : Int)) / 1000

/-- The egress stamp of a message sent now, in ns (R230). -/
def egressNs (s : State) (p base : Nat) : Int := ((base * 1000 + (ethPort s p).egress.toNat : Nat) : Int) / 1000

/-! ### Master selection (R228, R229) -/

/-- The data set of an Announce. -/
def announceOf (m : Bytes) : Announce :=
  { prio1 := field m 47 1, cls := field m 48 1, acc := field m 49 1, var := ofBe (slice m 50 2), prio2 := field m 52 1
    gm := BitVec.ofNat 64 (ofBe (slice m 53 8)), steps := ofBe (slice m 61 2), source := BitVec.ofNat 64 (ofBe (slice m 20 8))
    portNo := ofBe (slice m 28 2) }

/-- The order in which data sets are compared: that of the grandmaster first, then the way to it. -/
def annRank (a : Announce) : List Nat :=
  [a.prio1, a.cls, a.acc, a.var, a.prio2, a.gm.toNat, a.steps, a.source.toNat, a.portNo]

/-- A rank comes before another. -/
def rankLess : List Nat → List Nat → Bool
  | x :: xs, y :: ys => decide (x < y) || (x == y && rankLess xs ys)
  | _, _ => false

/-- Two Announces come from one port of one clock. -/
def sameMaster (a b : Announce) : Bool := a.source == b.source && a.portNo == b.portNo

/-- The best master heard on the port in use: two Announces within four intervals, and the last within three. -/
def bestMaster (s : State) (d : Domain) : Option Announce :=
  (d.foreign.filter fun f => f.port == portInUse d && f.two && decide (tb6 s < f.at_ + 3 * f.interval)).foldl
    (fun best f => match best with
      | none => some f.a
      | some y => if rankLess (annRank f.a) (annRank y) then some f.a else some y) none

/-- A domain chooses its master again: LISTENING with none, ACQUIRING once one is chosen (R229, R232). -/
def chooseMaster (b : Bool) (s : State) : State :=
  let d := dom s b
  if d.state = .disabled then s
  else
    match bestMaster s d with
    | some a =>
      let s1 := modDom b (fun d => { d with master := some a, gmId := a.gm }) s
      if d.state = .listening then setDomState b .acquiring s1 else s1
    | none =>
      let s1 := modDom b (fun d =>
        { d with master := none, noMasterSince := if d.master.isSome then tb6 s else d.noMasterSince }) s
      if d.state = .acquiring then setDomState b .listening s1 else s1

/-- TB6 of a port's last Announce. -/
def Domain.announced (d : Domain) (p : Nat) : Nat := if p = 0 then d.lastAnnounce.1 else d.lastAnnounce.2

/-- A port's last Announce set. -/
def Domain.announce (d : Domain) (p t : Nat) : Domain :=
  { d with lastAnnounce := if p = 0 then (t, d.lastAnnounce.2) else (d.lastAnnounce.1, t) }

/-- The primary port of a domain. -/
def primaryPort (d : Domain) : Nat := if d.cfg.getLsbD 2 then 1 else 0

/-- The announce interval that holds on a port: the longest of the masters heard there. -/
def announceInterval (d : Domain) (p : Nat) : Nat :=
  ((d.foreign.filter fun f => f.port == p).map fun f => f.interval).foldl max 0 |> fun n => if n = 0 then Config.announceInterval else n

/-- An Announce joins the masters heard. -/
def hearMaster (p : Nat) (a : Announce) (interval now : Nat) (d : Domain) : Domain :=
  let old := d.foreign.find? fun f => f.port == p && sameMaster f.a a
  let two : Bool := match old with | some f => decide (now ≤ f.at_ + 4 * interval) | none => false
  let since := if p = primaryPort d then
      (match d.primarySince with
        | some t => if now ≤ d.announced p + 3 * interval then some t else some now
        | none => some now)
    else d.primarySince
  ({ d with foreign := { port := p, a, at_ := now, interval, two } :: d.foreign.filter fun f => !(f.port == p && sameMaster f.a a)
            primarySince := since }).announce p now

/-- An Announce (R229): heard on either port of every domain with its number. -/
def ptpAnnounce (r : PtpRx) (s : State) : State :=
  let m := r.bytes
  ptpTyped ptAnnounce (msgOk r 64 && rateOk m) r (fun s =>
    if 255 ≤ (announceOf m).steps then s
    else
      [false, true].foldl (fun t b =>
        if (dom t b).state != .disabled && domNumber (dom t b) == pmDomain m then
          reselect (chooseMaster b (modDom b (hearMaster r.port (announceOf m) (intervalNs (pmLog m)) (tb6 t)) t))
        else t) s) s

/-- A domain turns to a port; its servo keeps its state (R229). -/
def turnPort (b alt : Bool) (s : State) : State :=
  reselect (chooseMaster b (modDom b (fun d =>
    let e := { d with alt := alt, delayReq := none, twoStep := none, primarySince := if alt then none else d.primarySince }
    e.announce (portInUse e) (max (e.announced (portInUse e)) (tb6 s))) s))

/-- A domain starts afresh on its primary; with that port's link down it turns to the alternate at once (R229). -/
def startDomain (b : Bool) (s : State) : State :=
  let s1 := setDomState b .listening (modDom b (fun d =>
    { d with alt := false, primarySince := none, foreign := [], master := none, twoStep := none, delayReq := none
             lastAnnounce := (tb6 s, tb6 s), noMasterSince := tb6 s }) s)
  if (ethPort s1 (primaryPort (dom s1 b))).up then s1 else turnPort b true s1

/-- DOM_CFG comes into force: ENABLE starts or stops the domain; a change of PROFILE, PRIMARY or DOMAIN_NUMBER returns it to
LISTENING (R232). -/
def applyCfg (b : Bool) (s : State) : State :=
  let d := dom s b
  let w := d.want
  let s1 := modDom b (fun d => { d with cfg := w }) s
  if w = d.cfg then s
  else
    reselect (
      if ¬ w.getLsbD 0 then setDomState b .disabled (modDom b (fun d => { d with master := none, twoStep := none, delayReq := none }) s1)
      else if d.state = .disabled ∨ w &&& 0xFF06#32 ≠ d.cfg &&& 0xFF06#32 then startDomain b s1
      else s1)

/-- A domain that takes no Syncs, DISABLED or LISTENING, takes a DOM_CFG that waits at once (DESIGN CHOICE, assumption log 31). -/
def applyIdle (b : Bool) (s : State) : State :=
  match (dom s b).state with
  | .disabled => applyCfg b s
  | .listening => applyCfg b s
  | _ => s

/-- No Announce has come on the port in use for three intervals: the domain turns to its alternate, or is without a master
(R229). -/
def announceTimeout (b : Bool) (s : State) : State :=
  let d := dom s b
  let p := portInUse d
  guarded (d.state != .disabled && decide (d.announced p + 3 * announceInterval d p ≤ tb6 s))
    (fun s => applyIdle b (if d.alt then reselect (chooseMaster b s) else turnPort b true s)) s

/-- The primary has carried Announces again for 60 s (R229). -/
def primaryReturn (b : Bool) (s : State) : State :=
  let d := dom s b
  let p := primaryPort d
  guarded (d.state != .disabled && d.alt && (ethPort s p).up
      && (match d.primarySince with | some t => decide (t + 60 * nsPerS ≤ tb6 s) | none => false)
      && decide (tb6 s < d.announced p + 3 * announceInterval d p))
    (fun s => applyIdle b (turnPort b false s)) s

/-- A link goes down: what waited on the port is lost, and a domain whose primary it is turns to its alternate (R229). -/
def linkDown (p : Nat) (s : State) : State :=
  if 2 ≤ p then s
  else
    let s1 := modEth p (fun e => { e with up := false, pdelay := none, pdelayTwo := none }) s
    [false, true].foldl (fun t b =>
      let d := dom t b
      let t1 := if primaryPort d = p then modDom b (fun d => { d with primarySince := none }) t else t
      if d.state != .disabled && portInUse d == p && !d.alt then applyIdle b (turnPort b true t1) else t1) s1

/-- A link comes up. -/
def linkUp (p : Nat) (s : State) : State := guarded (decide (p < 2)) (modEth p fun e => { e with up := true }) s

/-! ### DOM_CFG (R229, R232) -/

/-- Two configurations share a port and a domain number. -/
def cfgClash (a b : Word) : Bool := a.getLsbD 0 && b.getLsbD 0 && (a.getLsbD 2 == b.getLsbD 2) && bits a 8 8 == bits b 8 8

/-- DOM_CFG: it takes effect at the domain's next Sync, or at once while the domain takes none; a configuration that would share a port
under one number is ignored (R229, R232). -/
def writeDomCfg (b : Bool) (v : Word) (s : State) : State :=
  let w := v &&& 0xFF07#32
  if cfgClash w (dom s (!b)).want then s else applyIdle b (modDom b (fun d => { d with want := w }) s)

/-! ### Sync and servo (R231, R232) -/

/-- The frequency of the servo, 0.001 ppb, clamped to ±500 ppm: KP and KI are in 2^-16 ppb per ns. -/
def servoFreq (d : Domain) (o integral : Int) : Int :=
  max (-500000000) (min 500000000 (((d.kp.toNat : Int) * o + d.ki.toNat * integral) * 1000 / (65536 * uNs)))

/-- The domain's state after a Sync with an offset (table Domain states). -/
def afterSync (b : Bool) (o : Int) (s : State) : State :=
  let d := dom s b
  let small := decide (o.natAbs < d.lockNs.toNat * 65536000)
  let large := decide (1000 * 65536000 < o.natAbs)
  let good := if small then d.good + 1 else 0
  let bad := if large then d.bad + 1 else 0
  match d.state with
  | .holdover => modDom b (fun d => { d with good := if small then 1 else 0 }) (setDomState b .acquiring s)
  | .acquiring => if 16 ≤ good then setDomState b .locked s else modDom b (fun d => { d with good := good }) s
  | .locked => if 4 ≤ bad then setDomState b .acquiring s else modDom b (fun d => { d with bad := bad }) s
  | _ => s

/-- The domain's base steps by −o; the integral clears and the domain acquires again (R231). -/
def stepBase (b : Bool) (o : Int) (s : State) : State :=
  let d : Int := -(o * nsUnit / uNs)
  let move (x : Nat) : Nat := ((x : Int) + d).toNat
  let s1 := countStep (domCode b) (s.onTim fun t => if b then { t with tb1 := move t.tb1 } else { t with tb0 := move t.tb0 })
  setDomState b .acquiring (modDom b (fun x => { x with integral := 0, good := 0 }) s1)

/-- A Sync is taken with its origin time, stamp and corrections: the servo forms the offset and applies its frequency, and
the base steps when the offset exceeds 1 ms (R231). -/
def takeSync (b : Bool) (t1 t2 c : Int) (interval : Nat) (s : State) : State :=
  let d := dom s b
  let e := ethPort s (portInUse d)
  let ms := (t2 - t1) * uNs - c - e.asymmetry
  let o := ms - d.pathDelay
  let integral := d.integral + o
  let s1 := modDom b (fun x =>
    { x with integral := integral, freq := servoFreq d o integral, offset := saturate 4 (o / uNs)
             syncCount := BitVec.ofNat 32 (min (x.syncCount.toNat + 1) (2 ^ 32 - 1)), lastSync := tb6 s, syncInt := interval
             msDelay := ms, twoStep := none }) (noteFollow (noteFreq b s))
  reselect (if 1000000 * 65536000 < o.natAbs then stepBase b o s1 else afterSync b o s1)

/-- The message comes from the domain's master. -/
def fromMaster (d : Domain) (m : Bytes) : Bool :=
  match d.master with
  | some a => pmSource m == idBytes a.source ++ be 2 a.portNo
  | none => false

/-- A Sync: one-step at once, two-step with its Follow_Up (R228, R231); a DOM_CFG that waits takes effect first (R232). -/
def ptpSync (r : PtpRx) (s : State) : State :=
  let m := r.bytes
  ptpTyped ptSync (msgOk r 44 && rateOk m) r (fun s =>
    match domOf s r.port m with
    | none => s
    | some b =>
      if ¬ fromMaster (dom s b) m then s
      else if (dom s b).want ≠ (dom s b).cfg then applyCfg b s
      else if pmTwoStep m then
        modDom b (fun d => { d with twoStep := some (pmSeq m, ingressNs s r, pmCorr m), syncInt := intervalNs (pmLog m) }) s
      else takeSync b (pmTime m 34) (ingressNs s r) (pmCorr m) (intervalNs (pmLog m)) s) s

/-- The Follow_Up of a two-step Sync. -/
def ptpFollowUp (r : PtpRx) (s : State) : State :=
  let m := r.bytes
  ptpTyped ptFollowUp (msgOk r 44) r (fun s =>
    match domOf s r.port m with
    | none => s
    | some b =>
      let d := dom s b
      match d.twoStep with
      | some (q, t2, c) => if fromMaster d m ∧ q = pmSeq m then takeSync b (pmTime m 34) t2 (c + pmCorr m) d.syncInt s else s
      | none => s) s

/-- No Sync for three intervals, at least 3 s: HOLDOVER (R232). -/
def syncTimeout (b : Bool) (s : State) : State :=
  let d := dom s b
  guarded (decide (d.state = .locked) && decide (d.lastSync + max (3 * d.syncInt) (3 * nsPerS) ≤ tb6 s))
    (fun s => reselect (setDomState b .holdover (noteFollow s))) s

/-- No master chosen for 600 s in HOLDOVER: LISTENING (R232). -/
def holdoverTimeout (b : Bool) (s : State) : State :=
  let d := dom s b
  guarded (decide (d.state = .holdover) && d.master.isNone && decide (d.noMasterSince + 600 * nsPerS ≤ tb6 s))
    (fun s => applyIdle b (reselect (setDomState b .listening s))) s

/-! ### Delay measurement (R228, R230) -/

/-- The multicast addresses of PTP: of its messages, and of those for peer delay (table PTP support). -/
def ptpGroup : Bytes := [0x01#8, 0x1B#8, 0x19#8, 0x00#8, 0x00#8, 0x00#8]
def ptpPeers : Bytes := [0x01#8, 0x80#8, 0xC2#8, 0x00#8, 0x00#8, 0x0E#8]

/-- A PTP message on a port (table PTP support). -/
def sendPtp (p : Nat) (dst m : Bytes) (s : State) : State := emitEth p dst 0x88F7 m s

/-- An own Delay_Req goes out under the default profile; its correction carries the asymmetry as the standard has it. -/
def delayReqTx (b : Bool) (s : State) : State :=
  let d := dom s b
  let p := portInUse d
  let e := ethPort s p
  guarded (d.state != .disabled && d.master.isSome && e.up && !e.p2p && !d.power)
    (fun s =>
      sendPtp p ptpGroup (ownMessage s p ptDelayReq (domNumber d) d.seqId (-e.asymmetry) 0 (zeros 10))
        (modDom b (fun x => { x with delayReq := some (d.seqId, egressNs s p (domBase s b / nsUnit)), seqId := (d.seqId + 1) % 65536 }) s)) s

/-- The Delay_Resp to it: meanPathDelay is half the sum of the two ways. On a peer-to-peer port, or for a domain of the Power Utility
Profile, it belongs to another profile and is discarded, as is one with an interval not supported (R228). -/
def delayResp (r : PtpRx) (s : State) : State :=
  let m := r.bytes
  ptpTyped ptDelayResp (msgOk r 54 && rateOk m && profileFits s r false) r (fun s =>
    match domOf s r.port m with
    | none => s
    | some b =>
      match (dom s b).delayReq with
      | some (q, t3) =>
        if fromMaster (dom s b) m ∧ q = pmSeq m ∧ slice m 44 10 = ownIdentity s r.port then
          modDom b (fun d =>
            { d with pathDelay := (d.msDelay + ((pmTime m 34 - t3) * uNs - pmCorr m)) / 2, delayReq := none }) s
        else s
      | none => s) s

/-- An own Pdelay_Req goes out on a peer-to-peer port. -/
def pdelayReqTx (p : Nat) (s : State) : State :=
  let e := ethPort s p
  guarded (decide (p < 2) && e.up && e.p2p)
    (fun s =>
      let n := if runsOn s true p && !runsOn s false p then domNumber s.tim.domB else domNumber s.tim.domA
      sendPtp p ptpPeers (ownMessage s p ptPdelayReq n e.seqId (-e.asymmetry) 0 (zeros 20))
        (modEth p (fun x => { x with pdelay := some (e.seqId, egressNs s p (portTb s p)), pdelayTwo := none
                                     seqId := (e.seqId + 1) % 65536 }) s)) s

/-- The peer delay of a port is that of every domain of the Power Utility Profile that runs on it. -/
def setPeerDelay (p : Nat) (x : Int) (s : State) : State :=
  [false, true].foldl (fun t b => if runsOn t b p && (dom t b).power then modDom b (fun d => { d with pathDelay := x }) t else t) s

/-- A Pdelay_Req is answered, in one step or in two as PORT_PTP has it; on an end-to-end port it belongs to another profile. -/
def pdelayReq (r : PtpRx) (s : State) : State :=
  let m := r.bytes
  let p := r.port
  let e := ethPort s p
  ptpTyped ptPdelayReq (msgOk r 54 && profileFits s r true) r (fun s =>
    if ¬ e.up then s
    else
      let t2 := ingressNs s r
      let t3 := egressNs s p (portTb s p)
      if e.twoStep then
        sendPtp p ptpPeers (ownMessage s p ptPdelayRespFollowUp (pmDomain m) (pmSeq m) (pmCorr m) 0 (pmStamp t3 ++ pmSource m))
          (sendPtp p ptpPeers (ownMessage s p ptPdelayResp (pmDomain m) (pmSeq m) 0 2 (pmStamp t2 ++ pmSource m)) s)
      else
        sendPtp p ptpPeers (ownMessage s p ptPdelayResp (pmDomain m) (pmSeq m) (pmCorr m + (t3 - t2) * uNs) 0 (zeros 10 ++ pmSource m)) s) s

/-- The Pdelay_Resp to an own request. -/
def pdelayResp (r : PtpRx) (s : State) : State :=
  let m := r.bytes
  let p := r.port
  let e := ethPort s p
  ptpTyped ptPdelayResp (msgOk r 54 && profileFits s r true) r (fun s =>
    match e.pdelay with
    | some (q, t1) =>
      if q ≠ pmSeq m ∨ slice m 44 10 ≠ ownIdentity s p then s
      else
        let t4 := ingressNs s r
        if pmTwoStep m then modEth p (fun x => { x with pdelayTwo := some (q, pmTime m 34, t4, pmCorr m) }) s
        else setPeerDelay p (((t4 - t1) * uNs - pmCorr m - e.asymmetry) / 2) (modEth p (fun x => { x with pdelay := none }) s)
    | none => s) s

/-- The follow-up of a two-step Pdelay_Resp. -/
def pdelayRespFollowUp (r : PtpRx) (s : State) : State :=
  let m := r.bytes
  let p := r.port
  let e := ethPort s p
  ptpTyped ptPdelayRespFollowUp (msgOk r 54 && profileFits s r true) r (fun s =>
    match e.pdelay, e.pdelayTwo with
    | some (q, t1), some (q2, t2, t4, c) =>
      if q ≠ pmSeq m ∨ q2 ≠ q ∨ slice m 44 10 ≠ ownIdentity s p then s
      else
        let t3 := pmTime m 34
        setPeerDelay p (((t4 - t1) * uNs - (t3 - t2) * uNs - c - pmCorr m - e.asymmetry) / 2)
          (modEth p (fun x => { x with pdelay := none, pdelayTwo := none }) s)
    | _, _ => s) s

/-! ### The meanings -/

def execDomCfg (b : Bool) (v : Word) (s : State) : Host.Outcome State Fault Refusal := whileRunning (writeDomCfg b v) s
def execPtpSync (r : PtpRx) (s : State) : Host.Outcome State Fault Refusal := whileRunning (ptpSync r) s
def execPtpFollowUp (r : PtpRx) (s : State) : Host.Outcome State Fault Refusal := whileRunning (ptpFollowUp r) s
def execPtpAnnounce (r : PtpRx) (s : State) : Host.Outcome State Fault Refusal := whileRunning (ptpAnnounce r) s
def execPtpDelayReqTx (b : Bool) (s : State) : Host.Outcome State Fault Refusal := whileRunning (delayReqTx b) s
def execPtpDelayResp (r : PtpRx) (s : State) : Host.Outcome State Fault Refusal := whileRunning (delayResp r) s
def execPtpPdelayReqTx (p : Nat) (s : State) : Host.Outcome State Fault Refusal := whileRunning (pdelayReqTx p) s
def execPtpPdelayReq (r : PtpRx) (s : State) : Host.Outcome State Fault Refusal := whileRunning (pdelayReq r) s
def execPtpPdelayResp (r : PtpRx) (s : State) : Host.Outcome State Fault Refusal := whileRunning (pdelayResp r) s
def execPtpPdelayRespFollowUp (r : PtpRx) (s : State) : Host.Outcome State Fault Refusal := whileRunning (pdelayRespFollowUp r) s
def execAnnounceTimeout (b : Bool) (s : State) : Host.Outcome State Fault Refusal := whileRunning (announceTimeout b) s
def execPrimaryReturn (b : Bool) (s : State) : Host.Outcome State Fault Refusal := whileRunning (primaryReturn b) s
def execDomainSyncTimeout (b : Bool) (s : State) : Host.Outcome State Fault Refusal := whileRunning (syncTimeout b) s
def execDomainHoldoverTimeout (b : Bool) (s : State) : Host.Outcome State Fault Refusal := whileRunning (holdoverTimeout b) s
def execEthLinkDown (p : Nat) (s : State) : Host.Outcome State Fault Refusal := whileRunning (linkDown p) s
def execEthLinkUp (p : Nat) (s : State) : Host.Outcome State Fault Refusal := whileRunning (linkUp p) s

end Sys2Proof.Machine
end

