-- ==== Sys2Proof/Machine/Power.lean ====
section
/-!
DEFINITION. Power domains, the hold-up budget and the Hawthorn arbiter (17, R414).
-/

namespace Sys2Proof.Machine

/-! ### Domains (R345, R346) -/

/-- A power domain. -/
def pdom (s : State) (d : Nat) : Dom := Tbl.getD s.pwr.doms d {}

/-- A power domain changed. -/
def modPdom (d : Nat) (f : Dom → Dom) (s : State) : State :=
  s.onPwr fun p => { p with doms := Tbl.upd p.doms d {} f }

/-- The kinds of domain. -/
def isQuad (d : Nat) : Bool := decide (d ≤ 3)
def isLaneGroup (d : Nat) : Bool := decide (4 ≤ d ∧ d ≤ 7)
def isEth (d : Nat) : Bool := d == 10 || d == 11
def isDomain (d : Nat) : Bool := decide (d ≤ 13)

/-- The deepest state of a domain (table Power domains). -/
def deepest (d : Nat) : Nat := if d = 8 then 1 else if d = 9 then 2 else 4

/-- FLOOR, CEILING and DVFS_MAX (table PWR_LIMIT). -/
def Dom.floor (x : Dom) : Nat := bits x.limit 0 3
def Dom.ceiling (x : Dom) : Nat := bits x.limit 4 3
def Dom.dvfsMax (x : Dom) : Nat := bits x.limit 8 2

/-- The most active state a domain may take now: its ceiling, and RUN for banks in a capture burst (R352, R353). -/
def ceilNow (s : State) (d : Nat) : Nat := if isLaneGroup d ∧ d - 4 ∈ s.lane.watchBurst then 0 else (pdom s d).ceiling

/-- A channel is live: bound, RX_EN or TX_EN set, its port UP (R346). -/
def liveChan (s : State) (c : Chan) : Bool := c.act.bound && (c.act.rxEn || c.act.txEn) && portUp s c.act.port

/-- Live channels of a lane group. -/
def liveIn (s : State) (g : Nat) : List Chan :=
  (s.lane.chans.filter fun c => c.2.act.port / 4 == g && liveChan s c.2).map Prod.snd

/-- The lane core of a group is held in RUN (R346). -/
def laneCoreRuns (s : State) (g : Nat) : Bool := liveIn s g != []

/-- An Ethernet port counts as disabled while its link is down. -/
def ethDisabled (s : State) (d : Nat) : Bool := !(ethPort s (d - 10)).up

/-- A domain may take a state at all. -/
def hasState (s : State) (d st : Nat) : Bool :=
  decide (st ≤ deepest d) && (!isEth d || decide (st ≤ 1) || ethDisabled s d)

/-! ### States and their accounts (R349, R350, R356) -/

/-- The stay in the present state ends. -/
def account (d : Nat) (s : State) : State :=
  modPdom d (fun x => { x with residency := x.residency.modify x.state (· + (tb6 s - x.since)), since := tb6 s }) s

/-- A domain stands in a state from now on. -/
def settleIn (d st : Nat) (s : State) : State :=
  modPdom d (fun x => { x with state := st, entering := none }) (account d s)

/-- A 32-bit RC counter counts (R97). -/
def sat32 (w : Word) (n : Nat) : Word := BitVec.ofNat 32 (min (w.toNat + n) (2 ^ 32 - 1))

/-- An entry in progress is complete. -/
def finishEntry (d : Nat) (s : State) : State :=
  match (pdom s d).entering with
  | some st => modPdom d (fun x => { x with entries := sat32 x.entries 1 }) (settleIn d st s)
  | none => s

/-- The crossings toward a domain that has reached RUN deliver what they hold (R13). -/
def delivered (d : Nat) (s : State) : State :=
  if domRuns s d then
    ((s.pwr.sending.filter fun x => x.1 == d).map Prod.snd).foldl (fun t o => emit o t) (s.onPwr fun p =>
      { p with wakes := p.wakes.filter fun x => x != d, crossing := p.crossing.filter fun x => x.1 != d
               sending := p.sending.filter fun x => x.1 != d })
  else s

/-- A domain wakes to the most active state it may take; the idle period ends and its crossings deliver (R13, R350, R351). -/
def wakeNow (d : Nat) (s : State) : State :=
  delivered d (modPdom d (fun x => { x with wakeFails := 0, refusedBy := [] }) (settleIn d (min (pdom s d).state (ceilNow s d)) s))

/-- The last abort point an abandoned entry to a state has passed: 0 none, 1 A0, 2 A1; which is open (table Entry steps). -/
def abortPoint (s : State) (target : Nat) : Nat := Config.openNat s.free % (if target ≤ 2 then 2 else 3)

/-- A wake arrives after abort point A2 of an entry to WINTER; whether it does is open (R349). -/
def pastA2 (s : State) (target : Nat) : Bool := target == 4 && Config.openNat (s.free + 1) % 2 == 1

/-- DOMAIN_WAKE: an entry not past A2 is abandoned, one past it is finished first; then the domain wakes (R349, R351). -/
def wake (d : Nat) (s : State) : State :=
  match (pdom s d).entering with
  | some st =>
    let s1 := { s with free := s.free + 2 }
    if pastA2 s st then wakeNow d (finishEntry d s1)
    else wakeNow d (modPdom d (fun x =>
      { x with entering := none, aborts := sat32 x.aborts 1, lastAbort := (abortPoint s st, st) }) s1)
  | none => wakeNow d s

/-! ### Entries and refusals (R352, R355) -/

/-- Grants held in a domain: by its elements, or of CRYPTO's resources (table Refusers, code 1). -/
def grantHeld (s : State) (d : Nat) : Bool :=
  s.pwr.owners.any fun p =>
    if isQuad d then quadGrant s d
    else if d = 8 then p.2.who == 16
    else if d = 9 then p.2.who == 18 || p.2.who == 19 || p.2.who == 20 || decide (8 ≤ p.1)
    else if d = 12 then decide (p.1 ≤ 7) else false

/-- Debug holds a domain out of DORMANT and WINTER. -/
def debugHolds (s : State) (st : Nat) : Bool := s.dev.debugUnlocked && decide (3 ≤ st)

/-- The refusers of an entry to a state, by code; code 3 comes from the DRAM's refresh, which the model does not time. -/
def refusersOf (s : State) (d st : Nat) (refresh : Bool) : List Nat :=
  (if grantHeld s d then [1] else [])
    ++ (if isLaneGroup d && decide ((pdom s d).ceiling < st) && laneCoreRuns s (d - 4) then [2] else [])
    ++ (if d = 8 && refresh then [3] else [])
    ++ (if (pdom s d).floor < st then [4] else [])
    ++ (if debugHolds s st then [5] else [])
    ++ (if s.dev.phase = .running then [] else [6])

/-- A refusal: counted once per refuser and idle period, and logged (R355). -/
def refuse (d st : Nat) (s : State) (code : Nat) : State :=
  modPdom d (fun x =>
    if code ∈ x.refusedBy then x
    else
      { x with refusals := sat32 x.refusals 1, refusedBy := code :: x.refusedBy,
               log := ((code, st, tb6 s / 1000 % 2 ^ 32) :: x.log).take 16,
               head := if x.log = [] then 0 else (x.head + 1) % 16 }) s

/-- An entry to a state is tried. -/
def tryEntry (d st : Nat) (refresh : Bool) (s : State) : State :=
  match refusersOf s d st refresh with
  | [] => modPdom d (fun x => { x with entering := some st }) s
  | l => l.foldl (refuse d st) s

/-- The next enabled state below the one a domain is in, or is entering (R352). -/
def nextState (s : State) (d : Nat) : Option Nat :=
  let x := pdom s d
  [1, 2, 3, 4].find? fun st => decide (x.entering.getD x.state < st) && hasState s d st && x.timers.getD (st - 1) 0 != 0

/-- A domain has no work the model holds (table Power domains, Idle when): no frame to open for a quad, none queued or sent in a lane
group, no request for a bus and no drain due in STOR, no frame for an Ethernet port, no request for a unit of CRYPTO, no waveform and no
boot strip in DISPLAY. What MEM accesses the manual gives no row for. -/
def domIdle (s : State) (d : Nat) : Bool :=
  if isQuad d then s.prot.intake.all fun e => entryQuad s e != some d
  else if isLaneGroup d then
    (List.range 4).all fun i => (port s (4 * (d - 4) + i)).queue == [] && inProgress s (4 * (d - 4) + i) == []
  else if d = 9 then (s.pwr.queue.all fun x => x.wants.all fun r => decide (r ≤ 7)) && decide (10 * dirtyBytes s ≤ 9 * ceiling s)
  else if isEth d then s.pwr.sending.all fun x => x.1 != d
  else if d = 12 then s.pwr.queue.all fun x => x.wants.all fun r => decide (8 ≤ r)
  else if d = 13 then s.lau.running.isNone && s.dev.devReady && !s.lau.recovering && !s.lau.ctrl.getLsbD 1
  else true

/-- DOMAIN_ENTRY: the idle timer of the next enabled state has passed (R345, R352). -/
def domainEntry (d : Nat) (refusers : List Nat) (s : State) : State :=
  if isDomain d ∧ domIdle s d then
    match nextState s d with
    | some st => tryEntry d st (refusers.contains 3) s
    | none => s
  else s

/-- A domain above its ceiling enters it at once (R352). -/
def holdDown (d : Nat) (s : State) : State :=
  let x := pdom s d
  if x.entering = none ∧ x.state < ceilNow s d then tryEntry d (ceilNow s d) false s else s

/-- Every entry in progress is complete, and a ceiling written during one applies (R348, table Power and arbitration
coincidences). -/
def finishEntries (s : State) : State :=
  (List.range 14).foldl (fun t d => if (pdom t d).entering = none then t else holdDown d (finishEntry d t)) s

/-! ### PWR_LIMIT and the timers (R352, R353) -/

/-- A ceiling below RUN is accepted (R353). -/
def ceilingOk (s : State) (d c : Nat) : Bool :=
  if isQuad d then (List.range 4).any fun q => q != d && (pdom s q).ceiling == 0
  else if isLaneGroup d then (liveIn s (d - 4)).all fun x => x.act.macType != 1
  else if isEth d then c == 1 || ethDisabled s d
  else d == 13

/-- The limit a write asks for: FLOOR, CEILING and DVFS_MAX, which is ignored elsewhere than in quads (table PWR_LIMIT). -/
def limitAsked (s : State) (d : Nat) (v : Word) : Nat × Nat × Nat :=
  (bits v 0 3, bits v 4 3, if isQuad d then bits v 8 2 else (pdom s d).dvfsMax)

/-- A FLOOR within the domain's states and a CEILING no deeper than it; any other write is ignored as a whole (R60). -/
def limitFits (d : Nat) (v : Word) : Bool := decide (bits v 0 3 ≤ deepest d) && decide (bits v 4 3 ≤ bits v 0 3)

/-- The fastest point a quad may run at now: DVFS_MAX, and point 2 under the thermal hold (R354, R428). -/
def pointLimit (s : State) (d : Nat) : Nat := max (pdom s d).dvfsMax (if s.dev.thermalHold then 2 else 0)

/-- PWR_LIMIT is written: a ceiling raised to RUN wakes the domain, one below its state's takes it down; banks below RUN
watch (R351 to R353). -/
def writeLimit (d : Nat) (v : Word) (s : State) : State :=
  if ¬ isDomain d then s
  else
    let (f, c, m) := limitAsked s d v
    if ¬ limitFits d v ∨ (c ≠ 0 ∧ ¬ ceilingOk s d c) then s
    else
      let old := (pdom s d).ceiling
      let s1 := modPdom d (fun x =>
        { x with limit := BitVec.ofNat 32 (f + 16 * c + 256 * m), watch := isLaneGroup d && decide (c ≠ 0) }) s
      let s2 := if isQuad d then modPdom d (fun x => { x with point := max x.point (pointLimit s1 d) }) s1 else s1
      if c < old then wake d s2 else holdDown d s2

/-- A timer of a domain is written; ignored where the non-zero timers would not rise strictly (R352). -/
def writeTimer (d i : Nat) (v : Word) (s : State) : State :=
  if isDomain d then
    let l := (pdom s d).timers.set i v.toNat
    let live := l.filter fun t => t != 0
    if decide ((live.zip live.tail).all fun p => decide (p.1 < p.2)) then modPdom d (fun x => { x with timers := l }) s else s
  else s

/-- PWR_STATE (table PWR_STATE). -/
def pwrState (s : State) (d : Nat) : Word :=
  let x := pdom s d
  BitVec.ofNat 32 (x.state + flag 3 x.entering.isSome + flag 4 x.watch + flag 5 (isLaneGroup d && laneCoreRuns s (d - 4))
    + 256 * x.point)

/-! ### Capture bursts (R139, R351, R353) -/

/-- WATCH_BURST_START: wideband capture begins, and the banks wake to RUN for it. -/
def watchStart (g : Nat) (s : State) : State :=
  guarded ((Tbl.getD s.pwr.doms (4 + g) {}).watch && inBurst s g && decide (g < 4) && !decide (g ∈ s.lane.watchBurst))
    (fun s => wake (4 + g) (s.onLane fun l => { l with watchBurst := g :: l.watchBurst })) s

/-- WATCH_BURST_END: the banks go back to their ceiling. -/
def watchEnd (g : Nat) (s : State) : State :=
  guarded (!(inBurst s g) && decide (g < 4))
    (fun s => holdDown (4 + g) (s.onLane fun l => { l with watchBurst := l.watchBurst.filter fun x => x != g })) s

/-! ### Wakes that fail, operating points (R351, R354) -/

/-- What a domain whose wake failed twice takes with it (R351). -/
def wakeFailed (d : Nat) (s : State) : State :=
  if isQuad d then s.onPwr fun p => { p with deadEngines := p.deadEngines ++ (List.range 4).map fun i => 4 * d + i }
  else if isLaneGroup d then (List.range 4).foldl (fun t i => portLockLost (4 * (d - 4) + i) t) s
  else if isEth d then linkDown (d - 10) s
  else hold 6 (s.onDev fun x => { x with acceptStopped := true, devReady := false })

/-- WAKE_FAULT: a ready signal is missing for 100 µs; the wake is repeated once, and then the domain is failed. Which
signal is missing is open. -/
def wakeFault (d : Nat) (s : State) : State :=
  if isDomain d ∧ (pdom s d).state ≠ 0 then
    if (pdom s d).wakeFails = 0 then
      let data := le 1 d ++ le 1 (Config.openNat s.free % 4)
      report 0x1031 kDevice 0 data 0x1004 0 0 data ({ modPdom d (fun x => { x with wakeFails := 1 }) s with free := s.free + 1 })
    else if (pdom s d).wakeFails = 1 then wakeFailed d (modPdom d (fun x => { x with wakeFails := 2 }) s)
    else s
  else s

/-- One quad at the end of a 10 ms window in which foreground work waited for a share of it, in % (R354). -/
def dvfsQuad (busy : List Nat) (s : State) (q : Nat) : State :=
  let w := busy.getD q 0
  modPdom q (fun x =>
    if 20 < w then { x with point := max (x.point - 1) (pointLimit s q), low := 0 }
    else if w < 5 then
      if 10 ≤ x.low + 1 then { x with point := max (min (x.point + 1) 3) (pointLimit s q), low := 0 } else { x with low := x.low + 1 }
    else { x with low := 0 }) s

/-- DVFS_WINDOW. -/
def dvfsWindow (busy : List Nat) (s : State) : State := (List.range 4).foldl (dvfsQuad busy) s

/-- Every quad held at point 2 or slower, or released to its own limit (R428). -/
def thermalPoints (s : State) : State :=
  (List.range 4).foldl (fun t q => modPdom q (fun x => { x with point := max x.point (pointLimit s q) }) t) s

/-- Every domain in DORMANT or WINTER wakes to RUN (R356). -/
def wakeDeep (s : State) : State :=
  (List.range 14).foldl (fun t d => if 3 ≤ (pdom t d).entering.getD (pdom t d).state then wake d t else t) s

/-- The states of the hold-up sequence; each entry it makes or ends counts (R357, table Hold-up configuration). -/
def holdUpStates (s : State) : State :=
  (List.range 14).foldl (fun t d =>
    if d = 8 ∨ d = 9 then settleIn d 0 t
    else if (pdom t d).state = 4 then settleIn d 4 t
    else finishEntry d (modPdom d (fun x => { x with entering := some 4 }) t)) s

/-! ### Hawthorn (R359 to R364) -/

/-- MEM cycles of 1.25 ns since TB6 started. -/
def memCycle (s : State) : Nat := tb6 s * 4 / 5

/-- A requester of deadline class. -/
def deadline (who : Nat) : Bool := decide (19 ≤ who ∧ who ≤ 21)

/-- A requester that the table lists. -/
def requester (who : Nat) : Bool := decide (who ≤ 21)

/-- The resources a request may name: one, or a pool (table Hawthorn resources). -/
def wantsOk (l : List Nat) : Bool :=
  l == [0, 1, 2, 3] || l == [4, 5] || (match l with | [r] => decide (r ≤ 15) | _ => false)

/-- One age is older than another by serial arithmetic (R360). -/
def older (a b : Word) : Bool := serialAfter32 b a

/-- A request comes before another: class, then age, then requester ID (R361). -/
def beforeReq (a b : Request) : Bool :=
  if deadline a.who = deadline b.who then older a.age b.age || (a.age == b.age && decide (a.who < b.who)) else deadline a.who

/-- The request a free resource goes to. -/
def winner (q : List Request) (r : Nat) : Option Request :=
  (q.filter fun x => decide (r ∈ x.wants)).foldl (fun best x =>
    match best with
    | none => some x
    | some b => if beforeReq x b then some x else some b) none

/-- The domain of a resource. -/
def domainOfRes (r : Nat) : Nat := if r ≤ 7 then 12 else 9

/-- A resource is granted: counted, with its wait (R360, R361). -/
def grant (r : Nat) (x : Request) (s : State) : State :=
  let now := memCycle s
  let waited := ((BitVec.ofNat 32 now - x.age).toNat)
  s.onPwr fun p =>
    { p with owners := Tbl.put p.owners r { who := x.who, age := x.age, length := x.length, locked := x.locked, at_ := now, wants := x.wants },
             queue := p.queue.erase x,
             res := Tbl.upd p.res r (0#32, 0#32) fun w => (sat32 w.1 1, if w.2.toNat < waited then BitVec.ofNat 32 waited else w.2) }

/-- A free resource goes to the next request that wants it. -/
def arbitrate (r : Nat) (s : State) : State :=
  if (Tbl.get s.pwr.owners r).isSome then s
  else match winner s.pwr.queue r with
    | some x => grant r x s
    | none => s

/-- The youngest ordinary unlocked owner among the members a request wants (R362). -/
def revocable (s : State) (wants : List Nat) : Option (Nat × Grant) :=
  (s.pwr.owners.filter fun p => decide (p.1 ∈ wants) && !deadline p.2.who && !p.2.locked).foldl (fun best p =>
    match best with
    | none => some p
    | some b => if older b.2.age p.2.age then some p else some b) none

/-- A grant ends. -/
def endGrant (r : Nat) (s : State) : State := s.onPwr fun p => { p with owners := Tbl.del p.owners r }

/-- A grant is revoked: its owner asks again with its original age (R362). -/
def revoke (r : Nat) (g : Grant) (s : State) : State :=
  let again : Request := { who := g.who, wants := g.wants, age := g.age, length := g.length, locked := g.locked }
  (endGrant r s).onPwr fun p => { p with queue := p.queue ++ [again], revokes := sat32 p.revokes 1 }

/-- A requester's requests are ignored (R364). -/
def cutOff (s : State) (who : Nat) : Bool := s.pwr.disabled.getLsbD who

/-- The requester holds a locked sequence. -/
def holdsLock (s : State) (who : Nat) : Bool := s.pwr.owners.any fun p => p.2.who == who && p.2.locked

/-- HAWTHORN_REQUEST: stamped, its domain woken, and granted, revoking where a deadline needs it, or left waiting; during the hold-up
sequence no wake interrupts a domain's state, and the request waits (R357, R360 to R363). -/
def hwRequest (q : HwReq) (s : State) : State :=
  if ¬ (requester q.who && wantsOk q.wants) || cutOff s q.who || (q.locked && holdsLock s q.who) then s
  else
    let x : Request := { who := q.who, wants := q.wants, age := BitVec.ofNat 32 (memCycle s), length := q.length, locked := q.locked }
    let d := domainOfRes (q.wants.headD 0)
    let asleep := !((pdom s d).state == 0 && (pdom s d).entering.isNone)
    let s1 := if asleep ∧ s.dev.phase = .running then wake d s else s
    let s2 := s1.onPwr fun p => { p with queue := p.queue ++ [x] }
    if asleep ∧ s.dev.phase ≠ .running then s2
    else match q.wants.find? fun r => (Tbl.get s.pwr.owners r).isNone with
    | some r => arbitrate r s2
    | none =>
      if deadline q.who then
        match revocable s2 q.wants with
        | some (r, g) => grant r x (revoke r g s2)
        | none => s2
      else s2

/-- Domains held at a ceiling that a grant kept up try again (R355). -/
def retryHolds (s : State) : State := (List.range 14).foldl (fun t d => holdDown d t) s

/-- HAWTHORN_RELEASE: the owner's data phase ends and the grant passes (R360). -/
def hwRelease (r : Nat) (s : State) : State :=
  if (Tbl.get s.pwr.owners r).isSome then retryHolds (arbitrate r (endGrant r s)) else s

/-- A grant is over bound (R364). -/
def overBound (s : State) (g : Grant) : Bool :=
  decide (1048576 < g.length) || decide (g.length + s.pwr.holdLimit.toNat < memCycle s - g.at_)

/-- Cut-offs of a requester within the last hour. -/
def recentCuts (s : State) (who : Nat) : Nat :=
  (s.pwr.cutHistory.filter fun p => p.1 == who && decide (tb6 s < p.2 + nsHour)).length

/-- ARBITER_CUTOFF: the owner is cut off and disabled; the third within an hour stays so until reset, but for a deadline
requester (R364). -/
def cutoff (r : Nat) (s : State) : State :=
  match Tbl.get s.pwr.owners r with
  | none => s
  | some g =>
    if ¬ overBound s g then s
    else
      let data := le 1 g.who ++ le 1 r ++ zeros 2 ++ le 4 (memCycle s - g.at_)
      let s1 := (endGrant r s).onPwr fun p =>
        { p with disabled := p.disabled ||| BitVec.ofNat 32 (2 ^ g.who), cutoffs := sat32 p.cutoffs 1,
                 cutHistory := (g.who, tb6 s) :: p.cutHistory, queue := p.queue.filter fun x => x.who != g.who }
      let s2 := report 0x1020 kDevice 0 data 0x1001 1 0 data s1
      let s3 := if 3 ≤ recentCuts s2 g.who then
          report 0x1022 kDevice 0 (le 1 g.who) 0x1002 0 0 (le 1 g.who)
            (if deadline g.who then s2 else s2.onPwr fun p => { p with dead := g.who :: p.dead })
        else s2
      retryHolds (arbitrate r s3)

/-- The wait before the CP re-admits a requester has passed (R364). -/
def readmitDue (s : State) (who : Nat) : Bool :=
  deadline who || (s.pwr.cutHistory.all fun p => p.1 != who || decide (p.2 + nsMs ≤ tb6 s))

/-- ARBITER_READMIT (R364). -/
def readmit (who : Nat) (s : State) : State :=
  if cutOff s who ∧ who ∉ s.pwr.dead ∧ readmitDue s who then
    yew 0x1021 kDevice 0 (le 1 who) (s.onPwr fun p => { p with disabled := p.disabled &&& ~~~ BitVec.ofNat 32 (2 ^ who) })
  else s

/-- HW_HOLD_LIMIT is written; other values are ignored (table Hawthorn registers). -/
def writeHoldLimit (v : Word) (s : State) : State :=
  if 1024 ≤ v.toNat ∧ v.toNat ≤ 65535 then s.onPwr fun p => { p with holdLimit := v } else s

/-! ### Hold-up budget (R40, R414) -/

/-- HOLDUP_BUDGET_SET: 5 to 200 ms, with a ceiling of at least 512 KiB; a lower one lowers the ceiling (R40). -/
def holdupBudgetSetDef : CmdDef :=
  { opcode := 0x0D01, role := fun _ => .oper
    args := fun s c => orFail (decide (5 ≤ c.arg 0 2 ∧ c.arg 0 2 ≤ 200 ∧ 524288 ≤ ceilingOf s (c.arg 0 2))) stOutOfRange
    objects := fun _ _ => [(8, 0)]
    act := fun c s =>
      let s1 := s.onProt fun p => { p with budget := c.arg 0 2 }
      let s2 := s1.onProt fun p => { p with lowering := (p.lowering || decide (ceiling s1 < ceiling s)) && decide (ceiling s1 ≤ dirtyBytes s1) }
      (.result (le 4 (ceiling s2)), latchLowered s s2) }

/-- HOLDUP_STATUS (R414). -/
def holdupStatusDef : CmdDef :=
  inlineRead 0x0D02 fun s _ =>
    le 2 s.prot.budget ++ le 1 (flag 0 s.prot.lowering) ++ le 1 0 ++ le 4 (ceiling s) ++ le 4 (dirtyBytes s) ++ le 4 s.prot.refused

/-! ### The meanings -/

/-- A domain's own events go on during the hold-up sequence, where every entry is refused. -/
def poweredUp (f : State → State) (s : State) : Host.Outcome State Fault Refusal :=
  match s.dev.phase with
  | .running => .next (settle s (f s))
  | .flushing => .next (settle s (f s))
  | .flushed => .next (settle s (f s))
  | _ => .next s

def execHoldupBudgetSet (d : Desc) (s : State) : Host.Outcome State Fault Refusal := runCmd holdupBudgetSetDef (.holdupBudgetSet d) d s
def execHoldupStatus (d : Desc) (s : State) : Host.Outcome State Fault Refusal := runCmd holdupStatusDef (.holdupStatus d) d s
def execDomainEntry (d : Nat) (l : List Nat) (s : State) : Host.Outcome State Fault Refusal := poweredUp (domainEntry d l) s
def execDomainWake (d : Nat) (s : State) : Host.Outcome State Fault Refusal := whileRunning (guarded (isDomain d) (wake d)) s
def execWakeFault (d : Nat) (s : State) : Host.Outcome State Fault Refusal := whileRunning (wakeFault d) s
def execDvfsWindow (busy : List Nat) (s : State) : Host.Outcome State Fault Refusal := whileRunning (dvfsWindow busy) s
def execHawthornRequest (r : HwReq) (s : State) : Host.Outcome State Fault Refusal := poweredUp (hwRequest r) s
def execHawthornRelease (r : Nat) (s : State) : Host.Outcome State Fault Refusal := poweredUp (hwRelease r) s
def execArbiterCutoff (r : Nat) (s : State) : Host.Outcome State Fault Refusal := poweredUp (cutoff r) s
def execArbiterReadmit (who : Nat) (s : State) : Host.Outcome State Fault Refusal := poweredUp (readmit who) s
def execWatchBurstStart (g : Nat) (s : State) : Host.Outcome State Fault Refusal := whileRunning (watchStart g) s
def execWatchBurstEnd (g : Nat) (s : State) : Host.Outcome State Fault Refusal := whileRunning (watchEnd g) s
def execPwrLimit (d : Nat) (v : Word) (s : State) : Host.Outcome State Fault Refusal := whileRunning (writeLimit d v) s

end Sys2Proof.Machine
end

