-- ==== Sys2Proof/Machine/LaurelOps.lean ====
section
/-!
DEFINITION. Laurel: the segment panel's updates, waveforms, books and recovery, and the boot strip (18, R414).
-/

namespace Sys2Proof.Machine

/-! ### Registers and frame memory (tables Laurel window and Laurel registers) -/

/-- Fields of LAUREL_CTRL. -/
def lauEnabled (s : State) : Bool := s.lau.ctrl.getLsbD 0
def stripOn (s : State) : Bool := s.lau.ctrl.getLsbD 1
def stripHost (s : State) : Bool := s.lau.ctrl.getLsbD 2
def hostTemp (s : State) : Bool := s.lau.ctrl.getLsbD 3
def segsFitted (s : State) : Nat := if bits s.lau.ctrl 4 7 = 0 then 80 else min (bits s.lau.ctrl 4 7) 80

/-- Bytes of the window. -/
def lauBytes (s : State) (off n : Nat) : Bytes := Memory.readN s.lau.mem off n

/-- A panel segment. -/
def seg (s : State) (i : Nat) : Seg := Tbl.getD s.lau.segs i {}

/-- A panel segment changed. -/
def modSeg (i : Nat) (f : Seg → Seg) (s : State) : State := s.onLau fun l => { l with segs := Tbl.upd l.segs i {} f }

/-- The display's ceiling is RUN (R353, R370). -/
def displayRuns (s : State) : Bool := (pdom s 13).ceiling == 0

/-- The panel temperature in force, in 0.5 °C (R367). -/
def panelTempNow (s : State) : Int :=
  if hostTemp s then signed 2 (bits s.lau.panelTemp 0 16) else s.dev.junction + signed 2 (bits s.lau.tempOffset 0 16)

/-! ### Bands and waveforms (R366, R367, R369) -/

/-- A row of the band table: VALID, bound in 0.5 °C, VBP in 25 mV, set. -/
def bandRow (s : State) (i : Nat) : Bool × Int × Int × Nat :=
  let b := lauBytes s (0x1000 + 16 * i) 6
  (field b 0 1 % 2 == 1, fieldS b 1 2, fieldS b 3 2, field b 5 1 % 8)

/-- The band in force for the next update: the lowest valid one whose bound is at or above the temperature, or the highest
valid one; a lower band than the present needs 1 °C more (R367). -/
def chooseBand (s : State) : Option Nat :=
  let valid := (List.range 8).filter fun i => (bandRow s i).1
  let t := panelTempNow s
  let fits (i : Nat) : Bool :=
    decide (t ≤ (bandRow s i).2.1 - if (bandRow s s.lau.band).1 ∧ i < s.lau.band then 2 else 0)
  match valid.find? fits with
  | some i => some i
  | none => valid.getLast?

/-- The level of a code in units of 25 mV; TIE counts as 0 (table Segment levels). -/
def segLevel (c : Nat) : Int :=
  match c with
  | 1 => 600
  | 2 => 400
  | 3 => 200
  | 5 => -200
  | 6 => -400
  | 7 => -600
  | _ => 0

/-- A waveform of a set: 0 to 3 the transitions, 4 and 5 the resets; its length byte and its codes. -/
def waveform (s : State) (set k : Nat) : Nat × List Nat :=
  let w := lauBytes s (0x2000 + 512 * set + 64 * k) 64
  let n := field w 0 1
  (n, (List.range (min n 64)).map fun i => field w (1 + i / 2) 1 / 16 ^ (i % 2) % 16)

/-- What is wrong with a waveform: 1 reserved code, 2 length, 3 not balanced (R369). -/
def waveFault (w : Nat × List Nat) : Option Nat :=
  if w.2.any fun c => decide (8 ≤ c) then some 1
  else if w.1 < 1 ∨ 64 < w.1 then some 2
  else if (w.2.map segLevel).sum ≠ 0 then some 3
  else none

/-- The reason an update that uses some waveforms is refused for: the first in the order of the reasons (R369). -/
def waveFaults (l : List (Nat × List Nat)) : Option Nat := (l.filterMap waveFault).min?

/-- The rebalance phase of a book under a backplane voltage (R372). -/
def rebalance (book vbp : Int) : List Nat :=
  if book = 0 then []
  else
    let code := if book < 0 then 2 else 6
    let per := (segLevel code - vbp).natAbs
    if per = 0 then [] else List.replicate (min 64 (halfEven (book.natAbs : Int) per).toNat) code

/-! ### Updates (R368, R370, R372) -/

/-- The target frame memory gives a segment; other values than CLEAR and DARK leave it as it is. -/
def askedTarget (s : State) (i : Nat) : Nat :=
  let b := field (lauBytes s (0x100 + i) 1) 0 1
  if b ≤ 1 then b else (seg s i).state

/-- A segment that recovers in an update: named, INTERRUPTED, or over BOOK_LIMIT. -/
def recovers (s : State) (i : Nat) : Bool :=
  s.lau.recoverMask.getLsbD i || (seg s i).interrupted || decide (s.lau.bookLimit.toNat < (seg s i).book.natAbs)

/-- The waveform index a segment takes from its band's set, and where it leads; none when it is not driven. -/
def segPlan (s : State) (force : Option Bool) (i : Nat) : Option (Nat × Nat × Bool) :=
  let x := seg s i
  if recovers s i then
    let t := if x.interrupted then x.target else if askedTarget s i = 1 then 1 else 0
    some (4 + t, t, true)
  else match force with
    | none => none
    | some f =>
      let t := askedTarget s i
      if x.state ≥ 2 then (if t ≤ 1 then some (4 + t, t, false) else none)
      else if f ∨ t ≠ x.state then some (2 * x.state + t, t, false)
      else none

/-- The segments of an update: segment, waveform index, target, recovery. -/
def updatePlan (s : State) (force : Option Bool) : List (Nat × Nat × Nat × Bool) :=
  (List.range (segsFitted s)).filterMap fun i => (segPlan s force i).map fun p => (i, p)

/-- An update is due at a frame boundary: UPDATE, or segments to recover. -/
def updateDue (s : State) : Bool :=
  (s.lau.requested.isSome || s.lau.pending.isSome || s.lau.recoverMask != 0#80) && displayRuns s

/-- FORCE_ALL of the update due; none when only a recovery is due. -/
def dueForce (s : State) : Option Bool :=
  match s.lau.requested, s.lau.pending with
  | some a, some b => some (a || b)
  | some a, none => some a
  | none, p => p

/-- The segments whose INTERRUPTED mark stands. -/
def interruptedMask (s : State) : BitVec 80 :=
  s.lau.segs.foldl (fun m p => if p.2.interrupted then m ||| BitVec.ofNat 80 (2 ^ p.1) else m) 0#80

/-- A refused update drives nothing (R369); interrupted segments stay due. -/
def refuseUpdate (reason : Nat) (s : State) : State :=
  s.onLau fun l =>
    { l with refused := true, reason, requested := none, pending := none, recoverMask := interruptedMask s }

/-- The update ends: every driven segment stands at its target (R368, R372). -/
def endUpdate (ds : List Drive) (s : State) : State :=
  let s1 := ds.foldl (fun t d => modSeg d.seg (fun x => { x with state := d.target, interrupted := false }) t) s
  let s2 := s1.onLau fun l => { l with running := none, updates := l.updates + 1, recovering := false }
  let n := (ds.filter fun d => d.recovery).length
  if n = 0 then s2 else yew 0x1040 kDevice 0 (le 1 n) s2

/-- An update starts: band, snapshot and waveforms checked and taken (R367 to R370). -/
def beginUpdate (s : State) : State :=
  match chooseBand s with
  | none => if s.lau.requested.isNone && s.lau.pending.isNone then s else refuseUpdate 2 s
  | some b =>
    let (_, _, vbp, set) := bandRow s b
    let plan := updatePlan s (dueForce s)
    match waveFaults (plan.map fun p => waveform s set p.2.1) with
    | some r => refuseUpdate r s
    | none =>
      let ds := plan.map fun p =>
        { seg := p.1, codes := (if p.2.2.2 then rebalance (seg s p.1).book vbp else []) ++ (waveform s set p.2.1).2,
          target := p.2.2.1, recovery := p.2.2.2 : Drive }
      let s1 := ds.foldl (fun t d => modSeg d.seg (fun x => { x with target := d.target }) t) s
      let s2 := s1.onLau fun l =>
        { l with running := some ds, requested := none, pending := none, recoverMask := 0#80, band := b, vbp,
                 recovering := ds.any fun d => d.recovery }
      if ds = [] then endUpdate [] s2 else s2

/-- A frame at a code is charged to a segment's book (R370). -/
def chargeFrame (d : Drive) (s : State) : State :=
  match d.codes with
  | [] => s
  | c :: _ => if c = 0 then s else modSeg d.seg (fun x => { x with book := saturate 4 (x.book + segLevel c - s.lau.vbp) }) s

/-- The drives after the frame that ends. -/
def nextFrame (ds : List Drive) : List Drive := ds.map fun d => { d with codes := d.codes.tail }

/-- The drive stops: a segment that has finished stands at its target, the others are INTERRUPTED (R371). -/
def stopDrive (ds : List Drive) (s : State) : State :=
  (ds.foldl (fun t d => modSeg d.seg (fun x =>
    if d.codes = [] then { x with state := d.target, interrupted := false } else { x with state := 2, interrupted := true }) t) s).onLau
    fun l => { l with running := none }

/-- A part of a frame at a code is charged: its driven time in ns is open (R371). -/
def chargePart (ns : Nat) (d : Drive) (s : State) : State :=
  match d.codes with
  | [] => s
  | c :: _ =>
    if c = 0 then s
    else modSeg d.seg (fun x =>
      { x with book := saturate 4 (x.book + halfEven ((segLevel c - s.lau.vbp) * (ns : Int)) 20000000) }) s

/-- The drive stops inside a frame (R371). -/
def stopInFrame (s : State) : State :=
  match s.lau.running with
  | none => s
  | some ds => stopDrive ds (ds.foldl (fun t d => chargePart (Config.openNat s.free % 20000000) d t) { s with free := s.free + 1 })

/-- The pump is started by the first update after ENABLE (R366). -/
def startPump (s : State) : State :=
  if lauEnabled s ∧ s.lau.pumpAt = none then s.onLau fun l => { l with pumpAt := some (tb6 s) } else s

/-- The rails come within 3 % at most 20 ms after the pump's start; when is open (R366). -/
def pumpReady (s : State) : State :=
  match s.lau.pumpAt with
  | some t =>
    if tb6 s < t + 20 * nsMs then
      { s.onLau fun l => { l with pumpOk := Config.openNat s.free % 2 == 1 } with free := s.free + 1 }
    else s
  | none => s

/-- DISPLAY_FRAME: the frame that ends is charged; an update ends or starts at its boundary (R368, R370, R371). -/
def displayFrame (s : State) : State :=
  match s.lau.running with
  | some ds =>
    let s1 := ds.foldl (fun t d => chargeFrame d t) s
    let ds1 := nextFrame ds
    if ds1.all fun d => d.codes == [] then endUpdate ds1 s1
    else if s.dev.phase ≠ .running then stopDrive ds1 s1
    else s1.onLau fun l => { l with running := some ds1 }
  | none =>
    if s.dev.phase = .running ∧ lauEnabled s ∧ updateDue s then
      let s1 := if s.lau.pumpOk then s else pumpReady (startPump s)
      if s1.lau.pumpOk then beginUpdate s1 else s1
    else s

/-- LAUREL_UPDATE: UPDATE starts an update at the next boundary, or becomes or merges into PENDING; it clears REFUSED
(R368 to R370). -/
def laurelUpdate (v : Word) (s : State) : State :=
  if ¬ v.getLsbD 0 || !lauEnabled s then s
  else
    let f := v.getLsbD 1
    let merge (o : Option Bool) : Option Bool := some (f || o.getD false)
    let s1 := s.onLau fun l => { l with refused := false }
    if s.lau.running.isSome || !displayRuns s then s1.onLau fun l => { l with pending := merge l.pending }
    else startPump (s1.onLau fun l => { l with requested := merge l.requested })

/-- DISPLAY_PUMP_TIMEOUT: PUMP_OK stays clear 20 ms after the pump's start: the update is refused (R369). -/
def pumpTimeout (s : State) : State :=
  match s.lau.pumpAt with
  | some t =>
    if ¬ s.lau.pumpOk ∧ t + 20 * nsMs ≤ tb6 s then
      report 0x1041 kDevice 0 [] 0x1008 2 0 [] ((refuseUpdate 4 s).onLau fun l => { l with pumpAt := none })
    else s
  | none => s

/-! ### Commands (R414) -/

/-- A segment mask argument. -/
def segMask (c : Ctx) : BitVec 80 := BitVec.ofNat 80 (c.arg 0 10)

def displayRecoverDef : CmdDef :=
  { opcode := 0x0E01, role := fun _ => .oper
    state := fun s _ => orFail (lauEnabled s) stStateConflict
    act := fun c s => (.result [], startPump (s.onLau fun l => { l with recoverMask := l.recoverMask ||| segMask c })) }

def displayBookResetDef : CmdDef :=
  { opcode := 0x0E02, role := fun _ => .secur
    state := fun s _ => orFail s.lau.running.isNone stStateConflict
    act := fun c s =>
      (.result [], (List.range 80).foldl (fun t i =>
        if (segMask c).getLsbD i then modSeg i (fun x => { x with book := 0, state := 0 }) t else t) s) }

/-! ### Register writes -/

/-- LAUREL_CTRL: more than 80 segments fitted are not taken; ENABLE cleared stops the pump. -/
def writeLaurelCtrl (v : Word) (s : State) : State :=
  if 80 < bits v 4 7 then s
  else
    let s1 := s.onLau fun l => { l with ctrl := v &&& 0x7FF#32 }
    if v.getLsbD 0 then s1 else s1.onLau fun l => { l with pumpOk := false, pumpAt := none }

/-- A register of the window is written. -/
def writeLaurelReg (off : Nat) (v : Word) (s : State) : State :=
  match off with
  | 0x00 => writeLaurelCtrl v s
  | 0x04 => laurelUpdate v s
  | 0x0C => s.onLau fun l => { l with panelTemp := v &&& 0xFFFF#32 }
  | 0x10 => s.onLau fun l => { l with tempOffset := v &&& 0xFFFF#32 }
  | 0x14 => if 1000 ≤ v.toNat ∧ v.toNat ≤ 1000000 then s.onLau fun l => { l with bookLimit := v } else s
  | _ => s

/-- The stored value of a register of the window, for byte writes into it. -/
def laurelReg (s : State) (off : Nat) : Word :=
  match off with
  | 0x00 => s.lau.ctrl
  | 0x0C => s.lau.panelTemp
  | 0x10 => s.lau.tempOffset
  | 0x14 => s.lau.bookLimit
  | _ => 0#32

/-- Frame memory that may be written: segment targets, the six listed bytes of each band row, the six waveforms of each set, and
the strip; every other byte is reserved or not listed and reads as zero (R6, R58, table Laurel window). -/
def frameByte (off : Nat) : Bool :=
  decide (0x100 ≤ off ∧ off < 0x150) || decide (0x1000 ≤ off ∧ off < 0x1080 ∧ off % 16 < 6)
    || decide (0x2000 ≤ off ∧ off < 0x3000 ∧ off % 512 < 384) || decide (0x4000 ≤ off ∧ off < 0x4180)

/-- A byte of frame memory is written. -/
def writeFrameByte (off : Nat) (b : Byte) (s : State) : State :=
  if frameByte off then s.onLau fun l => { l with mem := Memory.write l.mem off b } else s

/-- LAUREL_STATUS (table Laurel registers). -/
def laurelStatus (s : State) : Word :=
  let left := ((s.lau.running.getD []).map fun d => d.codes.length).foldl max 0
  let waits := s.lau.pending.isSome || (s.lau.running.isSome && s.lau.recoverMask != 0#80)
  BitVec.ofNat 32 (flag 0 s.lau.running.isSome + flag 1 waits + flag 2 s.lau.refused + flag 3 s.lau.recovering
    + flag 4 s.lau.pumpOk + 2 ^ 5 * (s.lau.band % 8) + 2 ^ 8 * (s.lau.reason % 16) + 2 ^ 16 * (left % 128))

/-- The status of a segment as the Book page lays it out. -/
def segStatus (x : Seg) : Bytes := le 4 (unsigned 4 x.book) ++ le 1 x.state ++ le 1 x.target ++ le 1 (flag 0 x.interrupted) ++ zeros 1

/-- The book page step 5 of a flush writes (table Book page). -/
def bookPage (s : State) : Bytes :=
  let cut := s.lau.segs.any fun p => p.2.interrupted
  let body := le 4 (0x01 + 2 ^ 8 * segsFitted s + flag 15 cut) ++ le 4 s.lau.updates.toNat ++ zeros 8
    ++ (List.range 80).flatMap fun i => segStatus (seg s i)
  body ++ le 4 (crc32c body).toNat

/-! ### Boot strip (R373) -/

/-- The strip is active: a start before DEV_READY, recovery, or STRIP_ON. -/
def stripActive (s : State) : Bool :=
  match s.dev.phase with
  | .romRecovery _ => true
  | .running => !s.dev.devReady || s.lau.recovering || stripOn s
  | _ => false

/-- VP inverts at the first burst of each whole second of TB6. -/
def stripVp (s : State) : State :=
  if tb6 s / nsPerS = s.lau.vpSecond then s else s.onLau fun l => { l with vp := !l.vp, vpSecond := tb6 s / nsPerS }

/-- The device writes the strip's content itself unless STRIP_HOST is set. -/
def stripContent (s : State) : State :=
  if stripHost s then s
  else s.onLau fun l => { l with mem := Memory.writeN l.mem 0x4000 ((List.range 384).map (Config.stripGlyph l.code)) }

/-- The bits of a byte, most significant first. -/
def byteBits (b : Byte) : List Bool := (List.range 8).map fun i => b.getLsbD (7 - i)

/-- A burst: operation, VP, count and first line, the lines, and the check (table Strip burst). -/
def stripBurst (op count : Nat) (lines : Bytes) (s : State) : State :=
  let head := be 2 (op * 2 ^ 12 + flag 11 s.lau.vp + count * 2 ^ 5)
  let body := head ++ lines
  emit (.strip ((body ++ be 2 (crc16 body).toNat).flatMap byteBits)) s

/-- STRIP_REFRESH_BURST. -/
def stripRefresh (s : State) : State :=
  guarded (stripActive s) (fun t => let u := stripContent (stripVp t); stripBurst 0b1011 24 (lauBytes u 0x4000 384) u) s

/-- STRIP_POLARITY_BURST. -/
def stripPolarity (s : State) : State := guarded (stripActive s) (fun t => stripBurst 0b0110 0 [] (stripVp t)) s

/-! ### The meanings -/

def execDisplayRecover (d : Desc) (s : State) : Host.Outcome State Fault Refusal := runCmd displayRecoverDef (.displayRecover d) d s
def execDisplayBookReset (d : Desc) (s : State) : Host.Outcome State Fault Refusal := runCmd displayBookResetDef (.displayBookReset d) d s
def execLaurelUpdate (v : Word) (s : State) : Host.Outcome State Fault Refusal := whileRunning (laurelUpdate v) s
def execDisplayFrame (s : State) : Host.Outcome State Fault Refusal := poweredUp displayFrame s
def execDisplayPumpTimeout (s : State) : Host.Outcome State Fault Refusal := whileRunning pumpTimeout s
def execStripRefreshBurst (s : State) : Host.Outcome State Fault Refusal := whileReachable stripRefresh s
def execStripPolarityBurst (s : State) : Host.Outcome State Fault Refusal := whileReachable stripPolarity s

end Sys2Proof.Machine
end

