-- ==== Sys2Proof/Machine/Recorder.lean ====
section
/-!
DEFINITION. The recorder group and the recorder's registers: freeze, clear, hold, cursor, window, reclaim (R317 to R327, R411).
-/

namespace Sys2Proof.Machine

/-! ### What is held -/

/-- YEW_OLDEST: the lowest sequence held; above the newest while none is. -/
def yewOldest (s : State) : Nat := match s.yew.records.getLast? with | some r => r.seq | none => s.yew.newest + 1

/-- A record as its 64 bytes (table Yew record). -/
def yewRecBytes (r : YewRec) : Bytes := yewHead r.seq r.ev r.staged ++ le 8 r.chain.toNat ++ le 1 1 ++ zeros 2 ++ le 1 0xC3

/-- The record of a sequence, if held. -/
def yewAt (s : State) (seq : Nat) : Option YewRec := s.yew.records.find? fun r => r.seq == seq

/-- The window's 64 places; all zero during a refill (R326). -/
def yewWindow (s : State) : Bytes :=
  if s.yew.ready then
    (List.range 64).flatMap fun i => match yewAt s (s.yew.cursor + i) with | some r => yewRecBytes r | none => zeros 64
  else zeros 4096

/-! ### Commands (R323, R327, R411) -/

/-- Appends stop; a freeze while frozen does not extend the 60 s. -/
def freezeYew (s : State) : State := if s.yew.frozen then s else s.onYew fun y => { y with frozen := true, frozenAt := tb6 s }

/-- The staged records are appended, unless appends are stopped by PFAIL_N or for want of the region (R323, R324). -/
def unfreezeYew (s : State) : State := if s.yew.frozen ∧ ¬ s.yew.hard then unstage s else s

/-- Every record is erased; RECORDER_CLEARED links to the last of them, and the cursor points at it (R327). -/
def clearYew (s : State) : State :=
  let data := le 8 s.yew.newest ++ le 8 s.yew.chain.toNat ++ le 8 s.yew.records.length
  let s1 := yew 0x3032 kDevice 0 data (s.onYew fun y => { y with records := [] })
  s1.onYew fun y => { y with cursor := s1.yew.newest, ready := false }

def yewFreezeDef : CmdDef := { opcode := 0x0A01, role := fun _ => .oper, act := fun _ s => (.result [], freezeYew s) }

def yewUnfreezeDef : CmdDef := { opcode := 0x0A02, role := fun _ => .oper, act := fun _ s => (.result [], unfreezeYew s) }

def yewHoldSetDef : CmdDef :=
  { opcode := 0x0A03, role := fun _ => .secur
    args := fun _ c => orFail (decide (30 ≤ c.arg 0 2) && decide (c.arg 0 2 ≤ 10958)) stOutOfRange
    objects := fun _ _ => [(8, 2 ^ 17 + 1)]
    act := fun c s => (.result [], s.onYew fun y => { y with hold := c.arg 0 2 }) }

def yewClearDef : CmdDef :=
  { opcode := 0x0A04, role := fun _ => .signed
    lenOk := fun _ _ n => n == 0
    state := fun s _ => orFail (!yewStaging s) stStateConflict
    objects := fun _ _ => [(8, 2 ^ 17 + 1)]
    act := fun _ s => (.result [], clearYew s) }

/-- 60 s after a freeze (R323). -/
def freezeTimeout (s : State) : State := guarded (decide (s.yew.frozenAt + 60 * nsPerS ≤ tb6 s)) unfreezeYew s

/-! ### Registers (R326) -/

/-- The cursor moves: the window refills, and appends count anew. -/
def moveCursor (c : Nat) (s : State) : State := s.onYew fun y => { y with cursor := c, ready := false, irqCount := 0 }

/-- YEW_CURSOR: a value below YEW_OLDEST or above YEW_NEWEST + 1 is ignored (R59, R326). -/
def writeYewCursor (upper : Bool) (v : Word) (s : State) : State :=
  if ¬ upper then s.onYew fun y => { y with cursorLow := v }
  else
    let c := (v ++ s.yew.cursorLow : DWord).toNat
    guarded (decide (yewOldest s ≤ c) && decide (c ≤ s.yew.newest + 1)) (moveCursor c) s

/-- The last valid record the window shows. -/
def lastShown (s : State) : Option Nat := (List.range 64).reverse.findSome? fun i => (yewAt s (s.yew.cursor + i)).map fun r => r.seq

/-- After a read of the window's last word, with AUTO_ADVANCE, the cursor moves past the last valid record shown. -/
def advanceWindow (s : State) : State :=
  if s.yew.ctrl.getLsbD 0 ∧ s.yew.ready then
    match lastShown s with
    | some q => moveCursor (q + 1) s
    | none => s
  else s

/-- The window's last word is read. -/
def lastWordRead (s : State) : State := advanceWindow (emit (.read (slice (yewWindow s) 4092 4)) s)

/-- A refill is complete. -/
def windowReady (s : State) : State := s.onYew fun y => { y with ready := true }

/-- YEW_CTRL. -/
def writeYewCtrl (v : Word) (s : State) : State := s.onYew fun y => { y with ctrl := v &&& 0x00FFFF01#32 }

/-! ### Reclaim (R320, R321) -/

/-- The oldest block, of so many records, is reclaimed: without remark once its newest record is past the hold period; before that
only when its place is needed and appends are not stopped, and then told. -/
def reclaimYew (n : Nat) (s : State) : State :=
  let l := s.yew.records
  let needed := decide (yewPlaces ≤ l.length - n) && !yewStaging s
  guarded (decide (n ≤ yewBlock s) && (withinHold s (l.drop (l.length - n)) == [] || needed)) (yewErase n) s

/-! ### The meanings -/

def execYewFreeze (d : Desc) (s : State) : Host.Outcome State Fault Refusal := runCmd yewFreezeDef (.yewFreeze d) d s
def execYewUnfreeze (d : Desc) (s : State) : Host.Outcome State Fault Refusal := runCmd yewUnfreezeDef (.yewUnfreeze d) d s
def execYewHoldSet (d : Desc) (s : State) : Host.Outcome State Fault Refusal := runCmd yewHoldSetDef (.yewHoldSet d) d s
def execYewClear (d : Desc) (s : State) : Host.Outcome State Fault Refusal := runCmd yewClearDef (.yewClear d) d s
def execYewCursor (upper : Bool) (v : Word) (s : State) : Host.Outcome State Fault Refusal := whileRunning (writeYewCursor upper v) s
def execYewWindowLastWordRead (s : State) : Host.Outcome State Fault Refusal := whileRunning lastWordRead s
def execYewWindowReady (s : State) : Host.Outcome State Fault Refusal := whileRunning windowReady s
def execYewFreezeTimeout (s : State) : Host.Outcome State Fault Refusal := whileRunning freezeTimeout s
def execYewReclaim (n : Nat) (s : State) : Host.Outcome State Fault Refusal := whileRunning (reclaimYew n) s

end Sys2Proof.Machine
end

