-- ==== Sys2Proof/Machine/RegReads.lean ====
section
/-!
DEFINITION. The address map of BAR0 and BAR2 as a read meets it: what each register shows, and what a read of one leaves (R6, R7,
R58 to R60, R70, R71, R77, R78, R97, R120, R141, R239, R326).
-/

namespace Sys2Proof.Machine

/-! ### What registers show (R7): a write-only, reserved or unlisted word reads as zero -/

/-- The halves of a 64-bit register. -/
def lowWord (x : DWord) : Word := x.truncate 32
def highWord (x : DWord) : Word := (x >>> 32).truncate 32

/-- The word of a byte string at an offset. -/
def wordAt (b : Bytes) (off : Nat) : Word := BitVec.ofNat 32 (field b off 4)

/-- A count shown in so many bits, saturating. -/
def shownCount (n : Nat) : Word := BitVec.ofNat 32 (min n (2 ^ 32 - 1))

/-- A ring's control block (table Ring control block). ER_CTRL's count of 0 is shown as written (assumption log 74). -/
def ringWord (r : Ring) (off : Nat) : Word :=
  match off with
  | 0x00 => lowWord r.sqBase
  | 0x04 => highWord r.sqBase
  | 0x08 => r.sqTail.zeroExtend 32
  | 0x0C => r.sqHead.zeroExtend 32
  | 0x10 => lowWord r.cqBase
  | 0x14 => highWord r.cqBase
  | 0x18 => r.cqCtrl
  | 0x1C => r.cqHead.zeroExtend 32
  | 0x20 => lowWord r.erBase
  | 0x24 => highWord r.erBase
  | 0x28 => r.erSize
  | 0x30 => lowWord r.erCursor
  | 0x34 => highWord r.erCursor
  | 0x38 => r.erProducer
  | 0x3C => r.erCtrl
  | 0x40 => lowWord r.erLastSeq
  | 0x44 => highWord r.erLastSeq
  | 0x48 => r.ringCtrl
  | _ => 0#32

/-- A word of the MSI-X table. -/
def msixWord (s : State) (off : Nat) : Word :=
  let e := Tbl.getD s.host.msix (off / 16) {}
  match off % 16 / 4 with
  | 0 => lowWord e.addr
  | 1 => highWord e.addr
  | 2 => e.data
  | _ => BitVec.ofNat 32 (flag 0 e.masked)

/-- Ring control, result selection, the MSI-X table and the pending bits. -/
def hostWord (s : State) (off : Nat) : Word :=
  if 0x1000 ≤ off ∧ off < 0x1800 then ringWord (ring s ((off - 0x1000) / 0x80)) ((off - 0x1000) % 0x80)
  else if off = 0x1800 then s.host.select
  else if off = 0x1804 then s.host.page.zeroExtend 32
  else if 0x1C00 ≤ off ∧ off < 0x2000 then msixWord s (off - 0x1C00)
  else if off = 0x2000 then lowWord s.host.pba
  else if off = 0x2004 then highWord s.host.pba
  else 0#32

/-- A MAC parameter as last written, in the bank of the shadow's MAC_TYPE. -/
def paramWord (c : ChanCfg) (off : Nat) : Word :=
  if c.macType = 1 then
    match off with
    | 0x40 => c.hrNet
    | 0x44 => c.hrBeacon
    | 0x48 => c.hrCfp
    | 0x4C => c.hrCsma
    | 0x50 => c.hrTonemap
    | 0x54 => c.hrBlankDrop
    | 0x58 => c.hrRoute
    | _ => 0#32
  else if c.macType = 2 then
    match off with
    | 0x40 => c.brNet
    | 0x44 => c.brRdv
    | 0x48 => c.brDwell
    | 0x4C => c.brTiming
    | 0x50 => c.brWatch
    | 0x54 => c.brQuality
    | _ => 0#32
  else 0#32

/-- APPLY_STATUS. -/
def applyStatus (c : Chan) : Word :=
  BitVec.ofNat 32 (flag 0 c.refused + 2 ^ 4 * (c.reason % 16) + 2 ^ 16 * c.applyCount.toNat)

/-- RC statistics of a block by the MAC of the channel in force (tables Common statistics and those of chapters 05 and 06). -/
def rcStat (mac x : Nat) : Bool :=
  x % 4 == 0 && (
    (decide (0x80 ≤ x ∧ x ≤ 0x9C)) || x == 0xA8 || x == 0xAC
      || (mac == 1 && decide (0xC0 ≤ x ∧ x ≤ 0xE8))
      || (mac == 2 && (decide (0xC0 ≤ x ∧ x ≤ 0xEC) || x == 0xF8 || x == 0xFC)))

/-- The read-only statistics of a channel (R97, R120, R141). -/
def roStat (s : State) (n x : Nat) : Word :=
  let c := (chan s n).act
  let h := Tbl.getD s.hr c.netId {}
  match x with
  | 0xA0 => Tbl.getD (chan s n).stats stNoiseFloor 0#32
  | 0xA4 => Tbl.getD (chan s n).stats stRssiLast 0#32
  | 0xEC => if c.macType = 1 then BitVec.ofNat 32 ((h.neigh.filter fun y => y.2.lc == n).length % 2 ^ 16) else 0#32
  | 0xF0 =>
    if c.macType = 1 then BitVec.ofNat 32 ((h.routes.filter fun y => y.2.relay).length % 2 ^ 16)
    else if c.macType = 2 then BitVec.ofNat 32 (min (dwellUsed s c (planCentre c.plan c.centre) / nsMs) (2 ^ 16 - 1)) else 0#32
  | 0xF4 =>
    if c.macType = 1 then h.version.zeroExtend 32
    else if c.macType = 2 then BitVec.ofNat 32 ((s.br.conns.filter fun y => y.2.lc == some n && y.2.net == c.netId).length % 2 ^ 16) else 0#32
  | _ => 0#32

/-- A word of a link-channel block (tables Link channel block, Common statistics and those of chapters 05 and 06). -/
def chanWord (s : State) (n x : Nat) : Word :=
  let c := chan s n
  if 0x80 ≤ x then (if rcStat c.act.macType x then Tbl.getD c.stats x 0#32 else roStat s n x)
  else match x with
    | 0x00 => c.shadow.bind
    | 0x04 => c.shadow.mac
    | 0x08 => c.groupMask.zeroExtend 32
    | 0x0C => c.shadow.blank
    | 0x10 => c.shadow.txBackoff
    | 0x34 => c.act.bind
    | 0x38 => applyStatus c
    | _ => paramWord c.shadow x

/-- Privet's registers; NOTICE_POP's words 1 to 7 show the latch (R77). -/
def privetWord (s : State) (off : Nat) : Word :=
  if off < 0x20 then wordAt (s.host.latch ++ zeros 32) off
  else match off with
    | 0x20 => s.host.stallLimit
    | 0x24 => BitVec.ofNat 32 s.host.notices.length
    | 0x30 => shownCount (s.host.lost.getD 0 0)
    | 0x34 => shownCount (s.host.lost.getD 1 0)
    | 0x38 => shownCount (s.host.lost.getD 2 0)
    | 0x3C => shownCount (s.host.lost.getD 3 0)
    | 0x40 => s.host.noticeIrq
    | _ => 0#32

/-- The recorder's window and registers (table Yew registers). -/
def yewWord (s : State) (off : Nat) : Word :=
  let y := s.yew
  if off < 0x1000 then wordAt (yewWindow s) off
  else match off with
    | 0x1000 => lowWord (BitVec.ofNat 64 y.cursor)
    | 0x1004 => highWord (BitVec.ofNat 64 y.cursor)
    | 0x1008 => lowWord (BitVec.ofNat 64 (yewOldest s))
    | 0x100C => highWord (BitVec.ofNat 64 (yewOldest s))
    | 0x1010 => lowWord (BitVec.ofNat 64 y.newest)
    | 0x1014 => highWord (BitVec.ofNat 64 y.newest)
    | 0x1018 => y.ctrl
    | 0x101C => BitVec.ofNat 32 (flag 0 y.ready + flag 1 (yewStaging s) + 2 ^ 15 * y.staged.length)
    | 0x1020 => shownCount y.overflowCount
    | 0x1024 => shownCount y.lostCount
    | 0x1028 => BitVec.ofNat 32 y.hold
    | _ => 0#32

/-- A time base's block: word 0 the base itself, words 1 and 2 the latch, word 3 its status (R239). -/
def baseWord (s : State) (n w : Nat) : Word :=
  match w with
  | 0 => BitVec.ofNat 32 (baseStamp s n)
  | 1 => ((tbStat s n).latch >>> 32).truncate 32
  | 2 => ((tbStat s n).latch >>> 64).truncate 32
  | _ => tbStatusWord s n

/-- A domain's block (table Domain block). -/
def domainWord (d : Domain) (off : Nat) : Word :=
  match off with
  | 0x00 => d.want
  | 0x04 => d.kp
  | 0x08 => d.ki
  | 0x0C => d.lockNs
  | 0x10 => lowWord (BitVec.ofInt 64 d.freq)
  | 0x14 => highWord (BitVec.ofInt 64 d.freq)
  | 0x18 => BitVec.ofInt 32 (saturate 4 d.offset)
  | 0x1C => BitVec.ofInt 32 (saturate 4 (roundDiv d.pathDelay (1000 * 2 ^ 16)))
  | 0x20 => lowWord d.gmId
  | 0x24 => highWord d.gmId
  | 0x28 => BitVec.ofNat 32 (domStateCode d.state + flag 3 d.alt)
  | 0x2C => d.syncCount
  | _ => 0#32

/-- A port's compensation block (table Port compensation). -/
def ethWord (e : EthPort) (off : Nat) : Word :=
  match off with
  | 0x00 => e.ingress
  | 0x04 => e.egress
  | 0x08 => e.asym
  | 0x0C => e.ptp
  | 0x10 => e.discard
  | _ => 0#32

/-- A word of the time unit (R239, table Time control). -/
def timeWord (s : State) (off : Nat) : Word :=
  let t := s.tim
  if off < 0x80 then baseWord s (off / 16) (off % 16 / 4)
  else if 0x200 ≤ off ∧ off < 0x240 then domainWord t.domA (off - 0x200)
  else if 0x240 ≤ off ∧ off < 0x280 then domainWord t.domB (off - 0x240)
  else if 0x400 ≤ off ∧ off < 0x420 then ethWord t.ethA (off - 0x400)
  else if 0x420 ≤ off ∧ off < 0x440 then ethWord t.ethB (off - 0x420)
  else match off with
    | 0x100 => t.select
    | 0x104 => t.stepThreshold
    | 0x108 => t.holdPpb
    | 0x10C => t.holdLimit
    | 0x110 => t.aoPpm
    | 0x114 => t.aoTrust
    | 0x118 => shownCount (uncertainty s)
    | _ => 0#32

/-- ms a domain has spent in a state since reset, the present stay included. -/
def residencyOf (s : State) (d i : Nat) : Word :=
  let x := pdom s d
  shownCount ((x.residency.getD i 0 + if x.state = i then tb6 s - x.since else 0) / nsMs)

/-- A word of the refusal log: the newest entry stands at REFUSAL_HEAD, older ones below it. -/
def refusalWord (x : Dom) (off : Nat) : Word :=
  let back := (x.head + 16 - off / 8) % 16
  match x.log[back]? with
  | none => 0#32
  | some (code, st, t) => BitVec.ofNat 32 (if off % 8 = 0 then code % 8 + 16 * (st % 8) else t)

/-- A domain's power block (table Domain power block). -/
def domWord (s : State) (d off : Nat) : Word :=
  let x := pdom s d
  if ¬ isDomain d then 0#32
  else if 0x80 ≤ off then refusalWord x (off - 0x80)
  else match off with
    | 0x00 => pwrState s d
    | 0x04 => x.limit
    | 0x08 => BitVec.ofNat 32 (x.timers.getD 0 0)
    | 0x0C => BitVec.ofNat 32 (x.timers.getD 1 0)
    | 0x10 => BitVec.ofNat 32 (x.timers.getD 2 0)
    | 0x14 => BitVec.ofNat 32 (x.timers.getD 3 0)
    | 0x18 => x.entries
    | 0x1C => x.aborts
    | 0x20 => x.refusals
    | 0x24 => BitVec.ofNat 32 (x.lastAbort.1 % 4 + 16 * (x.lastAbort.2 % 8))
    | 0x28 => BitVec.ofNat 32 (x.head + flag 4 (x.log != []))
    | 0x30 => residencyOf s d 0
    | 0x34 => residencyOf s d 1
    | 0x38 => residencyOf s d 2
    | 0x3C => residencyOf s d 3
    | 0x40 => residencyOf s d 4
    | _ => 0#32

/-- Hawthorn's registers (table Hawthorn registers). -/
def arbiterWord (s : State) (off : Nat) : Word :=
  match off with
  | 0x00 => s.pwr.holdLimit
  | 0x04 => s.pwr.disabled
  | 0x08 => s.pwr.revokes
  | 0x0C => s.pwr.cutoffs
  | _ =>
    let e := Tbl.getD s.pwr.res ((off - 0x10) / 8) (0#32, 0#32)
    if off < 0x10 ∨ 0x90 ≤ off then 0#32 else if off % 8 = 0 then e.1 else e.2

/-- A byte of the Laurel window: registers, segment status and frame memory; PANEL_TEMP shows the temperature in force
(tables Laurel window and Laurel registers). -/
def laurelByte (s : State) (off : Nat) : Byte :=
  let reg (w : Word) : Byte := (w >>> (8 * (off % 4))).truncate 8
  if off < 0x1C then
    match off / 4 with
    | 0 => reg s.lau.ctrl
    | 2 => reg (laurelStatus s)
    | 3 => reg (BitVec.ofNat 32 (unsigned 2 (panelTempNow s)))
    | 4 => reg s.lau.tempOffset
    | 5 => reg s.lau.bookLimit
    | 6 => reg s.lau.updates
    | _ => 0#8
  else if 0x200 ≤ off ∧ off < 0x480 then (segStatus (seg s ((off - 0x200) / 8))).getD ((off - 0x200) % 8) 0#8
  else if frameByte off then Memory.read s.lau.mem off
  else 0#8

/-- A word of the Laurel window. -/
def laurelWord (s : State) (off : Nat) : Word := BitVec.ofNat 32 (ofLe ((List.range 4).map fun i => laurelByte s (off + i)))

/-- An aligned word of BAR0. An unlisted offset, a broadcast block and the maintenance block, locked or not, read as zero (R58, R60,
R70, R78): the manual places no register in the maintenance block. -/
def bar0Word (s : State) (off : Nat) : Word :=
  if off < 0x1000 then identityReg s off
  else if off < 0x10000 then hostWord s off
  else if off < 0x20000 then chanWord s ((off - 0x10000) / 0x100) (off % 0x100)
  else if off < 0x30000 then 0#32
  else if off < 0x31000 then privetWord s (off - 0x30000)
  else if 0x40000 ≤ off ∧ off < 0x50000 then yewWord s (off - 0x40000)
  else if 0x50000 ≤ off ∧ off < 0x60000 then wordAt (resultWindow s) (off - 0x50000)
  else if 0x60000 ≤ off ∧ off < 0x70000 then timeWord s (off - 0x60000)
  else if 0x70000 ≤ off ∧ off < 0x72000 then domWord s ((off - 0x70000) / 0x100) (off % 0x100)
  else if 0x72000 ≤ off ∧ off < 0x73000 then arbiterWord s (off - 0x72000)
  else if 0x80000 ≤ off ∧ off < 0x90000 then laurelWord s (off - 0x80000)
  else 0#32

/-! ### What a read leaves: RC fields clear, word 0 of a base latches, the recorder's window advances -/

/-- A statistic of a channel clears (R97). -/
def clearStat (n x : Nat) (s : State) : State :=
  guarded (rcStat (chan s n).act.macType x) (modChan n fun c => { c with stats := Tbl.del c.stats x }) s

/-- A counter of lost notices clears. -/
def clearLost (p : Nat) (s : State) : State := s.onHost fun h => { h with lost := h.lost.set p 0 }

/-- A read of the time unit: word 0 of a base read whole latches it; the RC counters clear. -/
def timeRead (off : Nat) (be : BitVec 4) (s : State) : State :=
  if off < 0x80 ∧ off % 16 = 0 ∧ be = 15#4 then
    modStat (off / 16) (fun x => { x with latch := BitVec.ofNat 96 (baseStamp s (off / 16)) }) s
  else match off with
    | 0x22C => modDom false (fun d => { d with syncCount := 0#32 }) s
    | 0x26C => modDom true (fun d => { d with syncCount := 0#32 }) s
    | 0x410 => modEth 0 (fun e => { e with discard := 0#32 }) s
    | 0x430 => modEth 1 (fun e => { e with discard := 0#32 }) s
    | _ => s

/-- A counter of a power domain clears (table Domain power block). -/
def clearDomain (d off : Nat) (s : State) : State :=
  if ¬ isDomain d then s
  else match off with
    | 0x18 => modPdom d (fun x => { x with entries := 0#32 }) s
    | 0x1C => modPdom d (fun x => { x with aborts := 0#32 }) s
    | 0x20 => modPdom d (fun x => { x with refusals := 0#32 }) s
    | _ => s

/-- A counter of Hawthorn clears (table Hawthorn registers). -/
def clearArbiter (off : Nat) (s : State) : State :=
  match off with
  | 0x08 => s.onPwr fun p => { p with revokes := 0#32 }
  | 0x0C => s.onPwr fun p => { p with cutoffs := 0#32 }
  | _ =>
    if off < 0x10 ∨ 0x90 ≤ off then s
    else s.onPwr fun p => { p with res := Tbl.upd p.res ((off - 0x10) / 8) (0#32, 0#32) fun e =>
      if off % 8 = 0 then (0#32, e.2) else (e.1, 0#32) }

/-- A channel's blanking counts are brought up to date before they are shown (R97). -/
def beforeRead (off : Nat) (s : State) : State :=
  if 0x10000 ≤ off ∧ off < 0x20000 ∧ (off % 0x100 = 0x90 ∨ off % 0x100 = 0x94) then accrueBlank ((off - 0x10000) / 0x100) s else s

/-- What a read of an aligned word of BAR0 leaves. -/
def bar0Read (off : Nat) (be : BitVec 4) (s : State) : State :=
  if 0x10000 ≤ off ∧ off < 0x20000 then clearStat ((off - 0x10000) / 0x100) (off % 0x100) s
  else if 0x30030 ≤ off ∧ off < 0x30040 then clearLost ((off - 0x30030) / 4) s
  else if off = 0x40FFC then advanceWindow s
  else if 0x60000 ≤ off ∧ off < 0x70000 then timeRead (off - 0x60000) be s
  else if 0x70000 ≤ off ∧ off < 0x72000 then clearDomain ((off - 0x70000) / 0x100) (off % 0x100) s
  else if 0x72000 ≤ off ∧ off < 0x73000 then clearArbiter (off - 0x72000) s
  else s

/-! ### A read (R59, R60) -/

/-- The part of BAR0 that answers in ROM recovery: the identity block, and ring control while the ROM serves ring 0 (R387, R432). -/
def readsInRecovery (s : State) (off : Nat) : Bool :=
  match s.dev.phase with
  | .romRecovery code => decide (off < 0x1000) || (decide (off < 0x10000) && code != 1 && code != 2)
  | _ => true

/-- A read of BAR0: the word's enabled bytes, and what the read leaves. One that is misaligned, asks for no byte or meets a part of
the map that does not answer returns zero and leaves the state (R59, R60). -/
def readBar0 (off : Nat) (be : BitVec 4) (s : State) : State :=
  if off % 4 = 0 ∧ be ≠ 0#4 ∧ readsInRecovery s off then
    let t := beforeRead off s
    emit (.read (enabled be (bar0Word t off))) (bar0Read off be t)
  else emit (.read (enabled be 0#32)) s

/-- A read of BAR2: the enabled bytes of its memory (R65). -/
def readBar2 (off : Nat) (be : BitVec 4) (s : State) : State :=
  emit (.read (enabled be (if off % 4 = 0 ∧ off < 2 ^ 28 then wordAt (Memory.readN s.host.bar2 off 4) 0 else 0#32))) s

/-- RC_READ: a read of a word of BAR0 or BAR2, whatever lies there; word 0 of NOTICE_POP pops and answers that word's enabled bytes
(R59, R77). -/
def regRead (r : BarRead) (s : State) : State :=
  if r.bar2 then readBar2 r.off r.be s
  else if r.off = 0x30000 ∧ r.be ≠ 0#4 ∧ s.dev.phase = .running then popRead (some r.be) s
  else readBar0 r.off r.be s

end Sys2Proof.Machine
end

