-- ==== Sys2Proof/Machine/Mmio.lean ====
section
/-!
DEFINITION. The address map of BAR0 and BAR2 as a write meets it (R58 to R60, R65, R70).
-/

namespace Sys2Proof.Machine

/-! ### Writes by block (R58, R60) -/

/-- A word of a ring's control block (table Ring control block). -/
def writeRingWord (n off : Nat) (v : Word) (s : State) : State :=
  match off with
  | 0x00 => writeBase n 0x00 false v s
  | 0x04 => writeBase n 0x00 true v s
  | 0x08 => writeSqTail n v s
  | 0x10 => writeBase n 0x10 false v s
  | 0x14 => writeBase n 0x10 true v s
  | 0x18 => writeCqCtrl n v s
  | 0x1C => writeCqHead n v s
  | 0x20 => writeBase n 0x20 false v s
  | 0x24 => writeBase n 0x20 true v s
  | 0x28 => writeErSize n v s
  | 0x2C => writeErCredit n v s
  | 0x30 => writeErCursor n false v s
  | 0x34 => writeErCursor n true v s
  | 0x3C => writeErCtrl n v s
  | 0x48 => writeRingCtrl n v s
  | _ => s

/-- Ring control, result selection and the MSI-X table: the part of BAR0 that ROM recovery serves too (R387, R432). -/
def writeHostWord (off : Nat) (v : Word) (s : State) : State :=
  if 0x1000 ≤ off ∧ off < 0x1800 then writeRingWord ((off - 0x1000) / 0x80) ((off - 0x1000) % 0x80) v s
  else if off = 0x1800 then writeSelect v s
  else if off = 0x1804 then writePage v s
  else if off = 0x1808 then writeRelease v s
  else if 0x1C00 ≤ off ∧ off < 0x2000 then writeMsixWord (off - 0x1C00) v s
  else s

/-- A register of the time control block; a value outside its range is ignored (R60, table Time control). -/
def writeTimeControl (off : Nat) (v : Word) (s : State) : State :=
  match off with
  | 0x00 => writeTimeSelect v s
  | 0x04 => guarded (decide (10 ≤ v.toNat ∧ v.toNat ≤ 10000000)) (fun s => reselect (s.onTim fun t => { t with stepThreshold := v })) s
  | 0x08 =>
    guarded (decide (1 ≤ v.toNat ∧ v.toNat ≤ 100000))
      (fun s => s.onTim fun t => { t with uncert := uncertainty s, holdSince := tb6 s, holdPpb := v }) s
  | 0x0C => s.onTim fun t => { t with holdLimit := v }
  | 0x10 => guarded (decide (1 ≤ v.toNat ∧ v.toNat ≤ 500)) (fun s => s.onTim fun t => { t with aoPpm := v }) s
  | 0x14 => guarded (decide (1 ≤ v.toNat ∧ v.toNat ≤ 10000)) (fun s => s.onTim fun t => { t with aoTrust := v }) s
  | _ => s

/-- A register of a domain block (table Domain block). -/
def writeDomain (b : Bool) (off : Nat) (v : Word) (s : State) : State :=
  match off with
  | 0x00 => writeDomCfg b v s
  | 0x04 => modDom b (fun d => { d with kp := v }) s
  | 0x08 => modDom b (fun d => { d with ki := v }) s
  | 0x0C => guarded (decide (10 ≤ v.toNat ∧ v.toNat ≤ 1000)) (modDom b fun d => { d with lockNs := v }) s
  | _ => s

/-- A register of a port's compensation block (R230, table Port compensation). -/
def writeCompensation (p off : Nat) (v : Word) (s : State) : State :=
  match off with
  | 0x00 => guarded (decide (v.toNat ≤ 1000000)) (modEth p fun e => { e with ingress := v }) s
  | 0x04 => guarded (decide (v.toNat ≤ 1000000)) (modEth p fun e => { e with egress := v }) s
  | 0x08 => guarded (decide (v.toInt.natAbs ≤ 1000000)) (modEth p fun e => { e with asym := v }) s
  | 0x0C => modEth p (fun e => { e with ptp := v &&& 3#32 }) s
  | _ => s

/-- A word of the time unit, by its offset there. -/
def writeTimeUnit (off : Nat) (v : Word) (s : State) : State :=
  if 0x100 ≤ off ∧ off < 0x120 then writeTimeControl (off - 0x100) v s
  else if 0x200 ≤ off ∧ off < 0x240 then writeDomain false (off - 0x200) v s
  else if 0x240 ≤ off ∧ off < 0x280 then writeDomain true (off - 0x240) v s
  else if 0x400 ≤ off ∧ off < 0x420 then writeCompensation 0 (off - 0x400) v s
  else if 0x420 ≤ off ∧ off < 0x440 then writeCompensation 1 (off - 0x420) v s
  else s

/-- A word of a power domain's block, or of Hawthorn, by its offset in power accounting. -/
def writePowerWord (off : Nat) (v : Word) (s : State) : State :=
  let d := off / 0x100
  if off = 0x2000 then writeHoldLimit v s
  else match off % 0x100 with
    | 0x04 => writeLimit d v s
    | 0x08 => writeTimer d 0 v s
    | 0x0C => writeTimer d 1 v s
    | 0x10 => writeTimer d 2 v s
    | 0x14 => writeTimer d 3 v s
    | _ => s

/-- A whole word written at an aligned offset of BAR0 outside the Laurel window: the register that lies there takes it or
ignores it; every other offset, and the maintenance block, where the spec places no register, ignores it (R58, R60, R70). -/
def writeBar0Word (off : Nat) (v : Word) (s : State) : State :=
  if off < 0x10000 then writeHostWord off v s
  else if off < 0x20000 then writeChan ((off - 0x10000) / 0x100) (off % 0x100) v s
  else if off < 0x21100 then (if off % 0x100 = 0x3C then scheduleApply off v s else writeBroadcast off v s)
  else if off = 0x30020 then writeStall v s
  else if off = 0x30040 then writeNoticeIrq v s
  else if off = 0x41000 then writeYewCursor false v s
  else if off = 0x41004 then writeYewCursor true v s
  else if off = 0x41018 then writeYewCtrl v s
  else if 0x60000 ≤ off ∧ off < 0x70000 then writeTimeUnit (off - 0x60000) v s
  else if 0x70000 ≤ off ∧ off < 0x80000 then writePowerWord (off - 0x70000) v s
  else s

/-! ### Byte enables (R59) -/

/-- The bytes an access writes, by address: those whose enable is set. -/
def enabledBytes (off : Nat) (be : BitVec 4) (v : Word) : List (Nat × Byte) :=
  ((List.range 4).filter fun i => be.getLsbD i).map fun i => (off + i, (v >>> (8 * i)).truncate 8)

/-- A word with the bytes that fall into it replaced. -/
def mergeWord (base : Nat) (old : Word) (l : List (Nat × Byte)) : Word :=
  BitVec.ofNat 32 (ofLe ((List.range 4).map fun i =>
    match l.find? fun p => p.1 == base + i with
    | some p => p.2
    | none => (old >>> (8 * i)).truncate 8))

/-- A register of the Laurel window whose word is touched. -/
def writeLaurelWord (base : Nat) (l : List (Nat × Byte)) (s : State) : State :=
  if base < 0x20 ∧ (l.any fun p => p.1 / 4 == base / 4) then writeLaurelReg base (mergeWord base (laurelReg s base) l) s else s

/-- The Laurel window takes single bytes: of its frame memory, and of its registers (R59). -/
def writeLaurelWindow (off : Nat) (be : BitVec 4) (v : Word) (s : State) : State :=
  let l := enabledBytes off be v
  let base := off / 4 * 4
  writeLaurelWord (base + 4) l (writeLaurelWord base l (l.foldl (fun t p => writeFrameByte p.1 p.2 t) s))

/-- BAR2 is memory: the enabled bytes are stored; a line lost to an uncorrectable error is written afresh (R65, R288). -/
def writeBar2 (off : Nat) (be : BitVec 4) (v : Word) (s : State) : State :=
  s.onHost fun h =>
    { h with
        badLines := h.badLines.filter fun a => !((enabledBytes off be v).any fun p => p.1 / 128 == a)
        bar2 := (enabledBytes off be v).foldl (fun m p => if p.1 < 2 ^ 28 then Memory.write m p.1 p.2 else m) h.bar2 }

/-- A write of BAR0: misaligned accesses and part words are ignored but in the Laurel window (R59). -/
def writeBar0 (off : Nat) (be : BitVec 4) (v : Word) (s : State) : State :=
  if 0x80000 ≤ off ∧ off < 0x90000 then writeLaurelWindow (off - 0x80000) be v s
  else guarded (off % 4 == 0 && be == 15#4) (writeBar0Word off v) s

/-- The part of the map that answers while ROM recovery is served (R387). -/
def writeInRecovery (off : Nat) (be : BitVec 4) (v : Word) (s : State) : State :=
  guarded (off % 4 == 0 && be == 15#4) (writeHostWord off v) s

/-- REGISTER_WRITE. -/
def registerWrite (bar2 : Bool) (off : Nat) (be : BitVec 4) (v : Word) (s : State) : State :=
  if bar2 then writeBar2 off be v s
  else match s.dev.phase with
    | .romRecovery _ => writeInRecovery off be v s
    | _ => writeBar0 off be v s

/-! ### The meanings -/

def execRegisterWrite (bar2 : Bool) (off : Nat) (be : BitVec 4) (v : Word) (s : State) : Host.Outcome State Fault Refusal :=
  whileReachable (registerWrite bar2 off be v) s
def execRcRead (r : BarRead) (s : State) : Host.Outcome State Fault Refusal := whileReachable (regRead r) s

end Sys2Proof.Machine
end

