-- ==== Sys2Proof/Machine/StorageOps.lean ====
section
/-!
DEFINITION. Coppice: blocks, pages, the map and its journal, checkpoints, garbage collection, dies and spare (13).
-/

namespace Sys2Proof.Machine

/-- An operation of Coppice's, under the device's fitting. -/
def State.nand (g : Fitting → Coppice → Coppice) (s : State) : State := s.onCop (g s.dev.fit)

/-- A row of the block table, the valid sectors of a block, and FREE_TARGET in blocks. -/
def block (s : State) (b : Nat) : Block := s.cop.block b
def validIn (s : State) (b : Nat) : List (Nat × Nat) := s.cop.validIn s.dev.fit b
def freeTarget (s : State) : Nat := freeTargetOf s.dev.fit s.cop

/-! ### Unreadable sectors (R281) -/

/-- A logical sector becomes UNREADABLE; its store names the slot and the ASN range, recorded once. -/
def unreadable (s : State) (lsn : Nat) : State :=
  let s1 := s.nand fun f c => let d := c.markUnreadable f lsn; { d with uncorrectable := d.uncorrectable + 1 }
  match Config.lsnOwner lsn with
  | none => s1
  | some r =>
    let data := le 4 r.1 ++ zeros 4 ++ le 8 r.2.1 ++ le 8 r.2.2
    if r ∈ s.cop.unreadable then s1
    else hourly (limitKey 0x6002 0) 64 (report 0x6002 kSlot r.1 data 0x0D02 0 r.1 (le 8 r.2.1))
      (s1.onCop fun c => { c with unreadable := c.unreadable ++ [r] })

/-! ### Spare (R284) -/

/-- Blocks of the log and spare pool on failed dies that had not been retired before. -/
def deadBlocks (s : State) : Nat :=
  (s.cop.deadDies.map fun d =>
    ((goodOn s.dev.fit d).drop (regionBlocksOn s.dev.fit d)).countP fun b => decide ((block s b).state ≠ .retired)).sum

/-- Blocks of the log left once the spare pool is used up. -/
def usableBlocks (s : State) : Nat := logBlocksOf s.dev.fit - (s.cop.retired + deadBlocks s - spareOf s.dev.fit)

/-- Retained content and FREE_TARGET fit the log. -/
def contentFits (s : State) : Bool :=
  decide (ceilDiv s.cop.map.length (blockSectors s.dev.fit) + freeTarget s ≤ usableBlocks s)

/-- Taking is refused once they no longer do, and allowed again when they do. -/
def judgeSpare (s : State) : State :=
  if s.cop.spare != [] || contentFits s then
    if s.dev.refusedSpare then s.onDev fun d => { d with refusedSpare := false } else s
  else if s.dev.refusedSpare then s
  else report 0x6005 kDevice 0 [] 0x0D05 0 0 [] (s.onDev fun d => { d with refusedSpare := true })

/-- The pool has fallen below SPARE_LOW. -/
def judgeLow (s : State) : State :=
  if 10000 * s.cop.spare.length < s.cop.params.spareLow * logBlocksOf s.dev.fit ∧ ¬ s.cop.spareLowSaid then
    report 0x6004 kDevice 0 (le 4 s.cop.spare.length) 0x0D04 1 0 (le 4 s.cop.spare.length)
      (s.onCop fun c => { c with spareLowSaid := true })
  else s

/-- What follows a block's retirement (R280, R284). -/
def sayRetired (b : Nat) (s : State) : State :=
  let die := dieOf s.dev.fit b
  judgeSpare (judgeLow (report 0x6003 kDie die (le 4 b) 0x0D03 3 die (le 4 b) s))

/-- A block is retired and replaced from the spare pool (R270, R284). -/
def retireBlock (b : Nat) (s : State) : State := sayRetired b (s.nand fun f => Coppice.retired1 f b)

/-! ### Relocation (R272, R278 to R280, R283) -/

/-- A source that is empty is erased, or retired where a page of it was uncorrectable; one on a failed die is done with. -/
def emptied (s : State) (r : Reloc) : State :=
  let done (t : State) : State := t.onCop fun c => { c with relocating := c.relocating.filter fun x => x.block != r.block }
  if s.cop.isEmptied s.dev.fit r then
    if dieOf s.dev.fit r.block ∈ s.cop.deadDies then done s
    else if r.retire then retireBlock r.block s
    else done (s.nand fun f => Coppice.setBlock f r.block fun x => { x with state := .erasing })
  else s

/-- Every source looked at again, and parity that no row needs any more discarded (R272, R279). -/
def sweep (s : State) : State := (s.cop.relocating.foldl emptied s).onCop Coppice.discardParity

/-- A block's valid sectors are to be copied elsewhere. -/
def relocate (b : Nat) (retire : Bool) (s : State) : State :=
  if s.cop.relocating.any fun r => r.block == b then
    s.onCop fun c => { c with relocating := c.relocating.map fun r => if r.block = b then { r with retire := r.retire || retire } else r }
  else sweep (s.onCop fun c => { c with relocating := c.relocating ++ [{ block := b, retire }] })

/-! ### Checkpoints (R273 to R275) -/

/-- A checkpoint with its anchor record; the panel's book is committed with it (R274, R275, R372). It waits while its stream finds no
block. -/
def takeCheckpoint (s : State) : State :=
  match s.cop.checkpointed s.dev.fit with
  | none => s
  | some c =>
    let s1 := s.onCop fun _ => { c with checkpointAt := tb6 s }
    if s.lau.segs = [] then s1 else commit s1

/-- CHECKPOINT: after 64 GiB programmed to the log, or 3,600 s (R274). -/
def checkpointDue (s : State) : State :=
  guarded (nandUsed s && (decide (2 ^ 36 ≤ s.cop.programmed) || decide (s.cop.checkpointAt + nsHour ≤ tb6 s))) takeCheckpoint s

/-- JOURNAL_TAIL_WRITE: every second, or at 16,384 entries; a checkpoint comes first where the ring would overwrite entries
since the last (R273). Boundary marks are journaled with it. -/
def tailWrite (s : State) : State :=
  if nandUsed s = true ∧ (s.cop.tailAt + nsPerS ≤ tb6 s ∨ 16384 ≤ s.cop.tail.length) then
    let s1 := if s.cop.ringFull s.dev.fit then takeCheckpoint s else s
    if s1.cop.ringFull s.dev.fit then s1
    else (s1.nand fun f c => { c.pourTail f with tailAt := tb6 s }).onProt fun p => { p with marksPending := 0 }
  else s

/-! ### Pages (R266, R269, R279, R280) -/

/-- A page of another region takes up to four sectors that are not the log's. -/
def otherRegion (lsns : List Nat) (c : Coppice) : Coppice :=
  ((lsns.take 4).foldl (fun t l => t.unbuffer l false) c).programmedN 4

/-- A page of a stream that reports success, read back where it holds copies; none while it must wait. -/
def streamPage (f : Fitting) (p : PageIn) (c : Coppice) : Option Coppice :=
  if p.stream < 4 then c.writeData f p.stream p.lsns
  else if p.stream < 8 then c.writeCopies f p.stream p.lsns p.errors
  else if p.stream = 9 then some (otherRegion p.lsns c)
  else none

/-- NAND_PROGRAM_COMPLETE (R269, R273, R279): the next page of a DATA or GC stream, or a page of another region. The CHECKPOINT
stream's pages are part of CHECKPOINT. -/
def programComplete (p : PageIn) (s : State) : State :=
  match (if nandUsed s then streamPage s.dev.fit p s.cop else none) with
  | some c => sweep (s.onCop fun _ => c)
  | none => s

/-! ### Die failure (R283) -/

/-- Blocks of a die in some states. -/
def blocksIn (s : State) (die : Nat) (st : List BlockState) : List Nat :=
  (s.cop.blocks.filter fun p => dieOf s.dev.fit p.1 == die && decide (p.2.state ∈ st)).map Prod.fst

/-- The valid sectors of a block that row parity does not give back. -/
def unserved (s : State) (b : Nat) : List Nat :=
  ((validIn s b).filter fun x => !s.cop.parityServes s.dev.fit b (x.1 / 4)).map Prod.snd

/-- A die is declared failed: pages in rows whose parity is held are copied elsewhere from parity; sectors of VERIFIED blocks, and of
rows that miss two pages, become UNREADABLE (R283). -/
def failDie (die : Nat) (s : State) : State :=
  if die ∈ s.cop.deadDies ∨ diesFitted s ≤ die then s
  else
    let rows := blocksIn s die [.open_, .closed]
    let dead := rows ++ s.cop.deadDies.flatMap fun d => blocksIn s d [.open_, .closed]
    let s1 := report 0x6001 kDie die [] 0x0D01 0 die [] (s.nand fun f => Coppice.dropDie f die)
    let lost := ((blocksIn s die [.verified]).flatMap fun b => (validIn s1 b).map Prod.snd) ++ dead.flatMap (unserved s1)
    let s2 := lost.foldl unreadable s1
    let s3 := rows.foldl (fun t b => relocate b false t) (s2.onCop fun c => { c with rebuilding := die :: c.rebuilding })
    let s4 := s3.onProt fun p => { p with lowering := p.lowering || decide (ceiling s3 ≤ dirtyBytes s3) }
    latchLowered s (judgeSpare (judgeLow s4))

/-- A die's failures on different blocks within 60 s. -/
def recentFailures (s : State) (die : Nat) : Nat :=
  (((s.cop.failures.filter fun x => x.2.1 == die && decide (tb6 s < x.1 + nsMin)).map fun x => x.2.2).dedup).length

/-- A program or erase failure of a block; the third block of a die within 60 s fails the die. -/
def countFailure (b : Nat) (s : State) : State :=
  let die := dieOf s.dev.fit b
  let s1 := s.onCop fun c => { c with failures := (tb6 s, die, b) :: c.failures }
  if 3 ≤ recentFailures s1 die then failDie die s1 else s1

/-- NAND_READY_TIMEOUT: the third within 60 s fails the die. -/
def readyTimeout (die : Nat) (s : State) : State :=
  if diesFitted s ≤ die ∨ ¬ nandUsed s then s
  else
    let s1 := s.onCop fun c => { c with timeouts := (tb6 s, die) :: c.timeouts }
    if 3 ≤ (s1.cop.timeouts.filter fun x => x.2 == die && decide (tb6 s < x.1 + nsMin)).length then failDie die s1 else s1

/-- DIE_REBUILT: no page of the die is left to rebuild. -/
def dieRebuilt (die : Nat) (s : State) : State :=
  if die ∈ s.cop.rebuilding ∧ ((blocksIn s die [.open_, .closed]).all fun b => validIn s b == []) then
    report 0x600B kDie die [] 0x0D0A 2 die [] (s.onCop fun c => { c with rebuilding := c.rebuilding.erase die })
  else s

/-! ### Program and erase failures (R270, R280) -/

/-- NAND_PROGRAM_FAIL: a page of a stream; its block is retired, and what it held is written again (R280). -/
def programFail (p : PageIn) (s : State) : State :=
  match (if nandUsed s && decide (p.stream ≤ 8) then s.cop.failPage s.dev.fit p.stream else none) with
  | some (b, c) => countFailure b (sayRetired b (s.onCop fun _ => c))
  | none => s

/-- NAND_ERASE_COMPLETE: the block joins the free ring's tail. -/
def eraseComplete (b : Nat) (s : State) : State :=
  if (block s b).state = .erasing then
    s.nand fun f c =>
      let d := c.setBlock f b fun x => { state := .free, pe := x.pe + 1 }
      { d with free := d.free ++ [b], media := Tbl.del d.media b }
  else s

/-- NAND_ERASE_FAIL. -/
def eraseFail (b : Nat) (s : State) : State :=
  if (block s b).state = .erasing then
    countFailure b (retireBlock b (s.onCop fun c => { c with eraseFails := c.eraseFails + 1 }))
  else s

/-! ### Reading back (R266, R272, R282, R289) -/

/-- Hard decoding corrects a sector: up to 120 bit errors (R266). -/
def hardOk (x : SectorRead) : Bool := decide (x.errors ≤ 120)

/-- Neither hard nor soft decoding recovers a sector. -/
def lostRead (x : SectorRead) : Bool := !hardOk x && !x.soft

/-- The histogram with the decodes of a read: hard ones by their corrected bits, soft ones in bin 16. -/
def countDecodes (v : VerifyIn) (s : State) : State :=
  s.onCop fun c =>
    { c with histogram := v.sectors.foldl (fun h x => if hardOk x then bump h (x.errors / 8) else if x.soft then bump h 16 else h) c.histogram }

/-- A sector needs soft decoding or has more corrected bits than a limit. -/
def worn (v : VerifyIn) (limit : Nat) : Bool := v.sectors.any fun x => !hardOk x || decide (limit < x.errors)

/-- A sector does not decode. -/
def anyLost (v : VerifyIn) : Bool := v.sectors.any lostRead

/-- The valid logical sectors that do not decode, by sector within the block. -/
def badSectors (s : State) (v : VerifyIn) : List (Nat × Nat) :=
  (validIn s v.block).filter fun x => v.sectors.any fun y => y.idx == x.1 && lostRead y

/-- The valid logical sectors that do not decode. -/
def badLsns (s : State) (v : VerifyIn) : List Nat := (badSectors s v).map Prod.snd

/-- A block that can be read on a die that works. -/
def readable (s : State) (b : Nat) : Bool := nandUsed s && !decide (dieOf s.dev.fit b ∈ s.cop.deadDies)

/-- BLOCK_VERIFY (R272). -/
def blockVerify (v : VerifyIn) (s : State) : State :=
  if (block s v.block).state = .closed ∧ readable s v.block = true then
    let s1 := countDecodes v s
    if anyLost v then
      let gone := (badSectors s1 v).filter fun x => !s1.cop.parityServes s.dev.fit v.block (x.1 / 4)
      relocate v.block true ((gone.map Prod.snd).foldl unreadable s1)
    else if worn v s.cop.params.verify then relocate v.block false s1
    else (s1.nand fun f => Coppice.setBlock f v.block fun x => { x with state := .verified }).onCop Coppice.discardParity
  else s

/-- NAND_PATROL_READ (R281, R282). -/
def patrolRead (v : VerifyIn) (s : State) : State :=
  if (block s v.block).state = .verified ∧ readable s v.block = true then
    let s1 := countDecodes v s
    let s2 := (badLsns s1 v).foldl unreadable s1
    if worn v s.cop.params.refresh then relocate v.block false s2 else s2
  else s

/-- The VERIFIED block with the lowest first write sequence that is not being emptied. -/
def gcVictim (s : State) : Option Nat :=
  ((s.cop.blocks.filter fun p => decide (p.2.state = .verified) && readable s p.1 && !(s.cop.relocating.any fun r => r.block == p.1)).foldl
    (fun best p => match best with
      | none => some p.1
      | some b => if firstSeq s.cop p.1 < firstSeq s.cop b then some p.1 else some b) none)

/-- GC_BLOCK_COLLECT: with the free ring below FREE_TARGET; a checkpoint comes first where the block holds segments of the latest one,
which are marked changed (R278). -/
def gcCollect (s : State) : State :=
  if s.cop.free.length < freeTarget s then
    match gcVictim s with
    | some b =>
      let s1 := if s.cop.holdsCheckpoint s.dev.fit b then takeCheckpoint (s.nand fun f => Coppice.markSegs f b) else s
      if s1.cop.holdsCheckpoint s.dev.fit b then s1 else relocate b false s1
    | none => s
  else s

/-! ### DRAM (R287, R288) -/

/-- Different lines of a DRAM device with an uncorrectable error within the last second. -/
def recentLines (s : State) (device : Nat) : Nat :=
  (((s.cop.dramErrors.filter fun x => x.1 == device && decide (tb6 s < x.2.2 + nsPerS)).map fun x => x.2.1).dedup).length

/-- The DRAM device has failed: acceptance stops. -/
def failDram (device : Nat) (s : State) : State :=
  report 0x6008 kDevice 0 (le 1 device) 0x0D07 0 0 (le 1 device)
    ((s.onCop fun c => { c with dramFailed := true }).onDev fun d => { d with acceptStopped := true, devReady := false })

/-- What an error in BAR2 takes: the line a payload may lie in, or a staged result, whose command has failed (R288). -/
def loseBar2 (e : DramErr) (s : State) : State :=
  s.onHost fun h =>
    { h with
      badLines := match e.bar2 with | some a => (a / 128) :: h.badLines.filter (fun b => b != a / 128) | none => h.badLines
      tokens := h.tokens.map fun t => if e.token = some t.id then { t with status := stInternal, result := [] } else t }

/-- DRAM_UNCORRECTABLE: a slot's hot state is reloaded before its next frame; a command whose payload or result lies in a lost
line of BAR2 completes with INTERNAL; 16 lines of a device within 1 s fail it. -/
def dramError (e : DramErr) (s0 : State) : State :=
  let s := loseBar2 e s0
  let data := le 1 e.device ++ zeros 3 ++ le 4 e.line
  let s1 := report 0x6007 kDevice 0 data 0x0D06 2 0 data (s.onCop fun c =>
    { c with dramErrors := (e.device, e.line, tb6 s) :: c.dramErrors,
             reload := match e.slot with | some n => if n ∈ c.reload then c.reload else n :: c.reload | none => c.reload })
  if 16 ≤ recentLines s1 e.device ∧ ¬ s1.cop.dramFailed then failDram e.device s1 else s1

/-- DRAM_SCRUB: lines read and written back as corrected. -/
def dramScrub (lines : Nat) (s : State) : State := s.onCop fun c => { c with scrubbed := c.scrubbed + lines }

/-! ### Health (R289) -/

/-- The temperature bin of a junction temperature in 0.5 °C. -/
def tempBin (t : Int) : Nat := min 32 ((t + 80) / 10).toNat

/-- Program/erase counts of the log's blocks. -/
def logPe (s : State) : List Nat := s.cop.blocks.map fun p => p.2.pe

/-- A wear figure in 0.01 %. -/
def wear (total count rated : Nat) : Nat := min (10000 * total / (max 1 count * rated)) 65535

/-- The health report (table Health report). The pSLC regions' program/erase counts are open. -/
def healthReport (s : State) : Bytes :=
  le 1 1 ++ le 1 (diesFitted s) ++ le 1 s.cop.deadDies.length ++ le 1 0 ++ le 12 (stamp96 s.tim.tb2)
    ++ le 2 (10000 * s.cop.spare.length / max 1 (logBlocksOf s.dev.fit)) ++ le 2 (wear (logPe s).sum (logBlocksOf s.dev.fit) s.cop.params.tlc)
    ++ le 2 (Config.openNat s.free) ++ zeros 2 ++ le 4 ((logPe s).foldl max 0) ++ le 4 s.cop.retired ++ le 8 s.cop.written
    ++ le 8 s.cop.progSectors ++ le 8 s.cop.uncorrectable ++ le 4 s.cop.progFails ++ le 4 s.cop.eraseFails
    ++ (s.cop.histogram.flatMap fun n => le 8 n) ++ ((List.range 33).flatMap fun i => le 4 (Tbl.getD s.cop.temps i 0 / 60)) ++ zeros 4

/-- HEALTH_SNAPSHOT: every 60 s, kept durably. -/
def healthSnapshot (s : State) : State :=
  if s.cop.snapshot = [] ∨ s.cop.snapshotAt + nsMin ≤ tb6 s then
    let s1 := s.onCop fun c => { c with temps := Tbl.upd c.temps (tempBin s.dev.junction) 0 (· + 1), snapshotAt := tb6 s }
    commit { s1.onCop fun c => { c with snapshot := healthReport s1 } with free := s1.free + 1 }
  else s

/-! ### Retention (R174, R206, R273, R285) -/

/-- An entry beyond the ledger retention loses its leaves; the last 4,096 entries stay (R206). -/
def expireEntries (s : State) : List Entry :=
  (s.led.entries.zipIdx.filter fun p => decide (p.2 < 4096) || !passed s p.1.end_ s.led.retention).map fun p =>
    if passed s p.1.end_ s.led.retention then { p.1 with leafBytes := [] } else p.1

/-- RETENTION_EXPIRY: boundary marks past the profile retention and ledger material past its own are released. -/
def retentionExpiry (s : State) : State :=
  if tb2Valid s then
    let marks := s.tar.marks.filter fun m => !passed s (m.due / nsPerS) s.cop.params.retention
    let s1 := (s.onTar fun t => { t with marks }).onLed fun l => { l with entries := expireEntries s }
    judgeSpare (if marks.length < s.tar.marks.length ∨ s1.led.entries ≠ s.led.entries then trimSome s1 else s1)
  else s

end Sys2Proof.Machine
end

