-- ==== Sys2Proof/Machine/Storage.lean ====
section
/-!
DEFINITION. The storage group of commands and Coppice's events (13, R386, R410).
-/

namespace Sys2Proof.Machine

/-! ### Format (R265, R386) -/

/-- Every store in NAND is empty, the vault store included, and every sequence starts afresh. The recorder's staged events
wait on. -/
def emptyStores (s : State) : State :=
  { s with
    met := { backlogNoticed := false }
    tar := {}
    led := {}
    lt := {}
    br := { s.br with defaults := [], overrides := [], conns := [], lost := [] }
    cop := { kind := s.cop.kind, histogram := s.cop.histogram, temps := s.cop.temps }
    pair := {}
    dl := { count := s.dl.count }
    vlt := { s.vlt with keys := s.vlt.keys.filter (fun p => p.2.factory), sealed := ([], []), cache := [], bcastGen := [], dedicated := [], tokenId := none }
    yew := { staged := s.yew.staged, lost := s.yew.lost, firstLost := s.yew.firstLost, frozen := s.yew.frozen, hard := s.yew.hard,
             frozenAt := s.yew.frozenAt, limits := s.yew.limits, bursts := s.yew.bursts, ctrl := s.yew.ctrl }
    host := { s.host with rings := Tbl.mapVals s.host.rings fun _ r => { r with erCursor := 0#64, erLastSeq := 0#64, erEver := 0, erWritten := 0 } }
    dev := { s.dev with deviceId := 0#32 }
    past := {} }

/-- NAND is formatted: regions and spare placed, anchor written with role and SERIAL (R386). Which blocks a region takes is
the model's choice. -/
def formatNow (s : State) : State :=
  let f := s.dev.fit
  let log := logAndSpare f
  let s2 := (emptyStores s).onCop fun c =>
    let d := { c with kind := .formatted, fmtCore := s.dev.core, fmtSerial := f.serial, free := log.take (logBlocksOf f),
                      spare := log.drop (logBlocksOf f), checkpointAt := tb6 s, tailAt := tb6 s }
    (d.anchored f 0).getD d
  report 0x1053 kDevice 0 [] 0x1013 2 0 [] { s2 with past := { base := imageOf s2 } }

def formatDef : CmdDef :=
  { opcode := 0x0903
    role := fun s => if enrolled s then .secur else .oper
    args := fun s c => orFail (c.arg 0 8 == s.dev.fit.serial.toNat) stBadArgument
    state := fun s _ => orFail (s.dev.held.contains 3) stStateConflict
    act := fun _ s => (.result [], release 3 (formatNow s)) }

/-! ### Commands (R410) -/

def healthReadDef : CmdDef := tokenRead 0x0901 fun s _ => slice s.cop.snapshot 0 336

/-- The fields of a storage parameter record lie in their ranges (R285). -/
def storeParamsOk (p : Bytes) : Bool :=
  let f (off n lo hi : Nat) : Bool := decide (lo ≤ field p off n ∧ field p off n ≤ hi)
  f 0 2 1 1100 && f 2 2 1 120 && f 4 2 (field p 2 2) 120 && f 6 2 100 1000 && f 8 2 10 1000 && f 10 2 100 100000
    && f 12 4 1000 1000000 && f 16 8 (2 ^ 30) (2 ^ 40)

def storageParamsLoadDef : CmdDef :=
  { opcode := 0x0902, role := fun _ => .oper
    lenOk := fun _ _ n => n == 32
    args := fun _ c => orFail (storeParamsOk c.payload) stBadArgument
    res := fun s c => orFail (Config.logHolds (field c.payload 0 2) (rawCapacity s)) stNoResource
    objects := fun _ _ => [(8, 0)]
    act := fun c s =>
      let p := c.payload
      (.result [], judgeBacklog (judgeSpare (s.onCop fun k =>
        { k with params := { retention := field p 0 2, verify := field p 2 2, refresh := field p 4 2, freeTarget := field p 6 2,
                             spareLow := field p 8 2, tlc := field p 10 2, pslc := field p 12 4, backlog := some (field p 16 8) } }))) }

/-- An entry of the list of unreadable ranges. -/
def unreadableEntry (r : Nat × Nat × Nat) : Bytes := le 4 r.1 ++ zeros 4 ++ le 8 r.2.1 ++ le 8 r.2.2

def unreadableListDef : CmdDef :=
  { tokenRead 0x0904 (fun s c =>
      le 4 s.cop.unreadable.length ++ zeros 4 ++ ((s.cop.unreadable.drop (c.arg 0 4)).take 4096).flatMap unreadableEntry) with
    args := fun s c => orFail (decide (c.arg 0 4 ≤ s.cop.unreadable.length)) stOutOfRange }

/-! ### The meanings -/

def execHealthRead (d : Desc) (s : State) : Host.Outcome State Fault Refusal := runCmd healthReadDef (.healthRead d) d s
def execStorageParamsLoad (d : Desc) (s : State) : Host.Outcome State Fault Refusal := runCmd storageParamsLoadDef (.storageParamsLoad d) d s
def execFormatNand (d : Desc) (s : State) : Host.Outcome State Fault Refusal := runCmd formatDef (.formatNand d) d s
def execUnreadableList (d : Desc) (s : State) : Host.Outcome State Fault Refusal := runCmd unreadableListDef (.unreadableList d) d s
def execJournalTailWrite (s : State) : Host.Outcome State Fault Refusal := whileRunning tailWrite s
def execCheckpoint (s : State) : Host.Outcome State Fault Refusal := whileRunning checkpointDue s
def execNandProgramComplete (p : PageIn) (s : State) : Host.Outcome State Fault Refusal := whileRunning (programComplete p) s
def execNandProgramFail (p : PageIn) (s : State) : Host.Outcome State Fault Refusal := whileRunning (programFail p) s
def execNandEraseComplete (b : Nat) (s : State) : Host.Outcome State Fault Refusal := whileRunning (eraseComplete b) s
def execNandEraseFail (b : Nat) (s : State) : Host.Outcome State Fault Refusal := whileRunning (eraseFail b) s
def execBlockVerify (v : VerifyIn) (s : State) : Host.Outcome State Fault Refusal := whileRunning (blockVerify v) s
def execGcBlockCollect (s : State) : Host.Outcome State Fault Refusal := whileRunning gcCollect s
def execNandPatrolRead (v : VerifyIn) (s : State) : Host.Outcome State Fault Refusal := whileRunning (patrolRead v) s
def execNandReadyTimeout (die : Nat) (s : State) : Host.Outcome State Fault Refusal := whileRunning (readyTimeout die) s
def execDieRebuilt (die : Nat) (s : State) : Host.Outcome State Fault Refusal := whileRunning (dieRebuilt die) s
def execDramUncorrectable (e : DramErr) (s : State) : Host.Outcome State Fault Refusal := whileRunning (dramError e) s
def execDramScrub (lines : Nat) (s : State) : Host.Outcome State Fault Refusal := whileRunning (dramScrub lines) s
def execHealthSnapshot (s : State) : Host.Outcome State Fault Refusal := whileRunning healthSnapshot s
def execRetentionExpiry (s : State) : Host.Outcome State Fault Refusal := whileRunning retentionExpiry s

end Sys2Proof.Machine
end

