-- ==== Sys2Proof/Machine/Start.lean ====
section
/-!
DEFINITION. What every start of the device does, whatever raised it: the bases, the islands' registers, what is durable, the
image booted, the storage found, and the way to DEV_READY (19, R227, R324, R325, R337, R374 to R388). A start is taken in one
piece from its reference to the end of step 12, or to step 10 while marks and replay wait for TB3 (assumption log 32).
-/

namespace Sys2Proof.Machine

/-! ### Stopping -/

/-- TB2 and its uncertainty as the AO island counts on from them (R227). -/
def noteTime (s : State) : State :=
  s.onTim fun t => { t with flushTb2 := (tb2 s, uncertainty s), flushValid := tb2Valid s }

/-- Lanes and ports stop (R43). -/
def stopPorts (s : State) : State :=
  (stopTransmitting s).onLane fun l =>
    { l with ports := Tbl.mapVals l.ports fun _ p => { p with state := .off, queue := [], active := [], wasDown := false } }

/-- The reset net is driven: lanes and the display stop; protected SRAM keeps what it holds (R374). -/
def enterReset (cause : Nat) (due : Option Nat) (s : State) : State :=
  let s1 := match s.dev.phase with
    | .running => noteTime s
    | .romRecovery _ => noteTime s
    | _ => s
  ((stopInFrame (stopPorts s1)).onDev fun d => { d with phase := .inReset, cause := cause, bootDue := due }).onProt fun p =>
    { p with kept := true }

/-! ### The bases (R227) -/

/-- A domain as its durable configuration starts it (R377). -/
def freshDomain (d : Domain) : Domain := { cfg := d.want, want := d.want, kp := d.kp, ki := d.ki, lockNs := d.lockNs }

/-- An Ethernet port as its durable configuration starts it (R377). -/
def freshEth (p : EthPort) : EthPort := { ingress := p.ingress, egress := p.egress, asym := p.asym, ptp := p.ptp }

/-- TB2's uncertainty after an outage that the AO island counted, ns. -/
def startUncert (t : TimeUnit) (outage : Nat) : Nat := t.flushTb2.2 + outage * t.aoPpm.toNat / 10 ^ 6

/-- TB2 is valid at a start: AO ran throughout and the uncertainty is within AO_TRUST. -/
def startValid (t : TimeUnit) (outage : Option Nat) : Bool :=
  match outage with
  | some e => t.flushValid && decide (startUncert t e ≤ t.aoTrust.toNat * 10 ^ 6)
  | none => false

/-- The TIME island after a start that took some time to its end. -/
def startTime (outage : Option Nat) (took : Nat) (t : TimeUnit) : TimeUnit :=
  let e := outage.getD 0
  let tb2 := (t.flushTb2.1 + e + took) * nsUnit
  let v := startValid t outage
  let leapPast := match t.zone with | some z => z.leap == 0 || (v && decide (z.leap ≤ tb2 / nsUnit / nsPerS)) | none => false
  { tb0 := 0, tb1 := 0, tb2, tb4 := if v then tb2 else 0, tb5 := if v then tb2 else 0, tb6 := took * nsUnit,
    tb7 := t.tb7 + (e + took) * nsUnit, domA := freshDomain t.domA, domB := freshDomain t.domB, ethA := freshEth t.ethA,
    ethB := freshEth t.ethB, select := t.select, stepThreshold := t.stepThreshold, holdPpb := t.holdPpb, holdLimit := t.holdLimit,
    aoPpm := t.aoPpm, aoTrust := t.aoTrust, uncert := startUncert t e, zone := t.zone, leapDone := leapPast,
    stat := if v then [(2, { valid := true }), (3, { leap := t.zone.isSome && !leapPast }), (4, { valid := true }), (5, { valid := true })]
            else [(3, { leap := t.zone.isSome && !leapPast })],
    flushTb2 := t.flushTb2, flushValid := t.flushValid }

/-- Domains that are enabled listen again. -/
def startDomains (s : State) : State :=
  let go (b : Bool) (t : State) : State := if (dom t b).cfg.getLsbD 0 then startDomain b t else t
  reselect (go true (go false s))

/-! ### The islands' registers (R374, R377) -/

/-- A port with its configuration reapplied: one that is enabled trains, unless core role holds it off (R81, R85, R377). -/
def freshPort (core : Bool) (p : Port) : Port :=
  { format := p.format, flags := p.flags, rfRef := p.rfRef, rxLat := p.rxLat, txLat := p.txLat, k := p.k, rbd := p.rbd,
    state := if p.flags.getLsbD 0 && p.format != 0xFF#8 && !core then .training else .off }

/-- A link channel with its applied configuration (R377). -/
def freshChan (c : Chan) : Chan := { shadow := c.act, act := c.act, groupMask := c.groupMask }

/-- A Hedgerow network after a restart: its route version and beacon number go on, its neighbours start anew (R109; log 32). -/
def freshNet (h : HrNet) : HrNet := { beacon := h.beacon, lastBeacon := h.lastBeacon, version := h.version, routes := h.routes, since := h.since }

/-- A connection of the durable record: UNANCHORED, its windows empty (R136). -/
def freshConn (now : Nat) (c : Conn) : Conn :=
  { c with
    state := .unanchored
    open_ := false
    lc := none
    superviseAt := now + c.params.timeout * nsMs
    win := none
    lastCopy := none
    update := none
    terminating := c.terminating.map fun t => (t.1, none)
    termSent := 0
    termOver := false
    down := []
    sentNow := false
    resp := none }

/-- The lanes and the links, reapplied: connections of the durable record, and over a soft reset, through which TB5 runs on, the airtime
used (R132, R136, R376). -/
def startLinks (soft : Bool) (s : State) : State :=
  { s with
    lane := { ports := Tbl.mapVals s.lane.ports fun _ p => freshPort s.dev.core p, chans := Tbl.mapVals s.lane.chans fun _ c => freshChan c }
    hr := Tbl.mapVals s.hr fun _ h => freshNet h
    br := { defaults := s.br.defaults, overrides := s.br.overrides,
            conns := Tbl.mapVals (s.br.conns.filter fun c => c.2.state != .offered) fun _ c => freshConn (tb6 s) c,
            rdvNumber := s.br.rdvNumber, dwell := if soft then s.br.dwell else [] } }

/-- The HOST island: everything R57 resets, and the tokens; beyond a soft reset the notices and BAR2 too (R374). -/
def startHost (soft : Bool) (s : State) : State :=
  (hostReset s).onHost fun h =>
    { h with
      tokens := []
      waiting := []
      notices := if soft then h.notices else []
      noticeSeq := if soft then h.noticeSeq else 0
      lost := if soft then h.lost else [0, 0, 0, 0]
      noticeIrq := if soft then h.noticeIrq else 1#32
      stallLimit := if soft then h.stallLimit else 2000#32
      bar2 := if soft then h.bar2 else []
      badLines := if soft then h.badLines else [] }

/-- Holly: caches, associations and challenges are gone, and beyond a soft reset the measurements are cleared (R247, R250, R257, R374,
R399). -/
def startVault (soft : Bool) (s : State) : State :=
  s.onVlt fun v =>
    { v with
      cache := []
      dedicated := []
      challenge := none
      trngFailed := false
      trngPasses := 0
      trngTested := 0
      remasked := tb6 s
      swapDue := false
      meas := if soft then v.meas else List.replicate 8 0#256 }

/-- The pair: PAIRING again with a record, the token with no one, its term kept (R292). -/
def startPair (s : State) : State :=
  s.onPair fun p =>
    { p with
      state := if p.record.isSome then .pairing else .alone
      holder := false
      fenced := false
      holdUntil := none
      grant := none
      partnerHeard := none
      witnessHeard := none
      holderHeard := none
      witnessSilent := false
      beat := 0
      discard := 0
      incoming := none
      agreed := []
      resync := none
      resynced := []
      witnessed := p.witnessed.map fun w => { w with heard := (0, 0) } }

/-- Coppice's sequencer starts afresh on what it finds. -/
def startCoppice (s : State) : State :=
  s.onCop fun c =>
    { c with
      tailAt := tb6 s
      checkpointAt := tb6 s
      snapshotAt := tb6 s
      timeouts := []
      failures := []
      dramErrors := []
      reload := []
      dramFailed := false
      scrubbed := 0 }

/-- Yew: appends wait for step 13; staged records are kept while the AO island or the supplies kept them (R324, R388). -/
def startYew (keep : Bool) (s : State) : State :=
  s.onYew fun y =>
    { y with
      staged := if keep then y.staged else []
      lost := if keep then y.lost else 0
      frozen := false
      hard := true
      frozenAt := 0
      cursorLow := 0#32
      ctrl := 1#32
      ready := false
      irqCount := 0
      limits := []
      bursts := [] }

/-- Laurel: registers and frame memory reset; the book is what protected SRAM holds, every segment INTERRUPTED when the flush
was incomplete (R371, R372). -/
def startLaurel (incomplete : Bool) (s : State) : State :=
  let segs : Tbl Seg := if incomplete then (List.range 80).map fun i => (i, { book := 0, state := 2, interrupted := true, target := 0 }) else s.lau.segs
  let s1 := s.onLau fun l => { segs, updates := l.updates, page := l.page, code := 7 }
  let m := interruptedMask s1
  if m = 0#80 then s1 else s1.onLau fun l => { l with recoverMask := m, recovering := true }

/-- Meters and their books: what is durable stays, an owner assigned to a shard among it, of which the manual says nothing
(R15; DESIGN CHOICE, assumption log 75); invocation counters go on past the highest block reserved (R305). -/
def startMeters (s : State) : State :=
  let s1 := s.onMet fun m =>
    { m with slots := Tbl.mapVals m.slots fun _ x => { x with icNext := icBlockNext x * 65536 }, shapeRun := tb6 s }
  s1.onLt fun l => { l with groups := Tbl.mapVals l.groups fun _ g => { g with ring := g.ring.map fun a => { a with revisedAt := none } } }

/-- The device's own registers at step 10 of a start. Whether a latched refusal of the shared limit outlives a start the manual does
not say: the model keeps it until the buffers are below 90 % of S (R39; DESIGN CHOICE, assumption log 75). -/
def startDev (cause : Nat) (core found incomplete ao : Bool) (s : State) : State :=
  let short := decide (s.dev.fit.dramMib < dramRequired (s.onDev fun d => { d with core }))
  (s.onDev fun d =>
    { phase := .running, fit := d.fit, core, mboxReady := true, rebuild := true, dramShort := short, bootStep := 10,
      deviceId := d.deviceId, cause, flushFound := found, flushIncomplete := incomplete, aoRan := ao, junction := d.junction,
      share := d.share, refusedShared := d.refusedShared, ildinRel := d.ildinRel, tripReport := d.tripReport, avs := d.avs }).onProt fun p =>
    { p with refused := 0 }

/-! ### The image (R337, R379, R387) -/

/-- A slot as a start leaves it: a verified image is LOADED again, its staged copy gone; one in TRIAL is LOADED unless this is
the boot that tries it. -/
def bootImg (tries : Bool) (m : Img) : Img :=
  { m with state := match m.state with
      | .verified => .loaded
      | .trial => if tries then .trial else .loaded
      | x => x }

/-- A slot passes steps 3 and 5, the floor among them (R338, R379). -/
def slotPasses (ok : Bool) (s : State) (m : Img) : Bool := ok && decide (s.fw.floor ≤ m.version) && m.state != .empty

/-- The slot the ROM boots, true for B, with whether it rewrites the boot record (R379). -/
def chooseSlot (b : BootIn) (s : State) : Option (Bool × Bool) :=
  let pa := slotPasses b.slotA s s.fw.a
  let pb := slotPasses b.slotB s s.fw.b
  if b.record then
    let act := s.fw.activeB
    if (if act then pb else pa) then some (act, false)
    else if (if act then pa && s.fw.a.state == .confirmed else pb && s.fw.b.state == .confirmed) then some (!act, false)
    else none
  else if pa then some (false, true) else if pb then some (true, true) else none

/-- The image booted is running, with its components' digests and ILDIN_REL. -/
def runSlot (inB rewrite : Bool) (s : State) : State :=
  let s1 := s.onFw fun w =>
    let conf (m : Img) : Img := { m with state := .confirmed }
    let w1 := if rewrite then { w with a := if inB then w.a else conf w.a, b := if inB then conf w.b else w.b, activeB := inB } else w
    { w1 with runningB := inB, trialAt := 0, expired := false, staged := none }
  let m := runningImg s1
  let s2 := (s1.onFw fun w => { w with running := if m.blocks = [] then ({} : Firmware).running else digests m }).onDev fun d =>
    { d with ildinRel := if m.blocks = [] then Config.ildinRel42 else BitVec.ofNat 32 (field m.signed 12 4) }
  if rewrite then yew 0x1054 kDevice 0 (le 1 (flag 0 inB)) s2 else s2

/-- What the ROM and the stage loader measure: the stage loader image; the Ildin image, then its signature block; role, firmware slot
and trial state (R257; their layout is a DESIGN CHOICE, assumption log 12). -/
def measureBoot (b : BootIn) (s : State) : State :=
  let m := runningImg s
  let img := if m.blocks = [] then b.image else (m.signed, m.sigs)
  extend 2 (le 1 (flag 0 s.dev.core) ++ le 1 (flag 0 s.fw.runningB) ++ le 1 (flag 0 (inTrial s)))
    (extend 1 img.2 (extend 1 img.1 (extend 0 b.loader s)))

/-- The trial is over at any reset but the one that begins it (R337). -/
def endTrial (tries : Bool) (s : State) : State :=
  let reverted := inTrial s && !tries
  let s1 := s.onFw fun w =>
    { w with a := bootImg tries w.a, b := bootImg tries w.b, activeB := if reverted then !w.activeB else w.activeB }
  if reverted then report 0x5007 kDevice 0 (le 1 (flag 0 s.fw.activeB)) 0x0F02 1 0 (le 1 (flag 0 s.fw.activeB)) s1 else s1

/-! ### Storage and vault (R244, R263, R264, R385, R386) -/

/-- The fitting is one R263 and R264 admit: the populated channels are NC0 upward, 1, 2, 4 or 8 of them, each with the same 1 to 4
dies. -/
def fittingOk (f : Fitting) : Bool :=
  f.qualified && decide (chansOf f ∈ [1, 2, 4, 8]) && (f.onChan.zipIdx.all fun p => p.1 == if p.2 < chansOf f then perChanOf f else 0)
    && decide (1 ≤ perChanOf f) && decide (perChanOf f ≤ 4) && decide (32 ≤ f.dieGib) && decide (f.dieGib ≤ 128)
    && decide (fitDies f * f.dieGib ≤ 2048)

/-- What the start finds on the NAND: invalid, blank and formatted at once, foreign (no anchor record of it valid, or another device's
SERIAL in it), or another role's (R385, R386). -/
def findNand (anchorBad : Bool) (s : State) : State :=
  if ¬ fittingOk s.dev.fit then hold 2 (report 0x600A kDevice 0 [] 0x0D09 0 0 [] s)
  else
    match s.cop.kind with
    | .blank => formatNow s
    | .foreign => hold 3 s
    | .invalid => hold 2 (report 0x600A kDevice 0 [] 0x0D09 0 0 [] s)
    | .formatted =>
      if s.cop.fmtSerial ≠ s.dev.fit.serial ∨ (goodAnchor anchorBad s.cop).isNone then hold 3 s
      else if s.cop.fmtCore ≠ s.dev.core then hold 4 s else s

/-- The vault store is lost: only the fuses' keys are left, and a new directory secret (R244, R245). -/
def loseVault (s : State) : State :=
  let s1 := onKeys (fun l => l.filter fun p => p.2.factory) (s.onVlt fun v => { v with bcastGen := [], tokenId := v.tokenId })
  let s2 := if s.dev.deviceId = 0#32 then s1 else rebuildDirectory (trngStep (drawDirectory s1))
  hold 5 (report 0x3012 kDevice 0 [] 0x0C03 0 0 [] s2)

/-- Holly unseals the vault store: the slots are what a copy that authenticates holds, which replaces one that fails, and the directory
secret goes into the hash registers; with neither the store is lost (R244). -/
def unsealVault (copies : Bool × Bool) (s : State) : State :=
  if ¬ (copies.1 || copies.2) then loseVault s
  else
    let held := if copies.1 then s.vlt.sealed.1 else s.vlt.sealed.2
    loadDirectory (onKeys (fun l => (l.filter fun p => p.2.factory) ++ held) s)

/-- MEAS3 takes each enrolled key again (R257). -/
def remeasure (s : State) : State :=
  [2, 5].foldl (fun t n => match keyAt t n with | some k => extend 3 k.key t | none => t) s

/-! ### The recorder after a power loss (R324, R325) -/

/-- The chain over the last 64 records is checked; each that fails is named. -/
def checkChain (s : State) : State :=
  let l := s.yew.records.take 65
  let bad := (l.zip (l.drop 1)).filter fun p => p.1.chain != yewChain p.2.chain (yewHead p.1.seq p.1.ev p.1.staged)
  bad.foldl (fun t p => post 0x0D11 0 0 (le 8 p.1.seq) (yewPut (yewEvent 0x6012 kDevice 0 (le 8 p.1.seq) t) false t)) s

/-- POWER_RESTORED: the outage as AO counted it, in ms, and the staged records recovered. -/
def powerRestored (outage : Option Nat) (s : State) : State :=
  let ms := match outage with | some e => min (e / nsMs) (2 ^ 32 - 2) | none => 2 ^ 32 - 1
  yewPut (yewEvent 0x1002 kDevice 0 (le 4 ms ++ le 2 s.yew.staged.length) s) false s

/-- HOLDUP_INCOMPLETE: what the flush had made durable (R44). -/
def holdupIncomplete (s : State) : State :=
  let last := match s.prot.intake.getLast? with | some e => e.seq | none => 0
  report 0x1010 kDevice 0 (le 6 s.cop.writeSeq ++ zeros 2 ++ le 8 last ++ le 4 s.prot.intake.length ++ zeros 4)
    0x0203 0 0 (le 6 s.cop.writeSeq) s

/-! ### Marks, replay, DEV_READY (R46, R187, R378) -/

/-- Boundary marks of the outage, with their count (R187). -/
def restoreMarks (s : State) : State :=
  match s.tim.zone with
  | none => s
  | some z =>
    let s1 := markMissed z everyone (tb2s s) mfRestore (markFuel s) (startPlans s)
    let n := s1.tar.index - s.tar.index
    if n = 0 then s1 else yew 0x8006 kDevice 0 (le 4 n) s1

/-- Steps 11 to 13. -/
def finishStart (s : State) : State :=
  let s1 := openAll (if tb3Valid s then restoreMarks s else s)
  dlResume (raiseReady (s1.onDev fun d => { d with waitTb3 := false, replayed := true, rebuild := false, bootStep := 12 }))

/-- Marks or replay wait for TB3 (R187). -/
def mustWaitTb3 (s : State) : Bool := !tb3Valid s && (s.tar.plans != [] || s.prot.intake != [])

/-- The boot strip names a hold that is in force (table Boot strip codes). -/
def stripHold (s : State) : State :=
  match s.dev.held with
  | h :: _ => s.onLau fun l => { l with code := 8 + h }
  | [] => s

/-- At step 7 the plan of the next flush is written to the seal page (R434). -/
def planFlush (s : State) : State :=
  s.onProt fun p =>
    { p with planDies := (List.range (diesFitted s)).filter fun d => !decide (d ∈ s.cop.deadDies), planSeq := s.cop.writeSeq + 1 }

/-- Log sectors whose only copy lies in a retired block: neither the write buffer nor a source holds them any more (R36, R280). -/
def orphans (s : State) : List Nat :=
  let f := s.dev.fit
  let owed := s.cop.relocating.flatMap fun r => (s.cop.owed f r).map Prod.snd
  (s.cop.map.filter fun p =>
    p.2.getLsbD 31 && !p.2.getLsbD 29 && decide ((block s (bits p.2 0 29 / blockSectors f)).state = .retired) && !s.cop.buffered p.1
      && !decide (p.1 ∈ owed)).map Prod.fst

/-- The map of NAND formatted before is rebuilt from the newer anchor record whose CRC is correct; a sector that is nowhere left is
UNREADABLE, and a die that cannot be read has failed; the rebuild's duration is recorded (R36, R275, R276, R283, R290). -/
def rebuildMap (b : BootIn) (s : State) : State :=
  let s1 := if b.anchorBad then report 0x6009 kDevice 0 [] 0x0D08 1 0 [] (s.onCop fun c => { c with anchors := c.anchors.drop 1 }) else s
  let s2 := match goodAnchor false s1.cop with
    | some a => s1.nand fun f => Coppice.rebuiltFrom f a
    | none => s1
  let s3 := (orphans s2).foldl unreadable s2
  yew 0x6006 kDevice 0 (le 4 b.rebuilt) (sweep (b.unread.foldl (fun t d => failDie d t) s3))

/-- The flush has been looked for and its contents are back in protected SRAM (R44, R276, R434). -/
def flushRead (s : State) : State :=
  s.onProt fun p => { p with flushWritten := false, sealOk := false, flushSeal := [], kept := true }

/-- Steps 6 to 13 on islands that have been restarted. -/
def bootStorage (b : BootIn) (lost incomplete : Bool) (cause : Nat) (s0 : State) : State :=
  let s := flushRead s0
  let s1 := if lost then checkChain (powerRestored b.outage s) else s
  let s2 := if incomplete then holdupIncomplete s1 else s1
  let s3 := if cause = 3 then report 0x1052 kDevice 0 [] 0x1012 1 0 [] s2 else s2
  let s4 := if s3.dev.tripReport then
      report 0x1061 kDevice 0 [] 0x1021 0 0 [] (s3.onDev fun d => { d with tripReport := false }) else s3
  let found := findNand b.anchorBad (if s4.dev.dramShort then hold 1 s4 else s4)
  let rebuilds := decide (s4.cop.kind = .formatted) && !found.dev.held.contains 2 && !found.dev.held.contains 3
  let s5 := planFlush (if rebuilds then rebuildMap b found else found)
  let s6 := remeasure (unsealVault b.vault s5)
  let s7 := judgeSpare (judgeBacklog s6)
  stripHold (if mustWaitTb3 s7 then s7.onDev fun d => { d with waitTb3 := true } else finishStart s7)

/-- Every island restarted; `soft` leaves the bases, DRAM and the measurements (R374, R376). -/
def restart (soft : Bool) (role : Option Bool) (b : BootIn) (cause : Nat) (s : State) : State :=
  let found := s.prot.flushWritten
  let incomplete := found && !s.prot.sealOk
  let core := role.getD s.dev.core
  let s1 := if soft then s else s.onTim (startTime b.outage (b.took * 10 ^ 7))
  let s2 := startDev cause core found incomplete b.outage.isSome s1
  let s3 := startYew (b.outage.isSome || s.prot.kept) (startCoppice (startPair (startVault soft (startHost soft s2))))
  let s4 := startLaurel incomplete (startLinks soft (startMeters { s3 with pwr := {} }))
  if soft then s4 else startDomains s4

/-- ROM recovery with its code (R387): with code 4 Ildin was started, so steps 5 to 7 were reached (R378, R432). -/
def enterRecovery (code : Nat) (s : State) : State :=
  (s.onDev fun d => { d with phase := .romRecovery code, mboxReady := false, rebuild := false, bootStep := if code = 4 then 7 else 4 }).onLau fun l =>
    { l with code := 14 + code }

/-- The set points requested on the way from one to another, in mV: each at most 25 mV from the one before, the last the one wanted
(R421). -/
def avsSteps (from_ want : Nat) : List Nat :=
  (List.range (max 1 (ceilDiv (max from_ want - min from_ want) 25))).map fun i =>
    if from_ ≤ want then min want (from_ + 25 * (i + 1)) else max want (from_ - 25 * (i + 1))

/-- Between steps 2 and 5 of a start the fused set point is requested as AVSBus master (R421). -/
def requestSetPoint (s : State) : State :=
  ((avsSteps s.dev.avs s.dev.fit.setPoint).foldl (fun t mv => emit (.avs mv) t) s).onDev fun d => { d with avs := d.fit.setPoint }

/-- A start from its reference (R378): ROLE_SEL when it is sampled, what the start finds, and its CAUSE. -/
def start (role : Option Bool) (b : BootIn) (cause : Nat) (s : State) : State :=
  let lost := s.prot.flushWritten
  let incomplete := s.prot.flushWritten && !s.prot.sealOk
  let s1 := restart false role b cause s
  if ¬ b.dieLink then enterRecovery 1 s1
  else if ¬ b.holly then enterRecovery 2 (report 0x3011 kDevice 0 [] 0x0C03 0 0 [] s1)
  else
    let s2 := requestSetPoint (endTrial (cause = 6) s1)
    match chooseSlot b s2 with
    | none => enterRecovery 3 s2
    | some (inB, rewrite) =>
      let s3 := measureBoot b (runSlot inB rewrite s2)
      if b.ildin then bootStorage b lost incomplete cause s3
      else if 1 ≤ s.dev.ildinFails then enterRecovery 4 s3
      else (noteTime s3).onDev fun d => { d with phase := .inReset, mboxReady := false, bootDue := some 3, ildinFails := s.dev.ildinFails + 1 }

/-! ### The ways into a start -/

/-- RESET_N_ASSERT: deferred while the hold-up flush runs (R426). -/
def resetAssert (s : State) : State :=
  match s.dev.phase with
  | .off => s
  | .flushing => s.onDev fun d => { d with deferredReset := true }
  | .inReset => s.onDev fun d => { d with bootDue := none }
  | _ => enterReset 1 none s

/-- RESET_N_RELEASE: the reference of a start; ROLE_SEL is sampled (R2, R378). A release that comes before the flush seal, while the
assertion is still deferred, is ignored, and the device stays in reset after the seal until the next release: when ROLE_SEL is sampled then
the manual does not say (DESIGN CHOICE, assumption log 76). -/
def resetRelease (roleSel : Bool) (b : BootIn) (s : State) : State :=
  match s.dev.phase with
  | .inReset => start (some roleSel) b s.dev.cause s
  | _ => s

/-- INTERNAL_RESET: one the device has asked for, or one raised while it runs, whose CAUSE is then open (R375). -/
def internalReset (b : BootIn) (s : State) : State :=
  match s.dev.bootDue, s.dev.phase with
  | some c, .inReset => start none b c s
  | none, .running => start none b (Config.openNat s.free % 8) (enterReset 1 none s.draw)
  | none, .romRecovery _ => start none b (Config.openNat s.free % 8) (enterReset 1 none s.draw)
  | _, _ => s

/-- WATCHDOG_EXPIRY: Ildin has not served the watchdog for 2 s of TB6 (R375). -/
def watchdog (b : BootIn) (s : State) : State :=
  guarded (decide (s.dev.phase = .running) && decide (2 * nsPerS ≤ tb6 s)) (fun t => start none b 3 (enterReset 3 none t)) s

/-! ### Power (R41 to R45, R423) -/

/-- Protected SRAM holds dirty bytes. -/
def sramDirty (s : State) : Bool := s.prot.intake != [] || s.cop.buffer != [] || s.cop.tail != [] || s.prot.marksPending != 0

/-- The hold-up sequence begins; a stalled pop of Privet ends; the flush requester, were it cut off, is admitted at once (R41, R43,
R77, R324, R357, R364). -/
def holdUp (trip : Bool) (s : State) : State :=
  let data := le 12 (stamp96 s.tim.tb7) ++ le 4 (min (dirtyBytes s) (2 ^ 32 - 1))
  let s1 := yewPut (yewEvent 0x1001 kDevice 0 data s) false s
  let s2 := holdUpStates (stopPorts (noteTime (endStalls s1)))
  readmit 20 ((s2.onDev fun d => { d with phase := .flushing, thermalTrip := trip, mboxReady := false, devReady := false }).onYew fun y =>
    { y with hard := true })

/-- A supply failure, or a trip, away from full service: what is kept is flushed, and what the reset net held stays held after it; with
nothing kept nothing is written (R426, R434). -/
def holdUpKept (trip : Bool) (s : State) : State :=
  if ¬ (sramDirty s && s.prot.kept) then s
  else match s.dev.phase with
    | .romRecovery _ => (noteTime s).onDev fun d => { d with phase := .flushing, thermalTrip := trip }
    | _ => s.onDev fun d => { d with phase := .flushing, deferredReset := true }

/-- PFAIL_N_ASSERT (R41, R425). -/
def pfailAssert (s : State) : State :=
  match s.dev.phase with
  | .running => holdUp false s
  | .inReset => holdUpKept false s
  | .romRecovery _ => holdUpKept false s
  | _ => s

/-- Pages of the flush's steps 1 to 5: intake entries, dirty sectors, journal tail, boundary marks not yet journaled, and the book
with the interrupted-update mark (table Flush order). -/
def flushPages (s : State) : List Nat :=
  [ceilDiv (s.prot.intake.map fun e => intakeSize e.frame).sum 4096, s.cop.buffer.length, ceilDiv (8 * s.cop.tail.length) 4096,
   ceilDiv (48 * s.prot.marksPending) 4096, 1]

/-- The flush seal (R42). The manual gives its fields and no offsets (DESIGN CHOICE, assumption log 39). -/
def flushSeal (s : State) : Bytes :=
  let body := le 6 (s.cop.writeSeq + 1) ++ (flushPages s).flatMap fun n => le 4 n
  body ++ le 4 (crc32c body).toNat

/-- FLUSH_COMPLETE: the display stops if it still runs, the seal is programmed, and what was deferred happens (R43, R371,
R426, R428). -/
def flushComplete (s : State) : State :=
  match s.dev.phase with
  | .flushing =>
    let s0 := stopInFrame s
    let s1 := (s0.onLau fun l => { l with page := bookPage s0 }).onProt fun p =>
      { p with flushWritten := true, sealOk := true, flushSeal := flushSeal s, flushIntake := p.intake.length, kept := true,
               flushBlock := !p.flushBlock }
    (s1.onCop (Coppice.programmedN ((flushPages s).sum + 1))).onDev fun d =>
      if d.deferredReset then { d with phase := .inReset, cause := 1, deferredReset := false, thermalTrip := false }
      else { d with phase := if d.thermalTrip then .thermalHold else .flushed }
  | _ => s

/-- PFAIL_GLITCH_RESTART: PFAIL_N has been high for 10 ms after a flush: PFAIL_GLITCH, then the restart (R45). -/
def glitchRestart (b : BootIn) (s : State) : State :=
  match s.dev.phase with
  | .flushed => start none b 2 (yew 0x1011 kDevice 0 [] s)
  | _ => s

/-- The intake entries that lie whole in so many bytes, from the first. -/
def wholeIn : Nat → List Intake → List Intake
  | _, [] => []
  | room, e :: l => if intakeSize e.frame ≤ room then e :: wholeIn (room - intakeSize e.frame) l else []

/-- The device is what an image holds of it. -/
def putImage (m : Image) (s : State) : State :=
  { s with
    dev := { s.dev with deviceId := m.deviceId, share := m.share }
    prot := { s.prot with budget := m.budget }
    host := { s.host with
      sessions := m.sessions
      rings := Tbl.mapVals s.host.rings fun n r =>
        let c := Tbl.getD m.cursors n (0#64, 0#64, 0)
        { r with erCursor := c.1, erLastSeq := c.2.1, erEver := c.2.2 } }
    br := m.br, met := m.met, tar := m.tar, led := m.led, lt := m.lt
    tim := { s.tim with zone := m.zone }
    vlt := { s.vlt with keys := (s.vlt.keys.filter fun p => p.2.factory) ++ m.keys, sealed := (m.keys, m.keys), tokenId := m.tokenId, bcastGen := m.bcastGen }
    cop := { s.cop with params := m.params, unreadable := m.unreadable }
    lane := { s.lane with ports := Tbl.mapVals m.ports fun _ p => { p with state := .off, queue := [], active := [], wasDown := false } }
    yew := { s.yew with hold := m.hold }
    pair := m.pair, dl := m.dl }

/-- Sectors lost from the write buffer take with them what they and all later ones committed (R36, R37); one that was to be written
again is found missing at the restart (`orphans`). -/
def loseSectors (lost : List Sector) (s : State) : State :=
  if lost = [] then s
  else
    let kept := s.past.images.takeWhile fun p => lost.all fun x => x.num != p.1
    let m := match kept.getLast? with | some p => p.2 | none => s.past.base
    { putImage m s with past := { s.past with images := kept } }

/-- Yew sectors lost: the records of the newest so many sectors go; the newest left gives sequence and chain (R320, R325). -/
def loseYew (n : Nat) (s : State) : State :=
  if n = 0 then s
  else s.onYew fun y =>
    let top := ((y.newest + 63) / 64 - n) * 64
    let l := y.records.filter fun r => decide (r.seq ≤ top)
    { y with records := l, newest := min y.newest top, chain := match l with | r :: _ => r.chain | [] => 0#64 }

/-- What an interrupted flush leaves, by the pages it programmed in flush order (R37, R42, R44, R267). -/
def cutFlush (pages : Nat) (s : State) : State :=
  let counts := flushPages s
  let before (i : Nat) := (counts.take i).sum
  let lost := s.cop.buffer.drop (pages - before 1)
  let s1 := loseYew (lost.filter fun x => x.type == 8).length (loseSectors lost s)
  let s2 := s1.onProt fun p =>
    let l := if before 1 ≤ pages then p.intake else wholeIn (4096 * pages) p.intake
    { p with intake := l, flushIntake := l.length, flushWritten := true, sealOk := false, flushSeal := [], kept := false, marksPending := 0,
             flushBlock := !p.flushBlock }
  (s2.onCop (Coppice.programmedN (min pages counts.sum))).onCop fun c =>
    { c with buffer := c.buffer.take (pages - before 1), tail := if before 3 ≤ pages then c.tail else [] }

/-- The logic die stops at once (R423); a flush that had ended stands. -/
def railOut (durable : Nat) (s : State) : State :=
  let off (t : State) : State := t.onDev fun d => { d with phase := .off, deferredReset := false, thermalTrip := false, bootDue := none }
  match s.dev.phase with
  | .off => s
  | .flushing => off (cutFlush durable s)
  | .running => off (cutFlush 0 ((noteTime (stopPorts s)).onTim fun t => { t with flushValid := false }))
  | .romRecovery _ =>
    let t := (noteTime s).onTim fun t => { t with flushValid := false }
    off (if sramDirty t && t.prot.kept then cutFlush 0 t else t)
  | .inReset => off (if sramDirty s && s.prot.kept && !s.prot.flushWritten then cutFlush 0 s else s)
  | _ => off s

/-- POWER_ON: supplies come up from nothing, RESET_N low; only what the last flush made durable is left (R374). -/
def powerOn (f : Fitting) (s : State) : State :=
  ((railOut 0 s).onDev fun d => { d with phase := .inReset, fit := f, cause := 0, bootDue := none, avs := 750 }).onProt fun p => { p with kept := false }

/-! ### Temperature (R428) -/

/-- The temperature sensed. -/
def senseTemp (t : Int) (s : State) : State := s.onDev fun d => { d with junction := t }

/-- THERMAL_WARN: above Tmax − 5 °C every quad is held at operating point 2 or slower. -/
def thermalWarn (t : Int) (s : State) : State :=
  guarded (decide (s.dev.phase = .running) && !s.dev.thermalHold && decide (s.dev.fit.tmax - 10 < t))
    (fun u => report 0x1060 kDevice 0 (le 2 (unsigned 2 t)) 0x1020 1 0 (le 2 (unsigned 2 t))
      (thermalPoints ((senseTemp t u).onDev fun d => { d with thermalHold := true }))) s

/-- THERMAL_WARN_RELEASE: below Tmax − 10 °C the hold ends. -/
def thermalRelease (t : Int) (s : State) : State :=
  guarded (decide (s.dev.phase = .running) && decide (t < s.dev.fit.tmax - 20))
    (fun u => (senseTemp t u).onDev fun d => { d with thermalHold := false }) s

/-- THERMAL_TRIP: above Tmax + 10 °C, as PFAIL_N, and the device then holds itself in reset; during a flush, and after one, it has
nothing more to start. -/
def thermalTrip (t : Int) (s : State) : State :=
  if t ≤ s.dev.fit.tmax + 20 ∨ s.dev.phase = .off then s
  else
    let s1 := (senseTemp t s).onDev fun d => { d with tripReport := true }
    match s.dev.phase with
    | .running => holdUp true s1
    | .inReset => holdUpKept true s1
    | .romRecovery _ =>
      if sramDirty s && s.prot.kept then holdUpKept true s1 else (noteTime s1).onDev fun d => { d with phase := .thermalHold }
    | _ => s1

/-- THERMAL_TRIP_RESTART: below Tmax − 10 °C the hold ends with CAUSE 7. -/
def tripRestart (t : Int) (b : BootIn) (s : State) : State :=
  match s.dev.phase with
  | .thermalHold => if t < s.dev.fit.tmax - 20 then start none b 7 (senseTemp t s) else s
  | _ => s

/-! ### Debug (R261) -/

/-- JTAG_DEBUG_UNLOCK: the response to a challenge verifies under slot 3; deep domains wake (R261, R356). -/
def debugUnlock (sig : Bytes) (s : State) : State :=
  match liveChallenge s with
  | none => s
  | some ch =>
    let s1 := (claimFalcon s).onVlt fun v => { v with challenge := none }
    if verifyUnder s 3 (ascii "KHMAINT" ++ ch ++ le 8 s.dev.fit.serial.toNat) sig then
      wakeDeep (report 0x3023 kDevice 0 [] 0x0C05 1 0 [] (extend 5 ch (s1.onDev fun d => { d with debugUnlocked := true })))
    else s1

/-! ### SOFT_RESET (R376) -/

/-- What a soft reset finds: it skips steps 1 to 6, and nothing has been lost. -/
def softBoot : BootIn :=
  { dieLink := true, holly := true, slotA := true, slotB := true, record := true, ildin := true, vault := (true, true), loader := [],
    image := ([], []), outage := some 0, took := 0 }

/-- The running copy of components 2 to 4 has the digests that the running image's header gives (R376). -/
def copySound (s : State) : Bool :=
  s.fw.running == if (runningImg s).blocks = [] then ({} : Firmware).running else digests (runningImg s)

/-- The restart that follows the command's completion: a soft reset, or the internal reset it escalates to, in a trial or with a digest
that does not match. -/
def softRestart (s : State) : State :=
  if s.dev.phase = .running ∧ s.dev.bootDue = some 4 then
    if inTrial s || !copySound s then enterReset 5 (some 5) s
    else
      let b := { softBoot with rebuilt := Config.openNat s.free % 8001 }
      let s1 := restart true none b 4 (stopInFrame (stopPorts s.draw))
      let s2 := (endTrial false s1).onFw fun w => { w with staged := none }
      bootStorage b false false 4 s2
  else s

def softResetDef : CmdDef :=
  { opcode := 0x010A, role := fun _ => .secur
    act := fun _ s => (.result [], s.onDev fun d => { d with bootDue := some 4 }) }

/-! ### RESTORE_MARKS_CREATE (R187) -/

/-- TB3 has become valid after the rebuild: marks, replay and DEV_READY follow. -/
def restoreMarksCreate (s : State) : State := guarded (s.dev.waitTb3 && tb3Valid s) (fun t => stripHold (finishStart t)) s

/-! ### The meanings -/

def execPowerOn (f : Fitting) (s : State) : Host.Outcome State Fault Refusal := always (powerOn f) s
def execResetNAssert (s : State) : Host.Outcome State Fault Refusal := always resetAssert s
def execResetNRelease (roleSel : Bool) (b : BootIn) (s : State) : Host.Outcome State Fault Refusal := always (resetRelease roleSel b) s
def execInternalReset (b : BootIn) (s : State) : Host.Outcome State Fault Refusal := always (internalReset b) s
def execRestoreMarksCreate (s : State) : Host.Outcome State Fault Refusal := whileRunning restoreMarksCreate s
def execPfailNAssert (s : State) : Host.Outcome State Fault Refusal := always pfailAssert s
def execFlushComplete (s : State) : Host.Outcome State Fault Refusal := always flushComplete s
def execPfailGlitchRestart (b : BootIn) (s : State) : Host.Outcome State Fault Refusal := always (glitchRestart b) s
def execRailOutOfRange (durable : Nat) (s : State) : Host.Outcome State Fault Refusal := always (railOut durable) s
def execThermalWarn (t : Int) (s : State) : Host.Outcome State Fault Refusal := always (thermalWarn t) s
def execThermalWarnRelease (t : Int) (s : State) : Host.Outcome State Fault Refusal := always (thermalRelease t) s
def execThermalTrip (t : Int) (s : State) : Host.Outcome State Fault Refusal := always (thermalTrip t) s
def execThermalTripRestart (t : Int) (b : BootIn) (s : State) : Host.Outcome State Fault Refusal := always (tripRestart t b) s
def execWatchdogExpiry (b : BootIn) (s : State) : Host.Outcome State Fault Refusal := always (watchdog b) s
def execJtagDebugUnlock (sig : Bytes) (s : State) : Host.Outcome State Fault Refusal := whileRunning (debugUnlock sig) s
def execSoftReset (d : Desc) (s : State) : Host.Outcome State Fault Refusal :=
  match runCmd softResetDef (.softReset d) d s with
  | .next t => .next (softRestart t)
  | .fault f => .fault f
  | .refused r => .refused r

end Sys2Proof.Machine
end

