-- ==== Sys2Proof/Machine/VaultEvents.lean ====
section
/-!
DEFINITION. What happens to Holly by itself: re-masking, the TRNG's tests, sessions and challenges that run out
(R67, R253, R254, R399).
-/

namespace Sys2Proof.Machine

/-- Two byte strings XORed, the shorter one as if zeros followed it. -/
def xorBytes (a b : Bytes) : Bytes := (List.range (max a.length b.length)).map fun i => a.getD i 0 ^^^ b.getD i 0

/-- A key's or entry's other share (R253). -/
def otherShare (keys mask : Bytes) : Bytes := xorBytes keys mask

/-- What the SRAM cells of a share hold under the storage polarity (R253). -/
def cellsOf (inverted : Bool) (share : Bytes) : Bytes := if inverted then share.map fun b => ~~~ b else share

/-- The share of a key slot after a fresh mask of a draw. -/
def remaskedKey (draw : Nat) (k : Key) : Key := { k with mask := xorBytes k.mask (Config.trng draw k.key.length) }

/-- The share of a cache entry after a fresh mask of a draw. -/
def remaskedEntry (draw : Nat) (e : CacheEntry) : CacheEntry :=
  { e with mask := xorBytes e.mask (Config.trng draw (e.keys.1.length + e.keys.2.length)) }

/-- A re-masking pass: a fresh mask for each slot and then for each cache entry in turn, and the other storage polarity, 60 s of TB6
after the last, while the TRNG gives draws (R253, R254). -/
def vaultRemask (s : State) : State :=
  if s.vlt.trngFailed = false ∧ s.vlt.remasked + 60 * nsPerS ≤ tb6 s then
    s.onVlt fun v =>
      { v with
        keys := v.keys.zipIdx.map fun p => (p.1.1, remaskedKey (v.draws + p.2) p.1.2)
        cache := v.cache.zipIdx.map fun p => remaskedEntry (v.draws + v.keys.length + p.2) p.1
        draws := v.draws + v.keys.length + v.cache.length
        inverted := !v.inverted
        remasked := tb6 s }
  else s

/-- A health test fails: every operation that draws stops (R254). -/
def trngFail (s : State) : State :=
  let s1 := s.onVlt fun v => { v with trngFailed := true, trngPasses := 0, trngTested := tb6 s }
  if s.vlt.trngFailed then s1 else report 0x3010 kDevice 0 [] 0x0C01 0 0 [] s1

/-- The tests are retried 1 s after the last; 16 passes in a row resume (R254). -/
def trngRetest (pass : Bool) (s : State) : State :=
  if s.vlt.trngFailed = true ∧ s.vlt.trngTested + nsPerS ≤ tb6 s then
    s.onVlt fun v =>
      let n := if pass then v.trngPasses + 1 else 0
      { v with trngPasses := if 16 ≤ n then 0 else n, trngFailed := decide (n < 16), trngTested := tb6 s }
  else s

/-- A session that has passed its expiry closes (R67, R260). -/
def sessionExpiry (id : Word) (s : State) : State :=
  if s.host.sessions.any fun x => x.id == id && expired s x then closeSession id s else s

/-- A challenge past its 60 s is no longer valid (R399). -/
def challengeExpiry (s : State) : State :=
  if s.vlt.challenge.isSome ∧ (liveChallenge s).isNone then s.onVlt fun v => { v with challenge := none } else s

def execVaultRemask (s : State) : Host.Outcome State Fault Refusal := whileRunning vaultRemask s
def execTrngHealthFail (s : State) : Host.Outcome State Fault Refusal := whileRunning trngFail s
def execTrngRetest (pass : Bool) (s : State) : Host.Outcome State Fault Refusal := whileRunning (trngRetest pass) s
def execSessionExpiry (id : Word) (s : State) : Host.Outcome State Fault Refusal := whileRunning (sessionExpiry id) s
def execMaintChallengeExpiry (s : State) : Host.Outcome State Fault Refusal := whileRunning challengeExpiry s

end Sys2Proof.Machine
end

