-- ==== Sys2Proof/Machine/Dispatch.lean ====
section
/-!
DEFINITION. One arm per command: the direct call of its meaning.
-/

namespace Sys2Proof.Machine

/-- The effect of a command on everything but the queue. -/
def exec (i : Instr) (s : State) : Host.Outcome State Fault Refusal :=
  match i with
  | .powerOn f => Sys2Proof.Machine.execPowerOn f s
  | .resetNAssert => Sys2Proof.Machine.execResetNAssert s
  | .resetNRelease roleSel b => Sys2Proof.Machine.execResetNRelease roleSel b s
  | .internalReset b => Sys2Proof.Machine.execInternalReset b s
  | .restoreMarksCreate => Sys2Proof.Machine.execRestoreMarksCreate s
  | .pfailNAssert => Sys2Proof.Machine.execPfailNAssert s
  | .flushComplete => Sys2Proof.Machine.execFlushComplete s
  | .pfailGlitchRestart b => Sys2Proof.Machine.execPfailGlitchRestart b s
  | .railOutOfRange durable => Sys2Proof.Machine.execRailOutOfRange durable s
  | .thermalWarn temp => Sys2Proof.Machine.execThermalWarn temp s
  | .thermalWarnRelease temp => Sys2Proof.Machine.execThermalWarnRelease temp s
  | .thermalTrip temp => Sys2Proof.Machine.execThermalTrip temp s
  | .thermalTripRestart temp b => Sys2Proof.Machine.execThermalTripRestart temp b s
  | .watchdogExpiry b => Sys2Proof.Machine.execWatchdogExpiry b s
  | .functionLevelReset => Sys2Proof.Machine.execFunctionLevelReset s
  | .perstNAssert => Sys2Proof.Machine.execPerstNAssert s
  | .pcieLinkDown => Sys2Proof.Machine.execPcieLinkDown s
  | .jtagDebugUnlock sig => Sys2Proof.Machine.execJtagDebugUnlock sig s
  | .descriptorUndefinedOpcode d opcode => Sys2Proof.Machine.execDescriptorUndefinedOpcode d opcode s
  | .sessionOpen d => Sys2Proof.Machine.execSessionOpen d s
  | .sessionClose d => Sys2Proof.Machine.execSessionClose d s
  | .sessionStatus d => Sys2Proof.Machine.execSessionStatus d s
  | .maintChallenge d => Sys2Proof.Machine.execMaintChallenge d s
  | .maintUnlock d => Sys2Proof.Machine.execMaintUnlock d s
  | .deviceIdSet d => Sys2Proof.Machine.execDeviceIdSet d s
  | .shareSet d => Sys2Proof.Machine.execShareSet d s
  | .telemetryRead d => Sys2Proof.Machine.execTelemetryRead d s
  | .countersRead d => Sys2Proof.Machine.execCountersRead d s
  | .softReset d => Sys2Proof.Machine.execSoftReset d s
  | .ingest d => Sys2Proof.Machine.execIngest d s
  | .sessionList d => Sys2Proof.Machine.execSessionList d s
  | .meterEnter d => Sys2Proof.Machine.execMeterEnter d s
  | .meterRemove d => Sys2Proof.Machine.execMeterRemove d s
  | .meterUpdate d => Sys2Proof.Machine.execMeterUpdate d s
  | .slotRead d => Sys2Proof.Machine.execSlotRead d s
  | .commissioningSet d => Sys2Proof.Machine.execCommissioningSet d s
  | .layoutLoad d => Sys2Proof.Machine.execLayoutLoad d s
  | .ruleSetLoad d => Sys2Proof.Machine.execRuleSetLoad d s
  | .shardCreate d => Sys2Proof.Machine.execShardCreate d s
  | .shardDelete d => Sys2Proof.Machine.execShardDelete d s
  | .shardModeSet d => Sys2Proof.Machine.execShardModeSet d s
  | .shardRingSet d => Sys2Proof.Machine.execShardRingSet d s
  | .shardStatus d => Sys2Proof.Machine.execShardStatus d s
  | .directoryLookup d => Sys2Proof.Machine.execDirectoryLookup d s
  | .portConfig d => Sys2Proof.Machine.execPortConfig d s
  | .portStatus d => Sys2Proof.Machine.execPortStatus d s
  | .brambleDefaults d => Sys2Proof.Machine.execBrambleDefaults d s
  | .brambleOverride d => Sys2Proof.Machine.execBrambleOverride d s
  | .connectionUpdate d => Sys2Proof.Machine.execConnectionUpdate d s
  | .connectionTerminate d => Sys2Proof.Machine.execConnectionTerminate d s
  | .routeRead d => Sys2Proof.Machine.execRouteRead d s
  | .planLoad d => Sys2Proof.Machine.execPlanLoad d s
  | .switchListLoad d => Sys2Proof.Machine.execSwitchListLoad d s
  | .calendarLoad d => Sys2Proof.Machine.execCalendarLoad d s
  | .passiveDiscard d => Sys2Proof.Machine.execPassiveDiscard d s
  | .scheduleStatus d => Sys2Proof.Machine.execScheduleStatus d s
  | .determinantRead d => Sys2Proof.Machine.execDeterminantRead d s
  | .marksRead d => Sys2Proof.Machine.execMarksRead d s
  | .ledgerKeyCreate d => Sys2Proof.Machine.execLedgerKeyCreate d s
  | .ledgerKeyRotate d => Sys2Proof.Machine.execLedgerKeyRotate d s
  | .ledgerProof d => Sys2Proof.Machine.execLedgerProof d s
  | .ledgerEntryRead d => Sys2Proof.Machine.execLedgerEntryRead d s
  | .ledgerRetentionSet d => Sys2Proof.Machine.execLedgerRetentionSet d s
  | .ledgerStatus d => Sys2Proof.Machine.execLedgerStatus d s
  | .ledgerRingSet d => Sys2Proof.Machine.execLedgerRingSet d s
  | .groupLoad d => Sys2Proof.Machine.execGroupLoad d s
  | .groupRemove d => Sys2Proof.Machine.execGroupRemove d s
  | .ltParamsLoad d => Sys2Proof.Machine.execLtParamsLoad d s
  | .partialSum d => Sys2Proof.Machine.execPartialSum d s
  | .detectorReset d => Sys2Proof.Machine.execDetectorReset d s
  | .tamperMapLoad d => Sys2Proof.Machine.execTamperMapLoad d s
  | .tamperClear d => Sys2Proof.Machine.execTamperClear d s
  | .groupStatus d => Sys2Proof.Machine.execGroupStatus d s
  | .zoneLoad d => Sys2Proof.Machine.execZoneLoad d s
  | .timeStep d => Sys2Proof.Machine.execTimeStep d s
  | .zoneRead d => Sys2Proof.Machine.execZoneRead d s
  | .attest d => Sys2Proof.Machine.execAttest d s
  | .keyAttest d => Sys2Proof.Machine.execKeyAttest d s
  | .certificateRead d => Sys2Proof.Machine.execCertificateRead d s
  | .publicKeyRead d => Sys2Proof.Machine.execPublicKeyRead d s
  | .keyList d => Sys2Proof.Machine.execKeyList d s
  | .keyGenerate d => Sys2Proof.Machine.execKeyGenerate d s
  | .transportEstablish d => Sys2Proof.Machine.execTransportEstablish d s
  | .keyImport d => Sys2Proof.Machine.execKeyImport d s
  | .keyDelete d => Sys2Proof.Machine.execKeyDelete d s
  | .generationStage d => Sys2Proof.Machine.execGenerationStage d s
  | .generationStagePlan d => Sys2Proof.Machine.execGenerationStagePlan d s
  | .authorityEnrol d => Sys2Proof.Machine.execAuthorityEnrol d s
  | .cosignEnrol d => Sys2Proof.Machine.execCosignEnrol d s
  | .measureExtend d => Sys2Proof.Machine.execMeasureExtend d s
  | .broadcastGenerationSet d => Sys2Proof.Machine.execBroadcastGenerationSet d s
  | .healthRead d => Sys2Proof.Machine.execHealthRead d s
  | .storageParamsLoad d => Sys2Proof.Machine.execStorageParamsLoad d s
  | .formatNand d => Sys2Proof.Machine.execFormatNand d s
  | .unreadableList d => Sys2Proof.Machine.execUnreadableList d s
  | .yewFreeze d => Sys2Proof.Machine.execYewFreeze d s
  | .yewUnfreeze d => Sys2Proof.Machine.execYewUnfreeze d s
  | .yewHoldSet d => Sys2Proof.Machine.execYewHoldSet d s
  | .yewClear d => Sys2Proof.Machine.execYewClear d s
  | .imageBegin d => Sys2Proof.Machine.execImageBegin d s
  | .imageBlock d => Sys2Proof.Machine.execImageBlock d s
  | .imageStatus d => Sys2Proof.Machine.execImageStatus d s
  | .imageVerify d => Sys2Proof.Machine.execImageVerify d s
  | .activate d => Sys2Proof.Machine.execActivate d s
  | .confirm d => Sys2Proof.Machine.execConfirm d s
  | .imageAbort d => Sys2Proof.Machine.execImageAbort d s
  | .pairConfigure d => Sys2Proof.Machine.execPairConfigure d s
  | .pairDissolve d => Sys2Proof.Machine.execPairDissolve d s
  | .pairStatus d => Sys2Proof.Machine.execPairStatus d s
  | .witnessTableLoad d => Sys2Proof.Machine.execWitnessTableLoad d s
  | .migratePrepare d => Sys2Proof.Machine.execMigratePrepare d s
  | .migrateFreeze d => Sys2Proof.Machine.execMigrateFreeze d s
  | .migrateSnapshot d => Sys2Proof.Machine.execMigrateSnapshot d s
  | .migrateLoad d => Sys2Proof.Machine.execMigrateLoad d s
  | .migrateCommit d => Sys2Proof.Machine.execMigrateCommit d s
  | .migrateRelease d => Sys2Proof.Machine.execMigrateRelease d s
  | .migrateAbort d => Sys2Proof.Machine.execMigrateAbort d s
  | .drainWindowSet d => Sys2Proof.Machine.execDrainWindowSet d s
  | .holdupBudgetSet d => Sys2Proof.Machine.execHoldupBudgetSet d s
  | .holdupStatus d => Sys2Proof.Machine.execHoldupStatus d s
  | .displayRecover d => Sys2Proof.Machine.execDisplayRecover d s
  | .displayBookReset d => Sys2Proof.Machine.execDisplayBookReset d s
  | .meterGet d => Sys2Proof.Machine.execMeterGet d s
  | .meterSet d => Sys2Proof.Machine.execMeterSet d s
  | .meterAction d => Sys2Proof.Machine.execMeterAction d s
  | .meterClockSet d => Sys2Proof.Machine.execMeterClockSet d s
  | .keyTransfer d => Sys2Proof.Machine.execKeyTransfer d s
  | .calendarPush d => Sys2Proof.Machine.execCalendarPush d s
  | .meterImageBegin d => Sys2Proof.Machine.execMeterImageBegin d s
  | .meterImageBlock d => Sys2Proof.Machine.execMeterImageBlock d s
  | .meterImageVerify d => Sys2Proof.Machine.execMeterImageVerify d s
  | .campaignStart d => Sys2Proof.Machine.execCampaignStart d s
  | .campaignStatus d => Sys2Proof.Machine.execCampaignStatus d s
  | .campaignActivate d => Sys2Proof.Machine.execCampaignActivate d s
  | .campaignAbort d => Sys2Proof.Machine.execCampaignAbort d s
  | .downlinkCancel d => Sys2Proof.Machine.execDownlinkCancel d s
  | .downlinkFetch d => Sys2Proof.Machine.execDownlinkFetch d s
  | .downlinkAdoptedRead d => Sys2Proof.Machine.execDownlinkAdoptedRead d s
  | .sqTail ring v => Sys2Proof.Machine.execSqTail ring v s
  | .cqHead ring v => Sys2Proof.Machine.execCqHead ring v s
  | .cqEnable ring v => Sys2Proof.Machine.execCqEnable ring v s
  | .submissionEnable ring v => Sys2Proof.Machine.execSubmissionEnable ring v s
  | .exportEnable ring ringCtrl v => Sys2Proof.Machine.execExportEnable ring ringCtrl v s
  | .erCredit ring v => Sys2Proof.Machine.execErCredit ring v s
  | .erCursor ring upper v => Sys2Proof.Machine.execErCursor ring upper v s
  | .resultSelect v => Sys2Proof.Machine.execResultSelect v s
  | .resultPage v => Sys2Proof.Machine.execResultPage v s
  | .resultRelease v => Sys2Proof.Machine.execResultRelease v s
  | .noticePop => Sys2Proof.Machine.execNoticePop s
  | .noticePopStallTimeout => Sys2Proof.Machine.execNoticePopStallTimeout s
  | .rcRead r => Sys2Proof.Machine.execRcRead r s
  | .broadcastWrite off v => Sys2Proof.Machine.execBroadcastWrite off v s
  | .applyWrite off v => Sys2Proof.Machine.execApplyWrite off v s
  | .applyTakesEffect => Sys2Proof.Machine.execApplyTakesEffect s
  | .msixUnmask op => Sys2Proof.Machine.execMsixUnmask op s
  | .interruptCoalesceTimeout vector => Sys2Proof.Machine.execInterruptCoalesceTimeout vector s
  | .tbLatchRead n => Sys2Proof.Machine.execTbLatchRead n s
  | .selectWrite v => Sys2Proof.Machine.execSelectWrite v s
  | .domCfg domB v => Sys2Proof.Machine.execDomCfg domB v s
  | .pwrLimit dom v => Sys2Proof.Machine.execPwrLimit dom v s
  | .yewCursor upper v => Sys2Proof.Machine.execYewCursor upper v s
  | .yewWindowLastWordRead => Sys2Proof.Machine.execYewWindowLastWordRead s
  | .yewWindowReady => Sys2Proof.Machine.execYewWindowReady s
  | .laurelUpdate v => Sys2Proof.Machine.execLaurelUpdate v s
  | .registerWrite bar2 off be v => Sys2Proof.Machine.execRegisterWrite bar2 off be v s
  | .hrDataRx r => Sys2Proof.Machine.execHrDataRx r s
  | .hrAckRx r => Sys2Proof.Machine.execHrAckRx r s
  | .hrNackRx r => Sys2Proof.Machine.execHrNackRx r s
  | .hrToneMapRespRx r => Sys2Proof.Machine.execHrToneMapRespRx r s
  | .hrJoinReqRx r => Sys2Proof.Machine.execHrJoinReqRx r s
  | .hrNeighbourReportRx r => Sys2Proof.Machine.execHrNeighbourReportRx r s
  | .hrBeaconRx r => Sys2Proof.Machine.execHrBeaconRx r s
  | .hrBeaconTx net => Sys2Proof.Machine.execHrBeaconTx net s
  | .hrCsmaAttempt net busy => Sys2Proof.Machine.execHrCsmaAttempt net busy s
  | .hrAckWaitTimeout net dest => Sys2Proof.Machine.execHrAckWaitTimeout net dest s
  | .toneMapAgeExpiry net addr => Sys2Proof.Machine.execToneMapAgeExpiry net addr s
  | .routeRecompute net => Sys2Proof.Machine.execRouteRecompute net s
  | .timedLaunch port => Sys2Proof.Machine.execTimedLaunch port s
  | .brDataRx r => Sys2Proof.Machine.execBrDataRx r s
  | .brConnectReqRx r => Sys2Proof.Machine.execBrConnectReqRx r s
  | .brAckRx r => Sys2Proof.Machine.execBrAckRx r s
  | .brNackRx r => Sys2Proof.Machine.execBrNackRx r s
  | .brRendezvousTx net => Sys2Proof.Machine.execBrRendezvousTx net s
  | .brSupervisionTimeout slot => Sys2Proof.Machine.execBrSupervisionTimeout slot s
  | .brConnectionForget aw => Sys2Proof.Machine.execBrConnectionForget aw s
  | .brUpdateInstantPassed slot => Sys2Proof.Machine.execBrUpdateInstantPassed slot s
  | .brChannelQuality => Sys2Proof.Machine.execBrChannelQuality s
  | .brChannelRestore net index => Sys2Proof.Machine.execBrChannelRestore net index s
  | .watchBurstStart group => Sys2Proof.Machine.execWatchBurstStart group s
  | .watchBurstEnd group => Sys2Proof.Machine.execWatchBurstEnd group s
  | .ethernetIngest record => Sys2Proof.Machine.execEthernetIngest record s
  | .sysrefEdge phases => Sys2Proof.Machine.execSysrefEdge phases s
  | .portLaneLock lock => Sys2Proof.Machine.execPortLaneLock lock s
  | .portLockLost port => Sys2Proof.Machine.execPortLockLost port s
  | .portRetrain port => Sys2Proof.Machine.execPortRetrain port s
  | .portCalibration port m => Sys2Proof.Machine.execPortCalibration port m s
  | .calibrationSwap port quiet => Sys2Proof.Machine.execCalibrationSwap port quiet s
  | .frameOpen => Sys2Proof.Machine.execFrameOpen s
  | .exportRecordWrite ring => Sys2Proof.Machine.execExportRecordWrite ring s
  | .shardOwnerReassign shard engine => Sys2Proof.Machine.execShardOwnerReassign shard engine s
  | .commissioningEnd slot => Sys2Proof.Machine.execCommissioningEnd slot s
  | .gapEstimate slot => Sys2Proof.Machine.execGapEstimate slot s
  | .shapeTableUpdate => Sys2Proof.Machine.execShapeTableUpdate s
  | .boundaryMarkCreate => Sys2Proof.Machine.execBoundaryMarkCreate s
  | .listActivation plan => Sys2Proof.Machine.execListActivation plan s
  | .calendarActivation plan => Sys2Proof.Machine.execCalendarActivation plan s
  | .calendarFallback plan => Sys2Proof.Machine.execCalendarFallback plan s
  | .leapSecond => Sys2Proof.Machine.execLeapSecond s
  | .boundarySweep slots => Sys2Proof.Machine.execBoundarySweep slots s
  | .backgroundActivityLate row late => Sys2Proof.Machine.execBackgroundActivityLate row late s
  | .sealMarkCreate plan => Sys2Proof.Machine.execSealMarkCreate plan s
  | .sealing => Sys2Proof.Machine.execSealing s
  | .cutoffWaitTimeout => Sys2Proof.Machine.execCutoffWaitTimeout s
  | .partnerRootTimeout => Sys2Proof.Machine.execPartnerRootTimeout s
  | .ledgerPrebuild slots => Sys2Proof.Machine.execLedgerPrebuild slots s
  | .balanceEvaluate group => Sys2Proof.Machine.execBalanceEvaluate group s
  | .dailyAttribution group => Sys2Proof.Machine.execDailyAttribution group s
  | .topologyRun => Sys2Proof.Machine.execTopologyRun s
  | .ptpSync r => Sys2Proof.Machine.execPtpSync r s
  | .ptpFollowUp r => Sys2Proof.Machine.execPtpFollowUp r s
  | .ptpAnnounce r => Sys2Proof.Machine.execPtpAnnounce r s
  | .ptpDelayReqTx domB => Sys2Proof.Machine.execPtpDelayReqTx domB s
  | .ptpDelayResp r => Sys2Proof.Machine.execPtpDelayResp r s
  | .ptpPdelayReqTx port => Sys2Proof.Machine.execPtpPdelayReqTx port s
  | .ptpPdelayReq r => Sys2Proof.Machine.execPtpPdelayReq r s
  | .ptpPdelayResp r => Sys2Proof.Machine.execPtpPdelayResp r s
  | .ptpPdelayRespFollowUp r => Sys2Proof.Machine.execPtpPdelayRespFollowUp r s
  | .announceTimeout domB => Sys2Proof.Machine.execAnnounceTimeout domB s
  | .primaryReturn domB => Sys2Proof.Machine.execPrimaryReturn domB s
  | .domainSyncTimeout domB => Sys2Proof.Machine.execDomainSyncTimeout domB s
  | .domainHoldoverTimeout domB => Sys2Proof.Machine.execDomainHoldoverTimeout domB s
  | .tb2HoldoverLimit => Sys2Proof.Machine.execTb2HoldoverLimit s
  | .ethLinkDown port => Sys2Proof.Machine.execEthLinkDown port s
  | .ethLinkUp port => Sys2Proof.Machine.execEthLinkUp port s
  | .zoryenHeartbeatTx => Sys2Proof.Machine.execZoryenHeartbeatTx s
  | .zoryenHeartbeat z => Sys2Proof.Machine.execZoryenHeartbeat z s
  | .tokenGrant z => Sys2Proof.Machine.execTokenGrant z s
  | .tokenTake => Sys2Proof.Machine.execTokenTake s
  | .tokenHoldEnd => Sys2Proof.Machine.execTokenHoldEnd s
  | .holderFence => Sys2Proof.Machine.execHolderFence s
  | .witnessGrant pair => Sys2Proof.Machine.execWitnessGrant pair s
  | .partnerLost => Sys2Proof.Machine.execPartnerLost s
  | .witnessSilent => Sys2Proof.Machine.execWitnessSilent s
  | .zoryenMirror z => Sys2Proof.Machine.execZoryenMirror z s
  | .zoryenMirrorAck z => Sys2Proof.Machine.execZoryenMirrorAck z s
  | .zoryenCutoff z => Sys2Proof.Machine.execZoryenCutoff z s
  | .zoryenRoot z => Sys2Proof.Machine.execZoryenRoot z s
  | .zoryenShardRoots z => Sys2Proof.Machine.execZoryenShardRoots z s
  | .zoryenLeafHashes z => Sys2Proof.Machine.execZoryenLeafHashes z s
  | .zoryenResyncReq z => Sys2Proof.Machine.execZoryenResyncReq z s
  | .zoryenResyncData z => Sys2Proof.Machine.execZoryenResyncData z s
  | .drainWindowEnd shard => Sys2Proof.Machine.execDrainWindowEnd shard s
  | .sessionExpiry id => Sys2Proof.Machine.execSessionExpiry id s
  | .maintChallengeExpiry => Sys2Proof.Machine.execMaintChallengeExpiry s
  | .fwTrialExpired => Sys2Proof.Machine.execFwTrialExpired s
  | .laneMicrocodeSwap port => Sys2Proof.Machine.execLaneMicrocodeSwap port s
  | .securityProcessorSwap => Sys2Proof.Machine.execSecurityProcessorSwap s
  | .multicastRound c => Sys2Proof.Machine.execMulticastRound c s
  | .campaignActivationInstant c => Sys2Proof.Machine.execCampaignActivationInstant c s
  | .downlinkExpiry index => Sys2Proof.Machine.execDownlinkExpiry index s
  | .yewFreezeTimeout => Sys2Proof.Machine.execYewFreezeTimeout s
  | .yewReclaim records => Sys2Proof.Machine.execYewReclaim records s
  | .journalTailWrite => Sys2Proof.Machine.execJournalTailWrite s
  | .checkpoint => Sys2Proof.Machine.execCheckpoint s
  | .nandProgramComplete p => Sys2Proof.Machine.execNandProgramComplete p s
  | .nandProgramFail p => Sys2Proof.Machine.execNandProgramFail p s
  | .nandEraseComplete block => Sys2Proof.Machine.execNandEraseComplete block s
  | .nandEraseFail block => Sys2Proof.Machine.execNandEraseFail block s
  | .blockVerify v => Sys2Proof.Machine.execBlockVerify v s
  | .gcBlockCollect => Sys2Proof.Machine.execGcBlockCollect s
  | .nandPatrolRead v => Sys2Proof.Machine.execNandPatrolRead v s
  | .nandReadyTimeout die => Sys2Proof.Machine.execNandReadyTimeout die s
  | .dieRebuilt die => Sys2Proof.Machine.execDieRebuilt die s
  | .dramUncorrectable e => Sys2Proof.Machine.execDramUncorrectable e s
  | .dramScrub lines => Sys2Proof.Machine.execDramScrub lines s
  | .vaultRemask => Sys2Proof.Machine.execVaultRemask s
  | .trngHealthFail => Sys2Proof.Machine.execTrngHealthFail s
  | .trngRetest pass => Sys2Proof.Machine.execTrngRetest pass s
  | .healthSnapshot => Sys2Proof.Machine.execHealthSnapshot s
  | .domainEntry dom refusers => Sys2Proof.Machine.execDomainEntry dom refusers s
  | .domainWake dom => Sys2Proof.Machine.execDomainWake dom s
  | .wakeFault dom => Sys2Proof.Machine.execWakeFault dom s
  | .dvfsWindow busy => Sys2Proof.Machine.execDvfsWindow busy s
  | .hawthornRequest r => Sys2Proof.Machine.execHawthornRequest r s
  | .hawthornRelease res => Sys2Proof.Machine.execHawthornRelease res s
  | .arbiterCutoff res => Sys2Proof.Machine.execArbiterCutoff res s
  | .arbiterReadmit who => Sys2Proof.Machine.execArbiterReadmit who s
  | .displayFrame => Sys2Proof.Machine.execDisplayFrame s
  | .displayPumpTimeout => Sys2Proof.Machine.execDisplayPumpTimeout s
  | .stripRefreshBurst => Sys2Proof.Machine.execStripRefreshBurst s
  | .stripPolarityBurst => Sys2Proof.Machine.execStripPolarityBurst s
  | .brTerminateTimeout slot => Sys2Proof.Machine.execBrTerminateTimeout slot s
  | .slewEnd n => Sys2Proof.Machine.execSlewEnd n s
  | .retentionExpiry => Sys2Proof.Machine.execRetentionExpiry s

end Sys2Proof.Machine
end

