-- ==== Sys2Proof/Machine/Idle.lean ====
section
/-!
DEFINITION. One cycle of the TIME clock with nothing commanded (R225).
-/

namespace Sys2Proof.Machine

/-- One cycle of the TIME island, which runs in operation and in ROM recovery: from PFAIL_N assertion on, and in reset, only the
AO island counts, and what it counts comes back with the next start (R227). The bases count, and an entry into a power state that is in progress ends (assumption log 1); while the device runs, SLEWING rises with the difference a base begins to close (R239), and the count left unwritten in an hour that has passed is recorded (R135, R223, R262,
R281). -/
def cycle (s : State) : State :=
  if alive s then
    let t := finishEntries (s.onTim fun t => tick t s)
    settle s (if t.dev.phase = .running then closeHours (refreshBits t) else t)
  else s

end Sys2Proof.Machine
end

