-- ==== Sys2Proof/Machine/Step.lean ====
section
/-!
DEFINITION. One step: the command at the front of the queue runs on the state with the queue's rest; on an empty queue the
block idles: time advances by one cycle of the TIME clock, and commands that wait start where they may.
-/

namespace Sys2Proof.Machine

/-- Commands that wait are started in fetch order where they may start; one that must still wait takes its place again. -/
def retry : List Waiting → State → Host.Outcome State Fault Refusal
  | [], s => .next s
  | w :: ws, s =>
    match exec w.cmd (s.onHost fun h => { h with quiet := w.quiet }) with
    | .next t => retry ws (t.onHost fun h => { h with quiet := false })
    | .fault r => .fault r
    | .refused r => .refused r

/-- The block with nothing commanded: one cycle passes, and the commands that wait are tried again (assumption log 1). -/
def idle (s : State) : Host.Outcome State Fault Refusal :=
  if s.dev.phase = .running then retry s.host.waiting (cycle (s.onHost fun h => { h with waiting := [] })) else .next (cycle s)

/-- One step of the machine. -/
def step (s : State) : Host.Outcome State Fault Refusal :=
  match s.pending with
  | [] => idle s
  | c :: rest => exec c { s with pending := rest }

/-- The state with the command a word spells in front of its queue; unchanged where the word spells none. -/
def State.withFetchWord (s : State) (nbits w : Nat) : State :=
  match decodeTableWord nbits w with
  | some c => { s with pending := c :: s.pending }
  | none => s

end Sys2Proof.Machine
end

