-- ==== Sys2Proof/Machine/Catalogue.lean ====
section
/-!
DEFINITION. The command catalogue: the definition of each host command, with the descriptor it carries (R389).
-/

namespace Sys2Proof.Machine

/-- The catalogue's entry of a host command; none for an event, a register access or a frame. SOFT_RESET has its own shape. -/
def hostDef (c : Instr) : Option (CmdDef × Desc) :=
  match c with
  | .sessionOpen d => some (sessionOpenDef, d)
  | .sessionClose d => some (sessionCloseDef, d)
  | .sessionStatus d => some (sessionStatusDef, d)
  | .maintChallenge d => some (maintChallengeDef, d)
  | .maintUnlock d => some (maintUnlockDef, d)
  | .deviceIdSet d => some (deviceIdSetDef, d)
  | .shareSet d => some (shareSetDef, d)
  | .telemetryRead d => some (telemetryReadDef, d)
  | .countersRead d => some (countersReadDef, d)
  | .ingest d => some (ingestDef, d)
  | .sessionList d => some (sessionListDef, d)
  | .meterEnter d => some (meterEnterDef, d)
  | .meterRemove d => some (meterRemoveDef, d)
  | .meterUpdate d => some (meterUpdateDef, d)
  | .slotRead d => some (slotReadDef, d)
  | .commissioningSet d => some (commissioningSetDef, d)
  | .layoutLoad d => some (layoutLoadDef, d)
  | .ruleSetLoad d => some (ruleSetLoadDef, d)
  | .shardCreate d => some (shardCreateDef, d)
  | .shardDelete d => some (shardDeleteDef, d)
  | .shardModeSet d => some (shardModeSetDef, d)
  | .shardRingSet d => some (shardRingSetDef, d)
  | .shardStatus d => some (shardStatusDef, d)
  | .directoryLookup d => some (directoryLookupDef, d)
  | .portConfig d => some (portConfigDef, d)
  | .portStatus d => some (portStatusDef, d)
  | .brambleDefaults d => some (brambleDefaultsDef, d)
  | .brambleOverride d => some (brambleOverrideDef, d)
  | .connectionUpdate d => some (connectionUpdateDef, d)
  | .connectionTerminate d => some (connectionTerminateDef, d)
  | .routeRead d => some (routeReadDef, d)
  | .planLoad d => some (planLoadDef, d)
  | .switchListLoad d => some (switchListLoadDef, d)
  | .calendarLoad d => some (calendarLoadDef, d)
  | .passiveDiscard d => some (passiveDiscardDef, d)
  | .scheduleStatus d => some (scheduleStatusDef, d)
  | .determinantRead d => some (determinantReadDef, d)
  | .marksRead d => some (marksReadDef, d)
  | .ledgerKeyCreate d => some (ledgerKeyCreateDef, d)
  | .ledgerKeyRotate d => some (ledgerKeyRotateDef, d)
  | .ledgerProof d => some (ledgerProofDef, d)
  | .ledgerEntryRead d => some (ledgerEntryReadDef, d)
  | .ledgerRetentionSet d => some (ledgerRetentionSetDef, d)
  | .ledgerStatus d => some (ledgerStatusDef, d)
  | .ledgerRingSet d => some (ledgerRingSetDef, d)
  | .groupLoad d => some (groupLoadDef, d)
  | .groupRemove d => some (groupRemoveDef, d)
  | .ltParamsLoad d => some (ltParamsLoadDef, d)
  | .partialSum d => some (partialSumDef, d)
  | .detectorReset d => some (detectorResetDef, d)
  | .tamperMapLoad d => some (tamperMapLoadDef, d)
  | .tamperClear d => some (tamperClearDef, d)
  | .groupStatus d => some (groupStatusDef, d)
  | .zoneLoad d => some (zoneLoadDef, d)
  | .timeStep d => some (timeStepDef, d)
  | .zoneRead d => some (zoneReadDef, d)
  | .attest d => some (attestDef, d)
  | .keyAttest d => some (keyAttestDef, d)
  | .certificateRead d => some (certificateReadDef, d)
  | .publicKeyRead d => some (publicKeyReadDef, d)
  | .keyList d => some (keyListDef, d)
  | .keyGenerate d => some (keyGenerateDef, d)
  | .transportEstablish d => some (transportEstablishDef, d)
  | .keyImport d => some (keyImportDef, d)
  | .keyDelete d => some (keyDeleteDef, d)
  | .generationStage d => some (generationStageDef, d)
  | .generationStagePlan d => some (generationStagePlanDef, d)
  | .authorityEnrol d => some (authorityEnrolDef, d)
  | .cosignEnrol d => some (cosignEnrolDef, d)
  | .measureExtend d => some (measureExtendDef, d)
  | .broadcastGenerationSet d => some (broadcastGenerationSetDef, d)
  | .healthRead d => some (healthReadDef, d)
  | .storageParamsLoad d => some (storageParamsLoadDef, d)
  | .formatNand d => some (formatDef, d)
  | .unreadableList d => some (unreadableListDef, d)
  | .yewFreeze d => some (yewFreezeDef, d)
  | .yewUnfreeze d => some (yewUnfreezeDef, d)
  | .yewHoldSet d => some (yewHoldSetDef, d)
  | .yewClear d => some (yewClearDef, d)
  | .imageBegin d => some (imageBeginDef, d)
  | .imageBlock d => some (imageBlockDef, d)
  | .imageStatus d => some (imageStatusDef, d)
  | .imageVerify d => some (imageVerifyDef, d)
  | .activate d => some (activateDef, d)
  | .confirm d => some (confirmDef, d)
  | .imageAbort d => some (imageAbortDef, d)
  | .pairConfigure d => some (pairConfigureDef, d)
  | .pairDissolve d => some (pairDissolveDef, d)
  | .pairStatus d => some (pairStatusDef, d)
  | .witnessTableLoad d => some (witnessTableLoadDef, d)
  | .migratePrepare d => some (migratePrepareDef, d)
  | .migrateFreeze d => some (migrateFreezeDef, d)
  | .migrateSnapshot d => some (migrateSnapshotDef, d)
  | .migrateLoad d => some (migrateLoadDef, d)
  | .migrateCommit d => some (migrateCommitDef, d)
  | .migrateRelease d => some (migrateReleaseDef, d)
  | .migrateAbort d => some (migrateAbortDef, d)
  | .drainWindowSet d => some (drainWindowSetDef, d)
  | .holdupBudgetSet d => some (holdupBudgetSetDef, d)
  | .holdupStatus d => some (holdupStatusDef, d)
  | .displayRecover d => some (displayRecoverDef, d)
  | .displayBookReset d => some (displayBookResetDef, d)
  | .meterGet d => some (meterGetDef, d)
  | .meterSet d => some (meterSetDef, d)
  | .meterAction d => some (meterActionDef, d)
  | .meterClockSet d => some (meterClockSetDef, d)
  | .keyTransfer d => some (keyTransferDef, d)
  | .calendarPush d => some (calendarPushDef, d)
  | .meterImageBegin d => some (meterImageBeginDef, d)
  | .meterImageBlock d => some (meterImageBlockDef, d)
  | .meterImageVerify d => some (meterImageVerifyDef, d)
  | .campaignStart d => some (campaignStartDef, d)
  | .campaignStatus d => some (campaignStatusDef, d)
  | .campaignActivate d => some (campaignActivateDef, d)
  | .campaignAbort d => some (campaignAbortDef, d)
  | .downlinkCancel d => some (downlinkCancelDef, d)
  | .downlinkFetch d => some (downlinkFetchDef, d)
  | .downlinkAdoptedRead d => some (downlinkAdoptedReadDef, d)
  | _ => none

end Sys2Proof.Machine
end

