-- ==== Sys2Proof/Safety.lean ====
section
/-!
DEFINITION. The terms the statements use: what a run counts as safe, what a host command passes on its way to its effect, and
the invariants.
-/

namespace Sys2Proof.Machine

/-- The step answers a next state. -/
def Runs (s : State) : Prop := ∃ t, step s = .next t

/-! ### Invariants -/

/-- The byte memories keep their canonical form: BAR2 and Laurel's frame memory. -/
def MemoriesCanonical (s : State) : Prop := Memory.wf s.host.bar2 = true ∧ Memory.wf s.lau.mem = true

/-- The supplies are absent, and nothing that waits brings them back. -/
def Unpowered (s : State) : Prop := s.dev.phase = .off ∧ ∀ f, Instr.powerOn f ∉ s.pending

/-- The commands that can end a hard reset: the supplies, the release of RESET_N, an internal reset, a power failure and a thermal trip. -/
def endsReset (c : Instr) : Bool :=
  match c with
  | .powerOn _ | .railOutOfRange _ | .resetNRelease _ _ | .internalReset _ | .pfailNAssert | .thermalTrip _ => true
  | _ => false

/-- The device is held in reset, and nothing that waits ends it. -/
def HeldInReset (s : State) : Prop := s.dev.phase = .inReset ∧ ∀ c ∈ s.pending, endsReset c = false

/-! ### The way of a host command (R48, R66, R69) -/

/-- The device serves its submission rings, it has fetched the descriptor, and the command is not one that a reset of the HOST island
has cut off (R62). -/
def Serving (d : Desc) (s : State) : Prop :=
  s.dev.phase = .running ∧ s.dev.mboxReady = true ∧ s.host.quiet = false ∧ fetched d s = true

/-- The state once a descriptor's tag has been seen in its session (R48). -/
def noted (d : Desc) (s : State) : State := if (session s d.session).isSome then seeTag d.session d.tag s else s

/-- The tag lies in the session's window and names no command recorded there, or the command is one that is not recorded. -/
def FirstSeen (x : CmdDef) (d : Desc) (s : State) : Prop :=
  ∀ y, session s d.session = some y → belowWindow y d.tag = false ∧ (recorded y d.tag = none ∨ x.role s = .any)

/-- The nonce the session expects. -/
def expectedNonce (d : Desc) (s : State) : Nat := match session s d.session with | some y => y.nextNonce.toNat | none => 0

/-- A signed-only command's signature verifies under slot 2 and its nonce is the one expected (R69). -/
def SealPasses (x : CmdDef) (d : Desc) (n : Nat) (s : State) : Prop :=
  let p := payloadOf s d
  verifyUnder s 2 (signedMessage x.opcode d (p.take n) (slice p n 8)) (slice p (n + 8) 1280) = true
    ∧ ofLe (slice p n 8) = expectedNonce d s

/-- The state once a command has claimed the Falcon-1024 unit where it uses it, and a signed-only one has used its nonce (R69, R261). -/
def spent (x : CmdDef) (d : Desc) (s : State) : State :=
  if x.role s = .signed then modSession d.session (fun y => { y with nextNonce := y.nextNonce + 1 }) (claimed x d s) else claimed x d s

/-- Steps 2 to 8 of the check order pass (table Check order). -/
def Passes (x : CmdDef) (d : Desc) (s : State) : Prop :=
  admitted (x.role s) d s = true
    ∧ (∃ n, bodyLength (x.role s) d = some n ∧ payloadFits d = true ∧ payloadSound s d = true ∧ x.lenOk s d n = true
        ∧ (x.role s = .signed → SealPasses x d n s))
    ∧ x.repeated s (ctxOf s (x.role s) d) = none
    ∧ checkRest x (spent x d s) (ctxOf s (x.role s) d) = none

/-- The state a host command that passes is performed on. -/
def performed (x : CmdDef) (d : Desc) (s : State) : State :=
  perform x (ctxOf (noted d s) (x.role (noted d s)) d) (spent x d (noted d s))

/-- A served host command that waits for nothing and passes every check. -/
def Goes (x : CmdDef) (d : Desc) (s : State) : Prop :=
  Serving d s ∧ mustWait x d s = false ∧ FirstSeen x d s ∧ Passes x d (noted d s)

/-! ### Frames as they reach their rules -/

/-- The state in which a Zoryen frame of the pair acts: its sequence accepted, its sender heard, its term learned (R297, R300). -/
def zKnown (m : ZMsg) (s : State) : State :=
  learnTerm m.term (zHeard m (s.onPair fun p => { p with accepted := Tbl.put p.accepted m.sender.toNat m.seq }))

/-- A Hedgerow frame of a type reaches its rules: the channel hears it, its header check passes and it is addressed here. -/
def hrReaches (type : Nat) (r : HrRx) (s : State) : Prop :=
  let c := (chan s r.lc).act
  hears s r.lc r.span.1 = true ∧ c.macType = 1 ∧ erased s c r.span = false ∧ hcsOk r.bytes = true ∧ hfMine c r.bytes = true
    ∧ hfType r.bytes = type ∧ (hfBit r.bytes 5 = false ∨ type = htBeacon)

/-- Its payload is whole: not blanked beyond the limit, and its frame check passes. -/
def hrWhole (r : HrRx) (s : State) : Prop := overBlanked (chan s r.lc).act r = false ∧ fcsOk r.bytes = true

/-- A frame with a new sequence in ROBO from its neighbour. -/
def hrNew (r : HrRx) (s : State) : Prop :=
  hfMap r.bytes = 0 ∧ classify ((neigh s (hfNet r.bytes) (hfSource r.bytes)).getD {}).win (hfSeq r.bytes) = .new

/-- A Bramble frame reaches its rules: the channel hears it under a known access word, its header check passes, it is of the
channel's network, not blanked beyond the limit, and its frame check passes. -/
def brReaches (r : BrRx) (s : State) : Prop :=
  let k := (chan s r.lc).act
  hears s r.lc r.span.1 = true ∧ k.macType = 2
    ∧ (wordMode s r).isSome = true ∧ watchHears s r = true ∧ erased s k r.span = false ∧ bhcsOk r.bytes = true ∧ field r.bytes 6 2 = k.netId ∧ brBlanked k r = false ∧ bfcsOk r.bytes = true

/-- The state once an intact frame has been heard and its quality noted (R138). -/
def brIntactState (r : BrRx) (s : State) : State :=
  noteQuality (chan s r.lc).act.netId r.index false (countStat r.lc stRxDetect 1 s)

end Sys2Proof.Machine
end

