-- ==== Sys2Proof/Certificates/Slice0/Obligations.lean ====
section
/-!
DEFINITION. The statements about the model.
-/

open Sys2Proof Sys2Proof.Machine

/-! ### The block as a whole -/

/-- A step runs the command at the front of the queue on the state with the queue's rest. -/
def Obligations.StepRunsFront : Prop :=
  ∀ (c : Instr) (s : State), step { s with pending := c :: s.pending } = exec c s

/-- With nothing commanded and nothing waiting the block counts one cycle of the TIME clock, 4 ns on TB6 and TB7 (R225); that an
empty queue stands for a cycle is the model's choice (assumption log 1). -/
def Obligations.EmptyQueueCounts : Prop :=
  ∀ s : State, s.pending = [] → s.host.waiting = [] → s.dev.phase = .running →
    ∃ t, step s = .next t ∧ t.tim.tb6 = s.tim.tb6 + 4 * nsUnit ∧ t.tim.tb7 = s.tim.tb7 + 4 * nsUnit

/-- Every step answers a next state: nothing the block is sent makes it fault or refuse. -/
def Obligations.EveryStepAnswers : Prop := ∀ s : State, Runs s

/-- Without supplies every command but POWER_ON leaves the block as it is, so it stays unpowered (R374, R423). -/
def Obligations.UnpoweredStandsStill : Prop :=
  ∀ s t : State, Unpowered s → step s = .next t → Unpowered t ∧ t = { s with pending := s.pending.tail }

/-- While the device is held in reset every command but those that end it leaves it held, and leaves every group of the state but the
device's latches and the HOST island (R374, R423). What events do in a phase no rule names is the model's choice (assumption log 33). -/
def Obligations.ResetHoldsTheBlock : Prop :=
  ∀ s t : State, HeldInReset s → step s = .next t →
    HeldInReset t ∧ t.prot = s.prot ∧ t.lane = s.lane ∧ t.hr = s.hr ∧ t.br = s.br ∧ t.met = s.met ∧ t.tar = s.tar ∧ t.led = s.led
      ∧ t.lt = s.lt ∧ t.tim = s.tim ∧ t.vlt = s.vlt ∧ t.cop = s.cop ∧ t.pair = s.pair ∧ t.yew = s.yew ∧ t.fw = s.fw
      ∧ t.pwr = s.pwr ∧ t.lau = s.lau ∧ t.dl = s.dl

/-- Reset meets the invariants: with nothing commanded it is held in reset, and its memories have the canonical form. -/
def Obligations.ResetMeetsTheInvariants : Prop := HeldInReset State.reset ∧ MemoriesCanonical State.reset

/-- Reset leaves the registers at the values of their Reset columns: DEV_STATUS, CAPS, DEVICE_ID, the ring blocks, Privet,
the time control and domain blocks, every power domain, Hawthorn, Laurel and Yew. -/
def Obligations.ResetRegisters : Prop :=
  devStatus State.reset = 0x80#32 ∧ capsWord State.reset = 0#32 ∧ identityReg State.reset 0x000 = 0x0D201F3B#32
    ∧ State.reset.dev.deviceId = 0#32 ∧ (∀ n, ring State.reset n = {}) ∧ State.reset.host.notices = []
    ∧ State.reset.host.stallLimit = 2000#32 ∧ State.reset.host.noticeIrq = 1#32
    ∧ (∀ n, (chan State.reset n).act.blank = 0x00010A40#32 ∧ (chan State.reset n).act.bind = 0#32)
    ∧ State.reset.tim.stepThreshold = 1000#32 ∧ State.reset.tim.holdPpb = 10#32 ∧ State.reset.tim.aoPpm = 50#32
    ∧ State.reset.tim.aoTrust = 100#32 ∧ (∀ b, (dom State.reset b).kp = 0x4CCD#32 ∧ (dom State.reset b).ki = 0x666#32)
    ∧ (∀ d, (pdom State.reset d).limit = 4#32 ∧ (pdom State.reset d).timers = [1000, 10000, 100000, 1000000])
    ∧ State.reset.pwr.holdLimit = 4096#32 ∧ State.reset.lau.bookLimit = 24000#32 ∧ State.reset.yew.ctrl = 1#32
    ∧ State.reset.yew.hold = 3653 ∧ State.reset.prot.budget = 20

/-- What follows an effect touches only the latches of taking and LOWERING, which it can only clear, the pending bits and the
messages sent, and notes what the NAND holds after a commit (the model's own record, assumption log 39): all else of the effect's
state stands. -/
def Obligations.SettlingTouchesOnlyLatches : Prop :=
  ∀ a b : State, ∃ (rs rb lo : Bool) (out : List Out) (pba : DWord),
    settle a b =
      { b with dev := { b.dev with refusedShared := rs, refusedBacklog := rb }, prot := { b.prot with lowering := lo },
               host := { b.host with out := out, pba := pba }, past := (keepImage a b).past }
      ∧ (rs = true → b.dev.refusedShared = true) ∧ (rb = true → b.dev.refusedBacklog = true)
      ∧ (lo = true → b.prot.lowering = true)

/-! ### Power, reset and start-up (R41 to R45, R374 to R378, R423, R426, R428) -/

/-- POWER_ON, RESET_N, PFAIL_N, the flush and a rail out of range turn the device's phase; the core supply stands at 750 mV until
the device requests a set point (R421). What they do in a
phase no rule names is the model's choice (assumption log 33). -/
def Obligations.PowerEventsTurnThePhase : Prop :=
  (∀ s f, ∃ t, exec (.powerOn f) s = .next t ∧ t.dev.phase = .inReset ∧ t.dev.fit = f ∧ t.dev.avs = 750 ∧ t.prot.kept = false)
    ∧ (∀ s, s.dev.phase = .running →
        ∃ t, exec .resetNAssert s = .next t ∧ t.dev.phase = .inReset ∧ t.dev.cause = 1 ∧ t.prot.kept = true)
    ∧ (∀ s, s.dev.phase = .flushing → ∃ t, exec .resetNAssert s = .next t ∧ t.dev.phase = .flushing ∧ t.dev.deferredReset = true)
    ∧ (∀ s, s.dev.phase = .running →
        ∃ t, exec .pfailNAssert s = .next t ∧ t.dev.phase = .flushing ∧ t.dev.mboxReady = false ∧ t.dev.devReady = false)
    ∧ (∀ s, s.dev.phase = .flushing → s.dev.deferredReset = false →
        ∃ t, exec .flushComplete s = .next t ∧ t.dev.phase = (if s.dev.thermalTrip then .thermalHold else .flushed)
          ∧ t.prot.sealOk = true ∧ t.prot.flushWritten = true)
    ∧ (∀ s, s.dev.phase = .flushing → s.dev.deferredReset = true →
        ∃ t, exec .flushComplete s = .next t ∧ t.dev.phase = .inReset ∧ t.prot.sealOk = true)
    ∧ (∀ s n, s.dev.phase = .flushing →
        ∃ t, exec (.railOutOfRange n) s = .next t ∧ t.dev.phase = .off ∧ t.prot.sealOk = false
          ∧ t.prot.intake = if (flushPages s).headD 0 ≤ n then s.prot.intake else wholeIn (4096 * n) s.prot.intake)

/-- Every way into a start runs the one start, with the role sampled only at the release of RESET_N and the CAUSE of its kind
(R2, R375, R378, R384); one after a PFAIL_N glitch writes PFAIL_GLITCH first (R45). SOFT_RESET that passes is performed and then
restarts the device, or hands on to an internal reset with CAUSE 5 (R376). A start that passes steps 1 and 2 requests the fused set point of the core supply over AVSBus, in steps of at most 25 mV
that end with it, before it boots (R421). -/
def Obligations.StartsRunTheSequence : Prop :=
  ((∀ s r b, s.dev.phase = .inReset → exec (.resetNRelease r b) s = .next (settle s (start (some r) b s.dev.cause s)))
      ∧ (∀ s b c, s.dev.phase = .inReset → s.dev.bootDue = some c → exec (.internalReset b) s = .next (settle s (start none b c s)))
      ∧ (∀ s b, s.dev.phase = .flushed → exec (.pfailGlitchRestart b) s = .next (settle s (start none b 2 (yew 0x1011 kDevice 0 [] s))))
      ∧ (∀ s t b, s.dev.phase = .thermalHold → t < s.dev.fit.tmax - 20 →
          exec (.thermalTripRestart t b) s = .next (settle s (start none b 7 (s.onDev fun d => { d with junction := t }))))
      ∧ (∀ s b, s.dev.phase = .running → 2 * nsPerS ≤ tb6 s →
          exec (.watchdogExpiry b) s = .next (settle s (start none b 3 (enterReset 3 none s))))
      ∧ (∀ s, s.dev.phase = .running → s.dev.waitTb3 = true → tb3Valid s = true →
          exec .restoreMarksCreate s = .next (settle s (stripHold (finishStart s)))))
    ∧ (∀ (d : Desc) (s : State), Goes softResetDef d s →
      exec (.softReset d) s = .next (softRestart (settle s (performed softResetDef d s))))
    ∧ (∀ s r b inB rewrite, s.dev.phase = .inReset → b.dieLink = true → b.holly = true → b.ildin = true →
        let u := requestSetPoint (endTrial (decide (s.dev.cause = 6)) (restart false (some r) b s.dev.cause s))
        chooseSlot b u = some (inB, rewrite) →
          exec (.resetNRelease r b) s = .next (settle s (bootStorage b s.prot.flushWritten (s.prot.flushWritten && !s.prot.sealOk)
            s.dev.cause (measureBoot b (runSlot inB rewrite u)))))
    ∧ (∀ s, (requestSetPoint s).dev.avs = s.dev.fit.setPoint
        ∧ ∀ mv ∈ avsSteps s.dev.avs s.dev.fit.setPoint, Out.avs mv ∈ (requestSetPoint s).host.out)
    ∧ (∀ a w, (avsSteps a w).getLast? = some w
        ∧ ((a :: avsSteps a w).zip (avsSteps a w)).all (fun p => decide (p.1 ≤ p.2 + 25) && decide (p.2 ≤ p.1 + 25)) = true)

/-- A start whose die link fails, whose Holly fails its self-test or that finds no image to boot ends in ROM recovery with the
code of its failure, and the role is the one sampled (R387); the core supply's set point has been requested in the last case alone
(R421). -/
def Obligations.FailedStartRecovers : Prop :=
  ∀ s r b, s.dev.phase = .inReset →
    (b.dieLink = false →
        ∃ t, exec (.resetNRelease r b) s = .next t ∧ t.dev.phase = .romRecovery 1 ∧ t.dev.core = r ∧ t.dev.avs = s.dev.avs)
      ∧ (b.dieLink = true → b.holly = false →
          ∃ t, exec (.resetNRelease r b) s = .next t ∧ t.dev.phase = .romRecovery 2 ∧ t.dev.core = r ∧ t.dev.avs = s.dev.avs)
      ∧ (b.dieLink = true → b.holly = true → b.slotA = false → b.slotB = false →
          ∃ t, exec (.resetNRelease r b) s = .next t ∧ t.dev.phase = .romRecovery 3 ∧ t.dev.core = r ∧ t.dev.avs = s.dev.fit.setPoint)

/-- The junction events act at their thresholds: the hold above Tmax − 5 °C, its end below Tmax − 10 °C, and the trip above
Tmax + 10 °C, which is a PFAIL_N assertion (R428; temperatures in 0.5 °C). -/
def Obligations.JunctionThresholds : Prop :=
  ∀ s t, s.dev.phase = .running →
    (s.dev.thermalHold = false → s.dev.fit.tmax - 10 < t →
        ∃ u, exec (.thermalWarn t) s = .next u ∧ u.dev.thermalHold = true ∧ u.dev.junction = t)
      ∧ (t < s.dev.fit.tmax - 20 → ∃ u, exec (.thermalWarnRelease t) s = .next u ∧ u.dev.thermalHold = false)
      ∧ (s.dev.fit.tmax + 20 < t →
          ∃ u, exec (.thermalTrip t) s = .next u ∧ u.dev.phase = .flushing ∧ u.dev.thermalTrip = true)

/-- FLR, PERST_N and a link-down put the registers of the HOST island that R57 names to their reset values: of each ring the cursor and
the last sequence stand, and which records have been delivered, the rest is as reset; MSI-X, the selection, the page and the read
latch are cleared. The rest of the HOST group and every other group of the state are as before (R57). -/
def Obligations.HostIslandReset : Prop :=
  ∀ s : State, s.dev.phase ≠ .off →
    let u := hostReset s
    exec .functionLevelReset s = .next (settle s u) ∧ exec .perstNAssert s = .next (settle s u) ∧ exec .pcieLinkDown s = .next (settle s u)
      ∧ u = { s with host := { s.host with
          rings := u.host.rings, running := u.host.running, waiting := u.host.waiting, select := 0#32, page := 0#16,
          msixEnable := false, msixMask := false, msix := [], pba := 0#64, latch := [], stalled := [] } }
      ∧ (∀ n, ring u n = { erCursor := (ring s n).erCursor, erLastSeq := (ring s n).erLastSeq, erEver := (ring s n).erEver })
      ∧ (∀ x ∈ u.host.running, x.rings = []) ∧ (∀ w ∈ u.host.waiting, w.quiet = true)
      ∧ u.host.running.length = s.host.running.length ∧ u.host.waiting.length = s.host.waiting.length

/-! ### Rings, results, interrupts (R59 to R64, R71 to R75) -/

/-- CQ_CTRL takes a write with CQ_ORDER at most 6 that leaves CQ_ORDER while the ring submits; a value above 6, or a change of
CQ_ORDER while the ring submits, is ignored as a whole; SQ_BASE and CQ_BASE are ignored while it submits (R60, R64). -/
def Obligations.RingBasesStandWhileSubmitting : Prop :=
  ∀ (s : State) (n : Nat) (v : Word), s.dev.phase = .running → n < 16 →
    (bits v 0 4 ≤ 6 → ((ring s n).submits = false ∨ bits v 0 4 = bits (ring s n).cqCtrl 0 4) →
        ∃ t, exec (.cqEnable n v) s = .next t ∧ (ring t n).cqCtrl = v &&& 0xFFFFFF3F#32)
      ∧ ((6 < bits v 0 4 ∨ ((ring s n).submits = true ∧ bits v 0 4 ≠ bits (ring s n).cqCtrl 0 4)) →
          exec (.cqEnable n v) s = .next (settle s s))
      ∧ ((ring s n).submits = true → ∀ off ∈ [0x04, 0x14],
          ∃ t, exec (.registerWrite false (0x1000 + n * 0x80 + off) 15#4 v) s = .next t
            ∧ (ring t n).sqBase = (ring s n).sqBase ∧ (ring t n).cqBase = (ring s n).cqBase)

/-- The doorbells and enables of a ring: SQ_TAIL, CQ_HEAD and RING_CTRL hold what was written; an export ring that becomes
enabled writes again from its cursor (R62 to R64, R75). RESULT_SELECT and RESULT_PAGE choose what the window shows; RESULT_RELEASE drops the token and no other (R71). -/
def Obligations.RingAndResultRegistersHold : Prop :=
  (∀ (s : State) (n : Nat) (v : Word), s.dev.phase = .running → n < 16 →
      (∃ t, exec (.sqTail n v) s = .next t ∧ (ring t n).sqTail = v.truncate 12)
        ∧ (∃ t, exec (.cqHead n v) s = .next t ∧ (ring t n).cqHead = v.truncate 12)
        ∧ (∃ t, exec (.submissionEnable n v) s = .next t ∧ (ring t n).ringCtrl = v &&& 3#32)
        ∧ (v.getLsbD 0 = true → (ring s n).ringCtrl.getLsbD 1 = true → (ring s n).erCtrl.getLsbD 0 = false →
            ∃ t, exec (.exportEnable n false v) s = .next t ∧ (ring t n).erCtrl = v &&& 0xFFFFFF03#32
              ∧ (ring t n).erWritten = (ring t n).erCursor.toNat))
    ∧ (∀ (s : State) (v : Word), s.dev.phase = .running →
      exec (.resultSelect v) s = .next (settle s (s.onHost fun h => { h with select := v }))
        ∧ exec (.resultPage v) s = .next (settle s (s.onHost fun h => { h with page := v.truncate 16 }))
        ∧ exec (.resultRelease v) s
            = .next (settle s (s.onHost fun h => { h with tokens := h.tokens.filter fun t => t.id != v })))

/-- ER_CREDIT adds to its ring's credit, capped at ER_SIZE (R75). ER_CURSOR takes effect with its upper word: a value from the cursor to
the last sequence produced becomes the cursor and releases the records at or below it; a value outside is ignored (R52, R59); the lower
word is kept till then. The next record a ring owes is written at ER_PRODUCER where credit covers it and the room left to the end of the
ring is enough for it: ER_PRODUCER advances by its length and the credit falls by it; a record that would straddle the end waits for a
filler of the room left, and one that credit does not cover waits (R74). -/
def Obligations.ExportRingFlows : Prop :=
  (∀ (s : State) (n : Nat) (v : Word), s.dev.phase = .running → n < 16 →
      exec (.erCredit n v) s
        = .next (settle s (modRing n (fun r => { r with erCredit := min (r.erCredit + v.toNat) r.erSize.toNat }) s)))
    ∧ (∀ (s : State) (n : Nat) (v : Word), s.dev.phase = .running → n < 16 →
      let c := (v ++ Tbl.getD (ring s n).low 0x30 0#32 : DWord)
      exec (.erCursor n false v) s = .next (settle s (modRing n (fun r => { r with low := Tbl.put r.low 0x30 v }) s))
        ∧ ((ring s n).erCursor.toNat ≤ c.toNat → c.toNat ≤ (ring s n).erLastSeq.toNat →
          (∀ k ∈ s.met.shards, k.2.moving = none) →
          ∃ t, exec (.erCursor n true v) s = .next t ∧ (ring t n).erCursor = c
            ∧ ∀ x ∈ t.met.records, x.ring = n → x.seq ≠ 0 → c.toNat < x.seq)
        ∧ ((c.toNat < (ring s n).erCursor.toNat ∨ (ring s n).erLastSeq.toNat < c.toNat) →
            exec (.erCursor n true v) s = .next (settle s s)))
    ∧ (∀ (s : State) (n : Nat) (x : Rec), s.dev.phase = .running → n < 16 → (ring s n).exports = true → nextExport s n = some x →
      let left := (ring s n).erSize.toNat - (ring s n).erProducer.toNat
      (recLength x < left → recLength x ≤ (ring s n).erCredit →
        ∃ t, exec (.exportRecordWrite n) s = .next t ∧ (ring t n).erCredit = (ring s n).erCredit - recLength x
          ∧ (ring t n).erProducer.toNat = ((ring s n).erProducer.toNat + recLength x) % 2 ^ 32 ∧ (ring t n).erWritten = x.seq
          ∧ t.met = s.met)
        ∧ (recLength x ≤ left → (ring s n).erCredit < recLength x → exec (.exportRecordWrite n) s = .next (settle s s))
        ∧ (left < recLength x → 0 < left → left ≤ (ring s n).erCredit →
            exec (.exportRecordWrite n) s = .next (settle s (putExport n left (fillerBytes left) s))))

/-- Privet holds 16,384 entries; a pop, of all 32 B or of bytes of word 0 alone, returns the oldest of the highest priority present; a full queue loses the oldest of the
lowest priority among the queued and the arriving one, and counts it (R76). -/
def Obligations.PrivetOrder : Prop :=
  (∀ (s : State) (n : Notice) (rest : List Notice), s.dev.phase = .running → popNotice s.host.notices = some (n, rest) →
      n ∈ s.host.notices ∧ rest = s.host.notices.erase n ∧ (∀ m ∈ s.host.notices, n.prio ≤ m.prio)
        ∧ s.host.notices.find? (fun m => m.prio == n.prio) = some n
        ∧ (∃ t, exec .noticePop s = .next t ∧ t.host.notices = rest
          ∧ t.host.latch = noticeBytes n ∧ .read (noticeBytes n) ∈ t.host.out)
        ∧ ∀ be, be ≠ 0#4 → ∃ t, exec (.rcRead { off := 0x30000, be := be }) s = .next t ∧ t.host.notices = rest
          ∧ t.host.latch = noticeBytes n ∧ .read (enabled be (BitVec.ofNat 32 (field (noticeBytes n) 0 4))) ∈ t.host.out)
    ∧ (∀ (q : List Notice) (n : Notice), q.length < 16384 → admitNotice q n = (q ++ [n], none))
    ∧ (∀ (q : List Notice) (n : Notice), 16384 ≤ q.length → (∀ m ∈ q ++ [n], m.prio ≤ 3) →
        ∃ v, (q ++ [n]).find? (fun m => m.prio == v.prio) = some v ∧ (∀ m ∈ q ++ [n], m.prio ≤ v.prio)
          ∧ admitNotice q n = ((q ++ [n]).erase v, some v.prio))
    ∧ (∀ (s : State) (code prio source : Nat) (data : Bytes), s.host.stalled = [] →
        let n : Notice := { code, prio, seq := s.host.noticeSeq % 2 ^ 32, stamp := s.tim.tb2, source, data := slice data 0 8 }
        (post code prio source data s).host.notices = (admitNotice s.host.notices n).1
          ∧ (post code prio source data s).host.lost
              = match (admitNotice s.host.notices n).2 with | some p => bump s.host.lost p | none => s.host.lost)

/-- A pop of an empty queue, of all 32 B or of bytes of word 0 alone, stalls and ends with an all-zero entry once the stall limit has passed (R77). -/
def Obligations.EmptyPopStalls : Prop :=
  ∀ s : State, s.dev.phase = .running →
    (popNotice s.host.notices = none →
        exec .noticePop s = .next (settle s (s.onHost fun h => { h with stalled := h.stalled ++ [(tb6 s, none)] }))
          ∧ ∀ be, be ≠ 0#4 → exec (.rcRead { off := 0x30000, be := be }) s
              = .next (settle s (s.onHost fun h => { h with stalled := h.stalled ++ [(tb6 s, some be)] })))
      ∧ (∀ t r rest, s.host.stalled = (t, r) :: rest → t + s.host.stallLimit.toNat * 1000 ≤ tb6 s →
          exec .noticePopStallTimeout s
            = .next (settle s (emit (.read (popBytes r [])) (s.onHost fun h => { h with stalled := rest, latch := [] }))))

/-- MSI-X is enabled with nothing pending; a vector that is unmasked with its bit pending sends its message; a coalescing time that has
passed signals its vector. -/
def Obligations.InterruptsAreDelivered : Prop :=
  (∀ s : State, s.dev.phase = .running → s.host.pba = 0#64 →
      exec (.msixUnmask (.control true false)) s = .next (settle s (s.onHost fun h => { h with msixEnable := true, msixMask := false })))
    ∧ (∀ (s : State) (v : Fin 64), s.dev.phase = .running → s.host.msixEnable = true → s.host.msixMask = false →
        s.host.pba.getLsbD v.val = true →
        ∃ t, exec (.msixUnmask (.vector v false)) s = .next t
          ∧ Out.msix v.val (Tbl.getD s.host.msix v.val {}).addr (Tbl.getD s.host.msix v.val {}).data ∈ t.host.out)
    ∧ (∀ (s : State) (v : Nat) (d : Nat), s.dev.phase = .running → v < 16 → (ring s v).cqDeadline = some d → d ≤ tb6 s →
        exec (.interruptCoalesceTimeout v) s
          = .next (settle s (signal v (modRing v (fun r => { r with cqUnsignalled := 0, cqDeadline := none }) s))))

/-- REGISTER_WRITE: a part word or a misaligned access outside Laurel, an offset with no register and the maintenance block leave
the state; a value outside a register's range is ignored as a whole and one inside it is taken (R58 to R60, R70). -/
def Obligations.RegisterWritesTakeOrIgnore : Prop :=
  ∀ (s : State) (v : Word), s.dev.phase = .running →
    (∀ (off : Nat) (be : BitVec 4), off < 0x80000 → (be ≠ 15#4 ∨ off % 4 ≠ 0) →
        exec (.registerWrite false off be v) s = .next (settle s s))
      ∧ (∀ off, (0xFF000 ≤ off ∨ (0x50000 ≤ off ∧ off < 0x60000) ∨ off < 0x1000) →
          exec (.registerWrite false off 15#4 v) s = .next (settle s s))
      ∧ (v.toNat ≤ 20000 → exec (.registerWrite false 0x30020 15#4 v) s = .next (settle s (s.onHost fun h => { h with stallLimit := v })))
      ∧ (20000 < v.toNat → exec (.registerWrite false 0x30020 15#4 v) s = .next (settle s s))
      ∧ ((1 ≤ v.toNat ∧ v.toNat ≤ 500) → exec (.registerWrite false 0x60110 15#4 v) s = .next (settle s (s.onTim fun t => { t with aoPpm := v })))
      ∧ (¬ (1 ≤ v.toNat ∧ v.toNat ≤ 500) → exec (.registerWrite false 0x60110 15#4 v) s = .next (settle s s))
      ∧ ((1024 ≤ v.toNat ∧ v.toNat ≤ 65535) → exec (.registerWrite false 0x72000 15#4 v) s = .next (settle s (s.onPwr fun p => { p with holdLimit := v })))
      ∧ (¬ (1024 ≤ v.toNat ∧ v.toNat ≤ 65535) → exec (.registerWrite false 0x72000 15#4 v) s = .next (settle s s))

/-- A write of BAR2 stores the bytes it enables, and no other byte changes; it, a write of Laurel's frame memory and a strip burst
keep the canonical form of the memories they store to (R59, R65). -/
def Obligations.MemoryWritesStoreTheirBytes : Prop :=
  (∀ (s : State) (off : Nat) (be : BitVec 4) (v : Word), s.dev.phase = .running → off + 4 ≤ 2 ^ 28 →
      ∃ t, exec (.registerWrite true off be v) s = .next t
        ∧ (∀ i, i < 4 → Memory.read t.host.bar2 (off + i)
            = if be.getLsbD i then (v >>> (8 * i)).truncate 8 else Memory.read s.host.bar2 (off + i))
        ∧ (∀ a, (a < off ∨ off + 4 ≤ a) → Memory.read t.host.bar2 a = Memory.read s.host.bar2 a))
    ∧ (∀ (s : State) (off : Nat) (be : BitVec 4) (v : Word), s.dev.phase = .running → MemoriesCanonical s →
        (∃ t, exec (.registerWrite true off be v) s = .next t ∧ MemoriesCanonical t)
          ∧ (0x84000 ≤ off → off < 0x84800 → ∃ t, exec (.registerWrite false off be v) s = .next t ∧ MemoriesCanonical t)
          ∧ (∃ t, exec .stripRefreshBurst s = .next t ∧ MemoriesCanonical t))

/-- Each RC statistic of a link channel saturates, returns its count when read and is cleared by the read, and a broadcast write
to it is ignored (R97). What a blanking channel has erased since it was last looked at joins the two blanking counts first, an open
value (assumption log 36); a channel with blanking off adds nothing. -/
def Obligations.CountersClearOnRead : Prop :=
  ∀ (s : State) (n x : Nat), s.dev.phase = .running → n < 256 → rcStat (chan s n).act.macType x = true →
    (∀ k, (Tbl.getD (chan (countStat n x k s) n).stats x 0#32).toNat = min ((Tbl.getD (chan s n).stats x 0#32).toNat + k) (2 ^ 32 - 1))
      ∧ (let u := if x = 0x90 ∨ x = 0x94 then accrueBlank n s else s
         exec (.rcRead { off := 0x10000 + 0x100 * n + x }) s
           = .next (settle s (emit (.read (le 4 (Tbl.getD (chan u n).stats x 0#32).toNat))
               (modChan n (fun c => { c with stats := Tbl.del c.stats x }) u))))
      ∧ ((chan s n).act.blankOn = false → accrueBlank n s = s)
      ∧ (∀ off v, off % 256 = x → exec (.broadcastWrite off v) s = .next (settle s s))

/-! ### Host commands (R47, R48, R66, R69, R389, R390) -/

/-- A host command of the catalogue that is served, waits for nothing and passes every check of R66 is performed on the state its
checks leave: exec answers a next state. -/
def Obligations.HostCommandsTakeEffect : Prop :=
  ∀ (c : Instr) (x : CmdDef) (d : Desc) (s : State), hostDef c = some (x, d) → Goes x d s →
    exec c s = .next (settle s (performed x d s))

/-- A command in a session its role code does not admit, or one that names a session that is not open, completes with IGNORED at step 2
(R66, R390), and leaves meters, tariffs, ledger, vault, storage, lanes and Yew as they are. -/
def Obligations.WrongRoleIsIgnored : Prop :=
  ∀ (c : Instr) (x : CmdDef) (d : Desc) (s : State), hostDef c = some (x, d) → Serving d s → mustWait x d s = false →
    FirstSeen x d s → admitted (x.role (noted d s)) d (noted d s) = false →
      ∃ t, exec c s = .next t
        ∧ t = settle s (answer (x.role (noted d s) != .any && (session (noted d s) d.session).isSome) d (plain d.tag stIgnored []) (noted d s))
        ∧ t.met = s.met ∧ t.tar = s.tar ∧ t.led = s.led ∧ t.vlt = s.vlt ∧ t.cop = s.cop ∧ t.lane = s.lane ∧ t.yew = s.yew

/-- Any other opcode completes with IGNORED, whatever its session, once no earlier command of its ring keeps it waiting; till then it
takes its place behind them (R62, R389). -/
def Obligations.UndefinedOpcodeIsIgnored : Prop :=
  ∀ (d : Desc) (op : Nat) (s : State), Serving d s →
    (ringWaits d s = false → exec (.descriptorUndefinedOpcode d op) s
        = .next (settle s (complete d.ring.val (plain d.tag stIgnored []) (Desc.noIrq d) s)))
      ∧ (ringWaits d s = true → exec (.descriptorUndefinedOpcode d op) s
        = .next (s.onHost fun h => { h with waiting := h.waiting ++
            [{ ring := d.ring.val, objects := [], cmd := .descriptorUndefinedOpcode d op, quiet := false }] }))

/-- A command whose tag its session has recorded as complete is not applied again: the original completion is returned, and meters,
tariffs, downlink, vault, storage, pair and firmware are as before (R48). -/
def Obligations.RepeatedTagIsAnsweredAgain : Prop :=
  ∀ (c : Instr) (x : CmdDef) (d : Desc) (s : State) (y : Session) (r : CmdRecord) (o : Completion),
    hostDef c = some (x, d) → Serving d s → mustWait x d s = false → session s d.session = some y →
    belowWindow y d.tag = false → recorded y d.tag = some r → r.completion = some o → x.role s ≠ .any →
      ∃ t, exec c s = .next t ∧ t = settle s (complete d.ring.val (again s o) (Desc.noIrq d) (seeTag d.session d.tag s))
        ∧ t.met = s.met ∧ t.tar = s.tar ∧ t.dl = s.dl ∧ t.vlt = s.vlt ∧ t.cop = s.cop ∧ t.pair = s.pair ∧ t.fw = s.fw

/-- A host command that must wait changes nothing but takes its place among the commands that wait (R62, R396);
that this place is a queue tried again when none is pending is the model's choice (assumption log 9). -/
def Obligations.WaitingCommandsKeepTheirPlace : Prop :=
  ∀ (c : Instr) (x : CmdDef) (d : Desc) (s : State), hostDef c = some (x, d) → Serving d s → mustWait x d s = true →
    ∃ w : Waiting, w.cmd = c ∧ w.ring = d.ring.val ∧ exec c s = .next (s.onHost fun h => { h with waiting := h.waiting ++ [w] })

/-- The commands that set one durable value set it: the device ID with its directory secret, the background share, the hold-up
budget, ledger retention, Yew hold, drain window, maintenance unlock, and a session's close. -/
def Obligations.SettingsAreSet : Prop :=
  ∀ (d : Desc) (s : State),
    (Goes deviceIdSetDef d s → ∃ t, exec (.deviceIdSet d) s = .next t ∧ t.dev.deviceId = BitVec.ofNat 32 (field d.inline 0 4)
        ∧ (Tbl.get t.vlt.keys 6).isSome = true)
      ∧ (Goes shareSetDef d s → ∃ t, exec (.shareSet d) s = .next t ∧ t.dev.share = field d.inline 0 1
          ∧ 2 ≤ t.dev.share ∧ t.dev.share ≤ 25)
      ∧ (Goes holdupBudgetSetDef d s → ∃ t, exec (.holdupBudgetSet d) s = .next t ∧ t.prot.budget = field d.inline 0 2
          ∧ 5 ≤ t.prot.budget ∧ t.prot.budget ≤ 200)
      ∧ (Goes ledgerRetentionSetDef d s → ∃ t, exec (.ledgerRetentionSet d) s = .next t ∧ t.led.retention = field d.inline 0 2
          ∧ 62 ≤ t.led.retention ∧ t.led.retention ≤ 1100)
      ∧ (Goes yewHoldSetDef d s → ∃ t, exec (.yewHoldSet d) s = .next t ∧ t.yew.hold = field d.inline 0 2
          ∧ 30 ≤ t.yew.hold ∧ t.yew.hold ≤ 10958)
      ∧ (Goes drainWindowSetDef d s → ∃ t, exec (.drainWindowSet d) s = .next t ∧ t.pair.drain = field d.inline 0 1
          ∧ 1 ≤ t.pair.drain ∧ t.pair.drain ≤ 60)
      ∧ (Goes maintUnlockDef d s → ∃ t, exec (.maintUnlock d) s = .next t ∧ t.vlt.maintUnlocked = some d.session)
      ∧ (Goes sessionCloseDef d s → ∃ t, exec (.sessionClose d) s = .next t ∧ ∀ y ∈ t.host.sessions, y.id ≠ d.session)

/-- The shard commands turn a shard's state: SHARD_CREATE holds it at the next epoch, SHARD_DELETE lets it go and keeps its epoch,
MIGRATE_PREPARE makes it INCOMING, MIGRATE_RELEASE DRAINING till the drain window's end. -/
def Obligations.ShardCommandsTurnTheState : Prop :=
  ∀ (d : Desc) (s : State),
    let k := field d.inline 0 1
    (Goes shardCreateDef d s → ∃ t, exec (.shardCreate d) s = .next t ∧ (shard t k).state = .held
        ∧ (shard t k).epoch = nextEpoch (shard s k).epoch)
      ∧ (Goes shardDeleteDef d s → ∃ t, exec (.shardDelete d) s = .next t ∧ (shard t k).state = .unheld
          ∧ (shard t k).epoch = (shard s k).epoch)
      ∧ (Goes migratePrepareDef d s → ∃ t, exec (.migratePrepare d) s = .next t ∧ (shard t k).state = .incoming)
      ∧ (Goes migrateReleaseDef d s → ∃ t, exec (.migrateRelease d) s = .next t ∧ (shard t k).state = .draining
          ∧ (shard t k).drainEnd = tb7 s + s.pair.drain * nsMin)

/-- The loads that replace a record replace it whole: a layout, a rule set, a tamper map, Bramble defaults. -/
def Obligations.LoadsReplaceRecords : Prop :=
  ∀ (d : Desc) (s : State),
    let p := payloadOf s d
    (Goes layoutLoadDef d s → ∃ t, exec (.layoutLoad d) s = .next t ∧ Tbl.get t.met.layouts (field d.inline 0 1) = some (layoutOf p))
      ∧ (Goes ruleSetLoadDef d s → ∃ t, exec (.ruleSetLoad d) s = .next t ∧ Tbl.get t.met.ruleSets (field d.inline 0 1) = some (rulesOf p))
      ∧ (Goes tamperMapLoadDef d s → ∃ t, exec (.tamperMapLoad d) s = .next t ∧ t.lt.tamperMap = tamperMapOf p)
      ∧ (Goes brambleDefaultsDef d s → ∃ t, exec (.brambleDefaults d) s = .next t
          ∧ Tbl.get t.br.defaults (field d.inline 0 2) = some (brParamsOf p))

/-- Own firmware: IMAGE_BEGIN turns the inactive slot LOADING with its length, IMAGE_ABORT EMPTY; CONFIRM lifts the floor to the running
image's version; 600 s of TRIAL without CONFIRM expire and leave both slots; and a swap of Holly's firmware that is due is made while no
resource of Hawthorn is owned. -/
def Obligations.FirmwareSlotsTurn : Prop :=
  (∀ (d : Desc) (s : State), Goes imageBeginDef d s →
      ∃ t, exec (.imageBegin d) s = .next t ∧ (inactive t).state = .loading ∧ (inactive t).length = field d.inline 0 4)
    ∧ (∀ (d : Desc) (s : State), Goes imageAbortDef d s → ∃ t, exec (.imageAbort d) s = .next t ∧ (inactive t).state = .empty)
    ∧ (∀ (d : Desc) (s : State), Goes confirmDef d s →
        ∃ t, exec (.confirm d) s = .next t ∧ t.fw.floor = max s.fw.floor (runningImg s).version)
    ∧ (∀ s : State, s.dev.phase = .running → inTrial s = true → s.fw.expired = false → s.fw.trialAt + 600 * nsPerS ≤ tb6 s →
        ∃ t, exec .fwTrialExpired s = .next t ∧ t.fw.expired = true ∧ t.fw.a = s.fw.a ∧ t.fw.b = s.fw.b)
    ∧ (∀ s : State, s.dev.phase = .running → s.vlt.swapDue = true → s.pwr.owners = [] →
        exec .securityProcessorSwap s = .next (settle s (s.onVlt fun v => { v with swapDue := false })))

/-! ### Channels and ports (R78 to R80, R84, R85, R89, R90, R93 to R95, R340) -/

/-- A broadcast write is a direct write in every channel its block reaches and in no other (R78, R79). -/
def Obligations.BroadcastReachesItsTargets : Prop :=
  ∀ (s : State) (g : Nat) (v : Word), s.dev.phase = .running → g < 16 →
    ∃ t, exec (.broadcastWrite (0x20000 + 0x100 * g) v) s = .next t
      ∧ (∀ n, n < 256 → (chan s n).groupMask.getLsbD g = true → (chan t n).shadow.bind = v &&& 0x3FFFF#32)
      ∧ (∀ n, (256 ≤ n ∨ (chan s n).groupMask.getLsbD g = false) → chan t n = chan s n)
      ∧ t.met = s.met ∧ t.hr = s.hr ∧ t.br = s.br

/-- APPLY through a broadcast block waits with its targets, changing no channel, and takes effect on all of them together once no
acknowledgement is owed (R80, R90). A channel refused at APPLY keeps its configuration in force and shows the reason; one that passes has its shadow in force
(R80, R89). -/
def Obligations.ApplyTakesOrRefuses : Prop :=
  ((∀ (s : State) (v : Word), s.dev.phase = .running → v.getLsbD 0 = true →
        exec (.applyWrite 0x2103C v) s
          = .next (settle s (s.onLane fun l => { l with applyPending := l.applyPending ++ [(tb6 s, List.range 256)] })))
      ∧ (∀ (s : State) (x : Nat × List Nat), s.dev.phase = .running → s.lane.applyPending.find? (mayApply s) = some x →
          exec .applyTakesEffect s
            = .next (settle s (applyEvent x.2 (s.onLane fun l => { l with applyPending := l.applyPending.erase x }))))
      ∧ (∀ (s : State) (t : Nat) (event : List Nat), (owesAck s event = false ∨ t + nsMs ≤ tb6 s) → mayApply s (t, event) = true))
    ∧ (∀ (s : State) (n reason : Nat),
      (chan (refuseChan n reason s) n).act = (chan s n).act ∧ (chan (refuseChan n reason s) n).reason = reason
        ∧ (chan (applyChan n s) n).act = (chan s n).shadow ∧ (chan (applyChan n s) n).refused = false
        ∧ (∀ m, m ≠ n → chan (refuseChan n reason s) m = chan s m ∧ (chan (applyChan n s) m).act = (chan s m).act))

/-- A port goes from TRAINING to ALIGNED at lane lock, with the link parameters of its configuration where its standard sends them
(R83), to UP at a SYSREF edge, to DOWN when lock is lost and back to TRAINING
1 ms later (R84, R85). A SYSREF edge off the phase of an UP port is counted, up to 65,535, without realignment (R84). -/
def Obligations.PortStatesFollow : Prop :=
  (∀ (s : State) (p : Nat), s.dev.phase = .running → p < 16 →
      (∀ x, (port s p).state = .training → (port s p).configured = true → linkMatches (port s p) x = true →
          exec (.portLaneLock { port := p, ilas := x }) s = .next (settle s (modPort p (fun q => { q with state := .aligned }) s)))
        ∧ (∀ x, linkMatches (port s p) x = false → exec (.portLaneLock { port := p, ilas := x }) s = .next (settle s s))
        ∧ ((port s p).state = .aligned → ∃ t, exec (.sysrefEdge [(p, true)]) s = .next t ∧ (port t p).state = .up)
        ∧ ((port s p).state = .up → ∃ t, exec (.portLockLost p) s = .next t ∧ (port t p).state = .down
            ∧ (port t p).retrainAt = tb6 s + nsMs ∧ (port t p).queue = [])
        ∧ ((port s p).state = .down → (port s p).retrainAt ≤ tb6 s →
            exec (.portRetrain p) s = .next (settle s (modPort p (fun q => { q with state := .training }) s))))
    ∧ (∀ (s : State) (p : Nat), s.dev.phase = .running → p < 16 → (port s p).state = .up →
      ∃ t, exec (.sysrefEdge [(p, false)]) s = .next t ∧ (port t p).state = .up
        ∧ (port t p).sysrefSlip = min ((port s p).sysrefSlip + 1) 65535)

/-- A port calibrated outside its erasure span, 10 s after the last time, holds what was measured and owes a swap of coefficients. At a
quiet block boundary of an UP port within 500 ms of the measurement the swap is made, and at any boundary once three searches have
found none (R93). Microcode due at a port is swapped in while nothing is in progress or queued there (R335). -/
def Obligations.CalibrationIsSwapped : Prop :=
  ∀ (s : State) (p : Nat), s.dev.phase = .running →
    (∀ m : CalIn, (port s p).state = .up → (port s p).calibrated + 10 * nsPerS ≤ tb6 s → (port s p).eraseUntil ≤ portNow s p →
        ∃ t, exec (.portCalibration p m) s = .next t ∧ (port t p).eyeMargin = m.eye ∧ (port t p).swapDue = true
          ∧ (port t p).calibrated = tb6 s)
      ∧ (∀ quiet, (port s p).swapDue = true → (port s p).state = .up →
          ((quiet = true ∧ tb6 s ≤ (port s p).calibrated + swapSearch) ∨ 3 ≤ (port s p).swapMisses) →
          exec (.calibrationSwap p quiet) s
            = .next (settle s (modPort p (fun x => { x with swapDue := false, swapMisses := 0, coeffs := x.measured }) s)))
      ∧ (p ∈ s.lane.microcodeDue → inProgress s p = [] → (port s p).queue = [] →
          exec (.laneMicrocodeSwap p) s
            = .next (settle s (s.onLane fun l => { l with microcodeDue := l.microcodeDue.filter fun x => x != p })))

/-- A launch at the head of a port's queue whose instant has come starts on its lane while fewer than 16 are in progress: at its
instant, or at the end of the one it waited for; with TX_ENABLE its samples leave at the level TX_BACKOFF sets (R94, R95). -/
def Obligations.LaunchesStartInOrder : Prop :=
  ∀ (s : State) (p : Nat) (l : Launch) (rest : List Launch), s.dev.phase = .running → (port s p).queue = l :: rest →
    laneStart s (chan s l.lc).act l.launch ≤ macNow s (chan s l.lc).act → (inProgress s p).length < 16 →
      ∃ t, exec (.timedLaunch p) s = .next t ∧ (port t p).queue = rest ∧ { l with launch := launchAt s p l } ∈ (port t p).active
        ∧ ((endsAfter s p l.launch).length < 16 → launchAt s p l = l.launch)
        ∧ ((port s p).txEnable = true →
            Out.tx p l.lc (launchAt s p l) (bits (chan s l.lc).act.txBackoff 0 8 + 48) l.frame ∈ t.host.out)

/-! ### Hedgerow (R102, R105, R108, R109, R112, R114 to R118) -/

/-- An intact new DATA frame of a held shard that fits is taken once: one intake entry with the next take sequence, its bytes and
origin Hedgerow (R26, R107, R109, R433). Taken DATA that does not fit latches the refusal and is counted: no entry is written (R39). -/
def Obligations.HedgerowDataIsTakenOrRefused : Prop :=
  (∀ (r₀ : HrRx) (s : State), s.dev.phase = .running → let r := hrSeen s r₀; hrReaches htData r s → hrWhole r s → hrNew r s →
      drained s (linkAddress 0 r.bytes / 4096) = false → mayTake (intakeSize r.bytes) s = true →
        ∃ t e, exec (.hrDataRx r₀) s = .next t ∧ t.prot.intake = s.prot.intake ++ [e] ∧ t.prot.takeSeq = s.prot.takeSeq + 1
          ∧ e.seq = s.prot.takeSeq + 1 ∧ e.frame = r.bytes ∧ e.origin = 0 ∧ e.lc = r.lc)
    ∧ (∀ (r₀ : HrRx) (s : State), s.dev.phase = .running → let r := hrSeen s r₀; hrReaches htData r s → hrWhole r s → hrNew r s →
      drained s (linkAddress 0 r.bytes / 4096) = false → mayTake (intakeSize r.bytes) s = false →
        ∃ t, exec (.hrDataRx r₀) s = .next t ∧ t.prot.intake = s.prot.intake ∧ t.prot.takeSeq = s.prot.takeSeq
          ∧ t.prot.refused = s.prot.refused + 1)

/-- What an intact Hedgerow frame of each other type does to the state it leaves once heard: an ACK ends the exchange it answers; a NACK
is a failed attempt of it; a beacon whose time differs from TB4 by more than one BSL is reported; a new tone map that asks for no answer
is kept for its ACK, and one whose ACK is queued is in force with no refresh due; a new report of a neighbour notes when it came; a
JOIN_REQ of a meter not in the directory is answered with result 1. -/
def Obligations.HedgerowFramesAct : Prop :=
  ∀ (r₀ : HrRx) (s : State), s.dev.phase = .running →
    let r := hrSeen s r₀
    let net := hfNet r.bytes
    let src := hfSource r.bytes
    let c := (chan s r.lc).act
    let u₀ := countStat r.lc stRxDetect 1 s
    let u := onLink r (fun y => { y.heard r.lc (meanSnr c.plan r) with fails := failsLeft c y }) u₀
    hrWhole r s →
    (hrReaches htAck r s → ∀ x, sentTx u net src (hfSeq r.bytes) = some x →
        exec (.hrAckRx r₀) s = .next (settle s (hrDelivered net x (hrRefresh r (dropTx net x u)))))
      ∧ (hrReaches htNack r s → ∀ x, sentTx u net src (hfSeq r.bytes) = some x →
          exec (.hrNackRx r₀) s
            = .next (settle s (failTx net x (hfBit r.bytes 10) (retryAt (hrRefresh r u) net r x) (hrRefresh r u))))
      ∧ (hrReaches htBeacon r s →
          let said := nsOf (field (hrPayload r.bytes) 4 12) + hfLevel r.bytes * bslOf u net
          bslOf u net < (said - r.span.1) + (r.span.1 - said) →
          exec (.hrBeaconRx r₀) s = .next (settle s (report 0x9104 kChannel r.lc (le 2 net) 0x0503 1 r.lc (le 2 net) u)))
      ∧ (hrReaches htToneMap r s → hrNew r s → (neigh s net src).isSome = true → hfWants r.bytes = false →
          ∃ t x, exec (.hrToneMapRespRx r₀) s = .next t ∧ neigh t net src = some x
            ∧ x.txNext = some (mapOfBytes (tb6 s) (hrPayload r.bytes)))
      ∧ (hrReaches htToneMap r s → hrNew r s → (neigh s net src).isSome = true → hfWants r.bytes = true → hfBit r.bytes 9 = false →
          canSend s r.lc = true → earliestLaunch s c ≤ r.span.2 + ackGap → (port s c.port).queue.length < 32 →
          tb4 s ≤ r.span.2 + takeDeadline →
          ∃ t x, exec (.hrToneMapRespRx r₀) s = .next t ∧ neigh t net src = some x
            ∧ x.tx = some (mapOfBytes (tb6 s) (hrPayload r.bytes)) ∧ x.refresh = false)
      ∧ (hrReaches htReport r s → hrNew r s → hfWants r.bytes = false → hfEnd r.bytes = src → (neigh s net src).isSome = true →
          ∃ t x, exec (.hrNeighbourReportRx r₀) s = .next t ∧ neigh t net src = some x ∧ x.reported = tb6 s)
      ∧ (hrReaches htJoinReq r s → maySend s = true → hfWants r.bytes = false → joinSlot s (hrPayload r.bytes) = none →
          exec (.hrJoinReqRx r₀) s = .next (settle s (joinResp r.lc net src src 1 1 none (measure r false u₀))))

/-- The Hedgerow timers: a beacon that is queued takes the next number, and its instant is kept; in the contention access period a busy
channel raises BE and draws again, and a free one launches the frame that fits; an acknowledgement that does not come is a failed
attempt, and a tone map response not yet launched is launched; an old tone map asks for a refresh; and a route run that finds the routes
as they are leaves them. -/
def Obligations.HedgerowTimersAct : Prop :=
  ∀ (s : State) (net : Nat), s.dev.phase = .running →
    (∀ h : HrNet, Tbl.get s.hr net = some h → h.next = none → maySend s = true → hrChans s net ≠ [] →
        (let chans := (hrChans s net).filter fun lc => canSend s lc
         let soonest := chans.foldl (fun m lc => max m (earliestLaunch s (chan s lc).act)) (tb4 s)
         let instant := beaconAt (hrCfg s net) (max (h.lastBeacon + 1) soonest)
         instant ≤ tb4 s + max 1 (hrCfg s net).period * nsPerS →
         ∃ t, exec (.hrBeaconTx net) s = .next t ∧ (hrNet t net).beacon = h.beacon + 1 ∧ (hrNet t net).lastBeacon = instant))
      ∧ (∀ x, nextTx s net = some x → maySend s = true → inCap s net (tb4 s) (tb4 s) = true → x.assessed + 1 < (hrCfg s net).maxCsma →
          assessedAt (hrCfg s net) (chan s (txChan s net x)).act.plan (capOf s net (tb4 s)).1 x ≤ tb4 s →
          exec (.hrCsmaAttempt net true) s
            = .next (settle s (modTx net x (fun _ =>
                { x with be := min (max x.be (hrCfg s net).minBe + 1) (hrCfg s net).maxBe, assessed := x.assessed + 1,
                         since := tb4 s, draw := s.free }) s).draw))
      ∧ (∀ x, nextTx s net = some x → maySend s = true → inCap s net (tb4 s) (tb4 s) = true → x.bcast = false →
          let lc := txChan s net x
          assessedAt (hrCfg s net) (chan s lc).act.plan (capOf s net (tb4 s)).1 x ≤ tb4 s →
          let start := earliestLaunch s (chan s lc).act
          capFits s net (chan s lc).act.plan start (txBytes s net (chan s lc).act x).2 = true →
          exec (.hrCsmaAttempt net false) s = .next (settle s (launchTx net x start s)))
      ∧ (∀ dest x, overdue s net dest = some x →
          let at_ := placeAt s net (earliestLaunch s (chan s (txChan s net x)).act)
            (roboAirtime (chan s (txChan s net x)).act.plan 36 + ackGap + roboAirtime (chan s (txChan s net x)).act.plan 24)
          (x.sent = true → exec (.hrAckWaitTimeout net dest) s
              = .next (settle s (failTx net x false (if x.type = htToneMap then some at_ else none) s)))
            ∧ (x.sent = false → exec (.hrAckWaitTimeout net dest) s = .next (settle s (launchTx net x at_ s))))
      ∧ (∀ a x m, neigh s net a = some x → x.tx = some m → mapOld s (hrCfg s net) m = true →
          exec (.toneMapAgeExpiry net a) s = .next (settle s (modNeigh net a (fun x => { x with refresh := true }) s)))
      ∧ ((hrNet s net).changed = true → maySend s = true → (hrNet s net).next = none →
          (hrNet s net).recomputed + (hrCfg s net).routeInterval * nsPerS ≤ tb6 s →
          (newRoutes (hrNet s net) (hrCfg s net).maxLevel (hrCfg s net).hysteresis).all
              (fun p => decide (routeNow (hrNet s net) p.1 = p.2)) = true →
          exec (.routeRecompute net) s
            = .next (settle s (modNet net (fun h => { h with changed := false, recomputed := tb6 s }) s)))

/-- Commands that complete whatever they meet. A broadcast write is a direct write in each channel its block reaches and in no other,
at every offset of its configuration words, and nothing in the statistics range; DOM_CFG is ignored where it clashes with the other
domain's, taken at once by a domain that is DISABLED or LISTENING, and else kept for the next Sync (the model's reading, assumption log
31); a JOIN_REQ is answered with result 1 for a meter not in the directory, 2 where the neighbour table is full, and else admitted; a route run does nothing before its interval and else
keeps the routes or announces new ones; a port's next launch waits for its instant and its place among 16, and then starts. -/
def Obligations.TheseCommandsComplete : Prop :=
  ∀ s : State, s.dev.phase = .running →
    (∀ off v, ((0x80 ≤ off % 256 ∨ off % 4 ≠ 0 ∨ targets s off = []) → exec (.broadcastWrite off v) s = .next (settle s s))
        ∧ (off % 256 < 0x80 → off % 4 = 0 → ∃ t, exec (.broadcastWrite off v) s = .next t
            ∧ (∀ n ∈ targets s off, chan t n = chan (writeChan n (off % 256) v s) n) ∧ (∀ n, n ∉ targets s off → chan t n = chan s n)
            ∧ t.met = s.met ∧ t.hr = s.hr ∧ t.br = s.br ∧ t.tim = s.tim))
      ∧ (∀ b v, let w := v &&& 0xFF07#32
          let u := modDom b (fun d => { d with want := w }) s
          (cfgClash w (dom s (!b)).want = true → exec (.domCfg b v) s = .next (settle s s))
            ∧ (cfgClash w (dom s (!b)).want = false → ((dom s b).state = .disabled ∨ (dom s b).state = .listening) →
                exec (.domCfg b v) s = .next (settle s (applyCfg b u)))
            ∧ (cfgClash w (dom s (!b)).want = false → (dom s b).state ≠ .disabled → (dom s b).state ≠ .listening →
                exec (.domCfg b v) s = .next (settle s u)))
      ∧ (∀ r₀, (∃ t, exec (.hrJoinReqRx r₀) s = .next t)
          ∧ (let r := hrSeen s r₀
             let net := hfNet r.bytes
             let src := hfSource r.bytes
             let t := countStat r.lc stRxDetect 1 s
             let u := if hfWants r.bytes then acknowledge r (asksRefresh (chan t r.lc).act ((neigh t net src).getD {}) r) false t
               else measure r false t
             hrWhole r s → hrReaches htJoinReq r s → maySend s = true →
               (joinSlot u (hrPayload r.bytes) = none →
                  exec (.hrJoinReqRx r₀) s = .next (settle s (joinResp r.lc net src src 1 1 none u)))
                ∧ (∀ n, joinSlot u (hrPayload r.bytes) = some n → (neigh u net (n % 65536)).isNone = true → neighboursFull u = true →
                  exec (.hrJoinReqRx r₀) s = .next (settle s (tableFull (joinResp r.lc net src (n % 65536) 2 1 none u))))
                ∧ (∀ n, joinSlot u (hrPayload r.bytes) = some n → ((neigh u net (n % 65536)).isSome = true ∨ neighboursFull u = false) →
                  exec (.hrJoinReqRx r₀) s = .next (settle s (admitJoin r net src n u)))))
      ∧ (∀ net, let h := hrNet s net
          let routes := newRoutes h (hrCfg s net).maxLevel (hrCfg s net).hysteresis
          let u := modNet net (fun h => { h with changed := false, recomputed := tb6 s }) s
          let due := h.recomputed + (hrCfg s net).routeInterval * nsPerS ≤ tb6 s
          ((h.changed = false ∨ maySend s = false ∨ h.next.isSome = true ∨ ¬ due) →
              exec (.routeRecompute net) s = .next (settle s s))
            ∧ (h.changed = true → maySend s = true → h.next = none → due → (∀ p ∈ routes, routeNow h p.1 = p.2) →
              exec (.routeRecompute net) s = .next (settle s u))
            ∧ (h.changed = true → maySend s = true → h.next = none → due → (∃ p ∈ routes, routeNow h p.1 ≠ p.2) →
              exec (.routeRecompute net) s = .next (settle s (announceRoutes net routes u))))
      ∧ (∀ p, ((port s p).queue = [] → exec (.timedLaunch p) s = .next (settle s s))
          ∧ (∀ l rest, (port s p).queue = l :: rest →
              (macNow s (chan s l.lc).act < laneStart s (chan s l.lc).act l.launch ∨ 16 ≤ (inProgress s p).length) →
              exec (.timedLaunch p) s = .next (settle s s))
          ∧ (∀ l rest, (port s p).queue = l :: rest → laneStart s (chan s l.lc).act l.launch ≤ macNow s (chan s l.lc).act →
              (inProgress s p).length < 16 →
              ∃ t, exec (.timedLaunch p) s = .next t ∧ (port t p).queue = rest
                ∧ { l with launch := launchAt s p l } ∈ (port t p).active))

/-! ### Bramble (R126 to R139) -/

/-- An intact DATA frame of a connection, on its hop and with a counter that fits, new in its sequence, is taken once and
connects: the connection is CONNECTED, anchored at the frame, and its supervision starts anew (R26, R134, R135). -/
def Obligations.BrambleDataIsTaken : Prop :=
  ∀ (r₀ : BrRx) (s : State) (n : Nat) (c : Conn), s.dev.phase = .running → let r := brSeen s r₀; brReaches r s → bfType r.bytes = btData →
    connByWord s (bfWord r.bytes) = some (n, c) → Tbl.get s.br.conns n = some c → c.update = none → c.state = .connected →
    hopFits (chan s r.lc).act c false (bfCounter r.bytes) r.index = true → counterFits (chan s r.lc).act c false (bfCounter r.bytes) r.span.1 = true →
    classify c.win (bfSeq r.bytes) = .new → drained s (linkAddress 1 r.bytes / 4096) = false →
    mayTake (intakeSize r.bytes) s = true → bfWants r.bytes = false →
      ∃ t e, exec (.brDataRx r₀) s = .next t ∧ t.prot.intake = s.prot.intake ++ [e] ∧ e.frame = r.bytes ∧ e.origin = 1
        ∧ e.seq = s.prot.takeSeq + 1
        ∧ ∃ c1, Tbl.get t.br.conns n = some c1 ∧ c1.state = .connected ∧ c1.superviseAt = tb6 s + c.params.timeout * nsMs

/-- The other Bramble frames: a CONNECT_REQ with no slot is refused with result 1, and one of a meter with a connection is offered one; an
ACK of what was sent, with nothing more to send then, and a NACK note whether the meter's event stays open; and data under the access word
of a lost connection is answered as lost. -/
def Obligations.BrambleFramesAct : Prop :=
  ∀ (r₀ : BrRx) (s : State), s.dev.phase = .running → let r := brSeen s r₀; brReaches r s →
    let k := (chan s r.lc).act
    let u := brIntactState r s
    (bfType r.bytes = btConnectReq → bfWord r.bytes = rdvWord → r.index ∈ k.rdv → maySend s = true →
        (joinSlot s (brPayload r.bytes) = none →
          exec (.brConnectReqRx r₀) s = .next (settle s (refuseConnect r k.rdvMode 1 u)))
        ∧ (∀ n, joinSlot s (brPayload r.bytes) = some n → (conn s n).isSome = true → accepting s = true → s.vlt.trngFailed = false →
          exec (.brConnectReqRx r₀) s = .next (settle s (offer r n u))))
      ∧ (∀ n c, bfType r.bytes = btAck → connByWord s (bfWord r.bytes) = some (n, c) → c.sentNow = true → c.txSeq = bfSeq r.bytes →
          c.event = bfCounter r.bytes → ∀ c1, conn (downAcked n u) n = some c1 →
          downDue (chan (downAcked n u) r.lc).act c1 (r.span.2 + brGap) = none →
          exec (.brAckRx r₀) s
            = .next (settle s (modConn n (fun x => { x with open_ := bfMore r.bytes }) (downAcked n u))))
      ∧ (∀ n c, bfType r.bytes = btNack → connByWord s (bfWord r.bytes) = some (n, c) → c.sentNow = true → c.txSeq = bfSeq r.bytes →
          exec (.brNackRx r₀) s
            = .next (settle s (modConn n (fun x => { x with open_ := bfMore r.bytes }) u)))
      ∧ (∀ l, (bfType r.bytes = btData ∨ bfType r.bytes = btEmpty) → bfWord r.bytes ≠ rdvWord → connByWord s (bfWord r.bytes) = none →
          lostByWord s (bfWord r.bytes) = some l → exec (.brDataRx r₀) s = .next (settle s (answerLost r l u)))

/-- The Bramble timers: an offered connection past its supervision is dropped, a connected one dropped and remembered until it is
forgotten; an update whose instant has passed is listened for on both; a removed frequency comes back and maps are reconciled; a
termination unanswered for three events ends; quality is judged each 60 s; a watch burst wakes its group's domain and at its end holds
it down; and a rendezvous takes the next number, and its second is kept. -/
def Obligations.BrambleTimersAct : Prop :=
  (∀ (s : State) (n : Nat), s.dev.phase = .running →
      (∀ c, conn s n = some c → supervisedTo s c ≤ tb6 s → c.state = .offered →
          exec (.brSupervisionTimeout n) s = .next (settle s (dropConn n s)))
        ∧ (∀ c, conn s n = some c → supervisedTo s c ≤ tb6 s → c.state = .connected → Tbl.wf s.br.conns = true →
            ∃ t, exec (.brSupervisionTimeout n) s = .next t ∧ conn t n = none
              ∧ (c.aw, n, tb6 s + timeoutNow s c * nsMs, c.net, c.params.phy) ∈ t.br.lost)
        ∧ (∀ aw, exec (.brConnectionForget aw) s
            = .next (settle s (s.onBr fun b => { b with lost := b.lost.filter fun l => !(l.1 == aw && decide (l.2.2.1 ≤ tb6 s)) })))
        ∧ (∀ c u, conn s n = some c → c.update = some u → 0 < u.attempts → u.acked = false → u.both = false →
            anchorOf c false u.instant ≤ (tb5 s : Int) →
            exec (.brUpdateInstantPassed n) s
              = .next (settle s (modConn n (fun x => { x with update := some { u with both := true } }) s)))
        ∧ (∀ c why sent, conn s n = some c → c.terminating = some (why, some sent) →
            3 ≤ evDiff c.n0 sent + ((tb5 s : Int) - c.a0) / max 1 c.params.ns →
            exec (.brTerminateTimeout n) s = .next (settle s (dropConn n s)))
        ∧ (s.br.qualityAt + 60 * nsPerS ≤ tb6 s →
            exec .brChannelQuality s = .next (settle s
              (((s.lane.chans.filter fun c => c.2.act.bound && c.2.act.macType == 2).map fun c => c.2.act.netId).dedup.foldl
                (fun t net => qualityOn net t) (s.onBr fun b => { b with qualityAt := tb6 s }))))
        ∧ (∀ net i, (s.br.removed.any fun x => x.1 == net && x.2.1 == i && decide (x.2.2 ≤ tb6 s)) = true →
            let u := s.onBr fun b => { b with removed := b.removed.filter fun x => !(x.1 == net && x.2.1 == i) }
            exec (.brChannelRestore net i) s = .next (settle s (reconcileMaps net u)))
        ∧ (∀ g, g < 4 → (Tbl.getD s.pwr.doms (4 + g) {}).watch = true → inBurst s g = true → g ∉ s.lane.watchBurst →
            exec (.watchBurstStart g) s = .next (settle s (wake (4 + g) (s.onLane fun l => { l with watchBurst := g :: l.watchBurst }))))
        ∧ (∀ g, g < 4 → inBurst s g = false →
            exec (.watchBurstEnd g) s
              = .next (settle s (holdDown (4 + g) (s.onLane fun l => { l with watchBurst := l.watchBurst.filter fun x => x != g })))))
    ∧ (∀ (s : State) (net : Nat) (k : ChanCfg), s.dev.phase = .running → brNet s net = some k → maySend s = true →
      let lcs := k.rdv.filterMap fun i => (netChans s 2 net).find? fun lc => (chan s lc).act.centre == i && canSend s lc
      let second := ceilDiv (lcs.foldl (fun m lc => max m (earliestLaunch s (chan s lc).act)) (tb5 s)) nsPerS
      Tbl.getD s.br.rdvSecond net 0 < second → second * nsPerS ≤ tb5 s + nsPerS →
        ∃ t, exec (.brRendezvousTx net) s = .next t ∧ Tbl.getD t.br.rdvNumber net 0 = Tbl.getD s.br.rdvNumber net 0 + 1
          ∧ Tbl.getD t.br.rdvSecond net 0 = second ∧ t.br.conns = s.br.conns)

/-! ### Opening, estimation, schedule, ledger (R46, R142, R160, R169 to R187, R201 to R205) -/

/-- Estimation: SHAPE_TABLE_UPDATE notes its run and leaves every ring of intervals, and the first run of a slot's missing intervals is
filled with estimates at the head of the slot's ring, where the slot's quad runs. A commissioning slot whose end has come is ACTIVE, and a
shard that exists is given to an engine that is up. FRAME_OPEN opens the oldest taken frame where it can be delivered; a lone frame whose
quad sleeps is sent toward it; and a freed entry leaves the intake buffer. -/
def Obligations.BackgroundWorkActs : Prop :=
  ((∀ (s : State) (z : Zone), s.dev.phase = .running → s.tim.zone = some z → tb3Valid s = true →
        ∃ t, exec .shapeTableUpdate s = .next t ∧ t.met.shapeRun = tb6 s ∧ (∀ n, (slot t n).ring = (slot s n).ring) ∧ t.tar = s.tar
          ∧ t.led = s.led)
      ∧ (∀ (s : State) (n : Nat) (z : Zone) (l : Layout), s.dev.phase = .running → s.tim.zone = some z →
          estimateRules s n ≠ [] → Tbl.get s.met.layouts (slot s n).layout = some l → tb3Valid s = true →
          (slot s n).state ≠ .empty → l.isList = false → 900 ≤ l.capture → (shard s (shardOf n)).state = .held →
          exportsOpened s n = false → s.lt.groups = [] → ownerRuns s n = true →
          let run := firstRun l.capture (missingEnds z (slot s n) l.capture (estimateWait (estimateRules s n)) (tb2s s))
          run ≠ [] →
          ∃ t, exec (.gapEstimate n) s = .next t
            ∧ (slot t n).ring = ((estimateRun z (slot s n) l (estimateRules s n) run).reverse ++ (slot s n).ring).take 256))
    ∧ ((∀ (s : State) (n : Nat), s.dev.phase = .running → (slot s n).state = .commissioning → (slot s n).commEnd ≤ tb2s s →
        exec (.commissioningEnd n) s = .next (settle s (modSlot n (fun x => { x with state := .active }) s)))
      ∧ (∀ (s : State) (k e : Nat), s.dev.phase = .running → shardExists s k = true → e < 16 → engineUp s e = true →
          exec (.shardOwnerReassign k e) s = .next (settle s (modShard k (fun x => { x with owner := some e }) s))))
    ∧ ((∀ (s : State) (e : Intake) (rest : List Intake), s.dev.phase = .running → opens s = true → s.prot.intake = e :: rest →
        deliverable s e = true → exec .frameOpen s = .next (settle s (openAndFree e s)))
      ∧ (∀ (s : State) (e : Intake), s.dev.phase = .running → opens s = true → s.prot.intake = [e] → deliverable s e = false →
        exec .frameOpen s = .next (settle s (sendCrossing e s)))
      ∧ (∀ (s : State) (e : Intake), (freeEntry e.seq s).prot.intake = s.prot.intake.filter fun x => x.seq != e.seq))

/-- Boundary marks and schedules: with TB3 valid and no restore owed, the next instant that is due gets its marks, an activation or
the end of coverage whose instant has come brings every mark up to it, and a sweep rolls the slot it names whose quad runs. A mark
created has the next boundary index and is one more mark kept; it waits for the journal with those that wait, or as the first once a
full page of them has been written. -/
def Obligations.ScheduleEventsAct : Prop :=
  (∀ (s : State) (z : Zone), s.dev.phase = .running → s.tim.zone = some z → tb3Valid s = true →
      (∀ t, s.dev.waitTb3 = false → nextInstant z (startPlans s) = some t → t ≤ tb2s s →
          exec .boundaryMarkCreate s = .next (settle s (markInstant z t 0#16 (startPlans s))))
        ∧ (∀ p ps l, s.dev.waitTb3 = false → planAt s p = some ps → ps.passive = some l → l.activation ≤ tb2s s →
            exec (.listActivation p) s = .next (settle s (markUpTo z l.activation (markFuel s) (startPlans s))))
        ∧ (∀ p ps c, s.dev.waitTb3 = false → planAt s p = some ps → ps.nextCalendar = some c → c.activation ≤ tb2s s →
            exec (.calendarActivation p) s = .next (settle s (markUpTo z c.activation (markFuel s) (startPlans s))))
        ∧ (∀ p ps t, s.dev.waitTb3 = false → planAt s p = some ps → fallbackInstant ps = some t → t ≤ tb2s s →
            exec (.calendarFallback p) s = .next (settle s (markUpTo z t (markFuel s) (startPlans s))))
        ∧ (∀ n, inUse s n = true → (shard s (shardOf n)).state = .held → ownerRuns s n = true →
            exec (.boundarySweep [n]) s = .next (settle s (roll n s))))
    ∧ (∀ (s : State) (kind due tariff period : Nat) (plans : List Nat) (flags : BitVec 16),
      let t := createMark kind due plans tariff flags period s
      t.tar.index = s.tar.index + 1 ∧ t.prot.marksPending = (if s.prot.marksPending < 85 then s.prot.marksPending + 1 else 1) ∧ t.met = s.met ∧ t.led = s.led
        ∧ ∃ m, t.tar.marks = s.tar.marks ++ [m] ∧ m.index = s.tar.index + 1 ∧ m.kind = kind ∧ m.due = due ∧ m.period = period)

/-- Sealing: the first sealing, none being committed already, is committed once it is ready; a wait for the cutoff that has passed
ends; 600 s without the partner's root end a lone sealing with that outcome; PREBUILD marks the determinants of the slots it names whose
quads run as hashed; and the SEAL mark of an ended period whose grace has passed names every plan whose grace ended at that instant, and
each is sealed. A SEAL mark waits, too, for the marks that are owed after a restart (the model's reading, assumption log 17). -/
def Obligations.SealingMovesOn : Prop :=
  (∀ (s : State) (g : Sealing) (rest : List Sealing), s.dev.phase = .running → s.led.sealings = g :: rest →
      (∀ x ∈ s.led.sealings, x.committed = false) → sealingReady s g = true → exec .sealing s = .next (settle s (commitSealing g s)))
    ∧ (∀ (s : State), s.dev.phase = .running →
        exec .cutoffWaitTimeout s = .next (settle s (s.onLed fun l =>
          { l with sealings := l.sealings.map fun g =>
              if g.committed = false ∧ g.waitEnd ≠ 0 ∧ g.waitEnd ≤ tb7 s then { g with waitEnd := 0 } else g })))
    ∧ (∀ (s : State) (g : Sealing), s.dev.phase = .running → s.led.sealings = [g] → g.committed = true → g.waitEnd ≤ tb7 s →
        exec .partnerRootTimeout s = .next (settle s (endSealing g.period 0x40 (post 0x0902 1 0 (le 4 g.period) s))))
    ∧ (∀ (s : State) (slots : List Nat), s.dev.phase = .running → s.dev.core = true →
        exec (.ledgerPrebuild slots) s = .next (settle s (s.onTar fun x =>
          { x with store := x.store.map fun d => if d.slot ∈ slots ∧ ownerRuns s d.slot then { d with hashed := true } else d })))
    ∧ (∀ (s : State) (p t : Nat), s.dev.phase = .running → s.tim.zone = none → s.dev.waitTb3 = false →
        (planAt s p).bind graceEnd = some t → t ≤ tb7 s →
        let due := s.tar.plans.filter fun q => graceEnd q.2 == some t
        let num := match due.head? with | some q => periodId q.1 ((q.2.closing.head?.map Prod.fst).getD 0) | none => 0
        exec (.sealMarkCreate p) s = .next (settle s
          ((due.map Prod.fst).foldl (fun u q => sealPlan q u) (createMark mkSeal (tb2 s) (due.map Prod.fst) 0 0#16 num s))))

/-- Loss and theft, where the quads of the slots run: a due daily attribution runs for a group in a standing positive alarm; a due
topology run notes its legal day; and an enabled contributor whose wait has ended is evaluated up to the interval that is next. -/
def Obligations.LossRunsAct : Prop :=
  ∀ (s : State) (z : Zone), s.dev.phase = .running → s.tim.zone = some z →
    (∀ id g, group s id = some g → g.alarmPos = true → dailyDue s z g.attributed = true → ownerRuns s (groupSlot g) = true →
        exec (.dailyAttribution id) s = .next (settle s (attribute_ id s)))
      ∧ (dailyDue s z s.lt.topoDay = true → (∀ g ∈ s.lt.groups, ∀ m ∈ g.2.members, ownerRuns s m.1 = true) →
          ∃ t, exec .topologyRun s = .next t ∧ t.lt.topoDay = legalS z (tb2s s) / 86400)
      ∧ (∀ id g e, group s id = some g → gEnabled g = true → gContributor g = true → nextEvaluation z g = some e →
          tb3Valid s = true → ownerRuns s (groupSlot g) = true → e + s.lt.params.balWait ≤ tb2s s →
          ∃ t h, exec (.balanceEvaluate id) s = .next t ∧ group t id = some h ∧ h.evaluated = e ∧ h.late = false)

/-! ### The pleached pair and its ledger messages (R201, R204, R297 to R308, R315) -/

/-- A heartbeat frame that fails a check is discarded and counted. Of a frame accepted of another party of this device's pair the
sequence is marked and the term learned before its message acts: a partner that names itself holder is noted; a grant of the witness that
names this device stands; a MIRROR item applied before is acknowledged again, the next in order is applied and acknowledged once whole,
and one past a gap waits to be sent again (the model's choice, assumption log 40); an acknowledged item is used; a shard whose vector
agrees is noted; and the partner's messages of the ledger give its cutoff, its root and its differing leaves. -/
def Obligations.ZoryenFramesAct : Prop :=
  ∀ (z : ZorRx) (s : State), s.dev.phase = .running →
    (zParse s z.bytes = none → exec (.zoryenHeartbeat z) s = .next (settle s (zDiscard s)))
      ∧ ∀ m, zParse s z.bytes = some m → m.link.witness = none →
        let u := zKnown m s
        let period := field m.body 0 4
        (m.type = zHeartbeat → fromPartner u m = true → u.pair.state = .paired → field m.body 1 1 = 1 →
          exec (.zoryenHeartbeat z) s = .next (settle s (u.onPair fun p =>
            { p with partnerHeard := some (tb6 u), holderHeard := some (tb6 u) })))
        ∧ (m.type = zGrant → fromWitness u m = true → u.pair.term ≤ field m.body 0 4 → u.pair.holder = false →
            field m.body 4 4 = u.dev.deviceId.toNat →
            ∃ t, exec (.tokenGrant z) s = .next t ∧ t.pair.grant = some (field m.body 0 4) ∧ t.pair.term = field m.body 0 4)
        ∧ (m.type = zMirror → fromPartner u m = true → field m.body 0 8 ≤ u.pair.mirrorIn →
            exec (.zoryenMirror z) s = .next (settle s (zToPartner zAck (le 8 (field m.body 0 8)) u)))
        ∧ (m.type = zMirror → fromPartner u m = true → u.pair.mirrorIn + 1 < field m.body 0 8 →
            exec (.zoryenMirror z) s = .next (settle s u))
        ∧ (m.type = zMirror → fromPartner u m = true → field m.body 0 8 = u.pair.mirrorIn + 1 →
            let a := withPiece u.pair.incoming (field m.body 0 8) (field m.body 8 1) (field m.body 12 4) (field m.body 16 4) (m.body.drop 20)
            exec (.zoryenMirror z) s = .next (settle s
              (if arrived a then
                zToPartner zAck (le 8 (field m.body 0 8)) (commit (useItem false a.kind (assembled a)
                  (u.onPair fun p => { p with incoming := none, mirrorIn := field m.body 0 8 })))
              else u.onPair fun p => { p with incoming := some a })))
        ∧ (∀ x, m.type = zAck → fromPartner u m = true → (u.pair.mirror.find? fun x => x.seq == field m.body 0 8) = some x →
            exec (.zoryenMirrorAck z) s = .next (settle s
              (takeItem x (u.onPair fun p => { p with mirror := p.mirror.filter fun y => y.seq != x.seq }))))
        ∧ (m.type = zResyncReq → fromPartner u m = true → (shard u (field m.body 0 1)).state = .held →
            BitVec.ofNat 256 (field m.body 4 32) = vectorHash u (field m.body 0 1) → u.pair.state = .paired →
            exec (.zoryenResyncReq z) s = .next (settle s (u.onPair fun p => { p with agreed := (field m.body 0 1 :: p.agreed).dedup })))
        ∧ (m.type = zResyncData → fromPartner u m = true → (shard u (field m.body 0 1)).state = .held → u.pair.state = .resync →
            let a := withPiece u.pair.resync (field m.body 0 1) (field m.body 1 1) partSize (field m.body 4 4) (m.body.drop 8)
            arrived a = false → exec (.zoryenResyncData z) s = .next (settle s (u.onPair fun q => { q with resync := some a })))
        ∧ (m.type = zCutoff → fromPartner u m = true → u.led.sealings = [] →
            ∃ t v, exec (.zoryenCutoff z) s = .next t ∧ Tbl.get t.led.cutoffs period = some v ∧ t.led.entries = u.led.entries)
        ∧ (m.type = zRoot → fromPartner u m = true → (u.led.sealings.find? fun g => g.period == period) = none → entryOf u period = none →
            exec (.zoryenRoot z) s = .next (settle s (u.onLed fun x =>
              { x with roots := Tbl.put x.roots period (hashAt m.body 4, field m.body 36 4, field m.body 40 4) })))
        ∧ (∀ g, m.type = zRoot → fromPartner u m = true → (u.led.sealings.find? fun g => g.period == period) = some g → g.committed = true →
            exec (.zoryenRoot z) s = .next (settle s (compareRoots period (u.onLed fun x =>
              { x with roots := Tbl.put x.roots period (hashAt m.body 4, field m.body 36 4, field m.body 40 4) }))))
        ∧ (∀ e, m.type = zShardRoots → fromPartner u m = true → entryOf u period = some e →
            let h := hashesOf e.leafBytes
            exec (.zoryenShardRoots z) s = .next (settle s
              (((((List.range 256).filter fun k => shardRoot h k != hashAt m.body (4 + 32 * k)).take 4).flatMap
                fun k => leafHashFrames period k h).foldl (fun t b => zToPartner zLeafHashes b t) u)))
        ∧ (∀ e, m.type = zLeafHashes → fromPartner u m = true → entryOf u period = some e →
            let was := Tbl.getD u.led.mismatches period 0
            let differ := (List.range (min 256 (field m.body 8 2))).filter fun j =>
              treeNode 0 ((hashesOf e.leafBytes).filter fun p => p.1 == field m.body 4 1 * 4096 + field m.body 6 2 + j)
                != hashAt m.body (12 + 32 * j)
            ∃ t, exec (.zoryenLeafHashes z) s = .next t
              ∧ Tbl.get t.led.mismatches period = some (was + min (64 - was) differ.length) ∧ t.led.entries = u.led.entries)

/-- The pair's timers: a partner silent for 20 ms is lost, and a witness so silent is told; the token is taken once its holder has been
silent, and its hold ends; a holder not named for 10 ms is fenced, and nothing waits to be launched; the witness grants the token at the
next term; heartbeats go out each 1 ms; a drain window that has ended leaves its shard UNHELD; and a whole record received over Ethernet
in core role is taken where there is room. -/
def Obligations.PairTimersAct : Prop :=
  ∀ s : State, s.dev.phase = .running →
    ((s.pair.state = .paired ∨ s.pair.state = .resync) → (∀ x, s.pair.partnerHeard = some x → x + 20 * nsMs ≤ tb6 s) →
        exec .partnerLost s = .next (settle s (useWaiting (report 0x7001 kDevice 0 [] 0x0E01 0 0 [] (s.onPair fun p =>
          { p with state := .partnerLost, agreed := [], resync := none, resynced := [], incoming := none })))))
      ∧ (s.pair.record.isSome = true → s.pair.witnessSilent = false → 20 * nsMs ≤ tb6 s →
          (∀ x, s.pair.witnessHeard = some x → x + 20 * nsMs ≤ tb6 s) →
          exec .witnessSilent s = .next (settle s (report 0x7004 kDevice 0 [] 0x0E03 1 0 [] (s.onPair fun p => { p with witnessSilent := true }))))
      ∧ (∀ g, s.pair.grant = some g → (∀ x, s.pair.holderHeard = some x → x + 20 * nsMs ≤ tb6 s) →
          ∃ t, exec .tokenTake s = .next t ∧ t.pair.holder = true ∧ t.pair.fenced = false ∧ t.pair.grant = none
            ∧ t.pair.holdUntil = some (tb6 s + 5 * nsMs) ∧ t.pair.term = s.pair.term)
      ∧ (∀ h, s.pair.holdUntil = some h → h ≤ tb6 s → (dlResume (s.onPair fun p => { p with holdUntil := none })).dl.campaigns = [] →
          exec .tokenHoldEnd s = .next (settle s (dlResume (s.onPair fun p => { p with holdUntil := none }))))
      ∧ (s.pair.holder = true → s.pair.fenced = false → s.pair.namedAt + 10 * nsMs ≤ tb6 s →
          ∃ t, exec .holderFence s = .next t ∧ t.pair.fenced = true ∧ ∀ p, (port t p).queue = [])
      ∧ (∀ w d, s.pair.witnessed = [w] → grantee s w = some d → w.holder.isSome = true → w.term ≠ 2 ^ 32 - 1 →
          ∃ t w', exec (.witnessGrant w.id.toNat) s = .next t ∧ t.pair.witnessed = [w'] ∧ w'.term = w.term + 1 ∧ w'.holder = some d)
      ∧ (links s ≠ [] → s.pair.beat + nsMs ≤ tb6 s →
          exec .zoryenHeartbeatTx s = .next (settle s
            ((links s).foldl (fun t l => (portsUp s).foldl (fun u p => zSendOn [p] l zHeartbeat (heartbeatBody u l) u) t)
              (s.onPair fun p => { p with beat := tb6 s }))))
      ∧ (∀ k, (shard s k).state = .draining → (shard s k).drainEnd ≤ tb7 s →
          ∃ t, exec (.drainWindowEnd k) s = .next t ∧ (shard t k).state = .unheld)
      ∧ (∀ r x, ingestRecords 1 r = some [x] → s.dev.core = true → mayTake (intakeSize x) s = true →
          exec (.ethernetIngest r) s = .next (settle s (takeRaw 3 x s)))

/-! ### Time (R225 to R247, R399) -/

/-- The time registers and instants: TBn_LO latches all 96 bits and returns the lowest word; SELECT is kept and the time base chosen
again; DOM_CFG that clashes with the other domain's is ignored, and one written to a domain that takes Syncs waits for the next one; a leap
second that is due is passed, and TB2 is not moved by it; a holdover limit passed is told; and a slew of TB4 or TB5 that has ended clears
SLEWING. -/
def Obligations.TimeRegistersAct : Prop :=
  ∀ s : State, s.dev.phase = .running →
    (∀ n, n < 8 → ∃ t, exec (.tbLatchRead n) s = .next t ∧ (tbStat t n).latch = BitVec.ofNat 96 (baseStamp s n)
        ∧ Out.read (le 4 (BitVec.ofNat 96 (baseStamp s n)).toNat) ∈ t.host.out)
      ∧ (∀ v, exec (.selectWrite v) s = .next (settle s (reselect (s.onTim fun t => { t with select := v &&& 3#32 }))))
      ∧ (∀ b v, cfgClash (v &&& 0xFF07#32) (dom s (!b)).want = true → exec (.domCfg b v) s = .next (settle s s))
      ∧ (∀ b v, cfgClash (v &&& 0xFF07#32) (dom s (!b)).want = false → (dom s b).state ≠ .disabled → (dom s b).state ≠ .listening →
          exec (.domCfg b v) s = .next (settle s (modDom b (fun d => { d with want := v &&& 0xFF07#32 }) s)))
      ∧ (∀ z, s.tim.zone = some z → tb2Valid s = true → s.tim.leapDone = false → z.leap ≠ 0 → z.leap ≤ tb2s s →
          ∃ t, exec .leapSecond s = .next t ∧ t.tim.leapDone = true ∧ (tbStat t 3).leap = false ∧ t.tim.tb2 = s.tim.tb2)
      ∧ (tb2Valid s = true → s.tim.holdLimit.toNat * 1000 < uncertainty s →
          exec .tb2HoldoverLimit s = .next (settle s (timeEvent 0x2013 0x0B04 1
            (le 8 (uncertainty s) ++ le 4 s.tim.holdLimit.toNat) 0 (le 8 (uncertainty s)) s)))
      ∧ (s.tim.tb4 = s.tim.tb2 →
          exec (.slewEnd 4) s = .next (settle s (refreshBits (modStat 4 (fun x => { x with slewing := false }) s))))
      ∧ (s.tim.tb5 = s.tim.tb2 →
          exec (.slewEnd 5) s = .next (settle s (refreshBits (modStat 5 (fun x => { x with slewing := false }) s))))

/-- PTP messages: a Sync that is malformed, or not of the supported transport, is discarded; a Sync of the domain's master puts a DOM_CFG
that waits in force, and is else followed, at once or with its Follow_Up; an Announce is heard by every enabled domain with its number,
which chooses its master again; the answer to an own delay request gives the path delay; a peer delay request is answered, in one step or
in two as PORT_PTP has it; and the answers to an own one give the port's peer delay. -/
def Obligations.PtpMessagesAct : Prop :=
  ∀ (r : PtpRx) (s : State), s.dev.phase = .running →
    let m := r.bytes
    let e := ethPort s r.port
    (pmType m = ptSync → (msgOk r 44 && rateOk m) = false → exec (.ptpSync r) s = .next (settle s (discardPtp r.port s)))
      ∧ (∀ b, domOf s r.port m = some b → fromMaster (dom s b) m = true →
          (pmType m = ptSync → (msgOk r 44 && rateOk m) = true → (dom s b).want ≠ (dom s b).cfg →
              exec (.ptpSync r) s = .next (settle s (applyCfg b s)))
            ∧ (pmType m = ptSync → (msgOk r 44 && rateOk m) = true → (dom s b).want = (dom s b).cfg → pmTwoStep m = true →
              exec (.ptpSync r) s = .next (settle s
                (modDom b (fun d => { d with twoStep := some (pmSeq m, ingressNs s r, pmCorr m), syncInt := intervalNs (pmLog m) }) s)))
            ∧ (pmType m = ptSync → (msgOk r 44 && rateOk m) = true → (dom s b).want = (dom s b).cfg → pmTwoStep m = false →
              exec (.ptpSync r) s = .next (settle s (takeSync b (pmTime m 34) (ingressNs s r) (pmCorr m) (intervalNs (pmLog m)) s)))
            ∧ (∀ t2 c, pmType m = ptFollowUp → msgOk r 44 = true → (dom s b).twoStep = some (pmSeq m, t2, c) →
              exec (.ptpFollowUp r) s = .next (settle s (takeSync b (pmTime m 34) t2 (c + pmCorr m) (dom s b).syncInt s)))
            ∧ (∀ t3, pmType m = ptDelayResp → msgOk r 54 = true → rateOk m = true → profileFits s r false = true →
              (dom s b).delayReq = some (pmSeq m, t3) → slice m 44 10 = ownIdentity s r.port →
              exec (.ptpDelayResp r) s = .next (settle s (modDom b (fun d =>
                { d with pathDelay := (d.msDelay + ((pmTime m 34 - t3) * uNs - pmCorr m)) / 2, delayReq := none }) s))))
      ∧ (pmType m = ptAnnounce → (msgOk r 64 && rateOk m) = true → (announceOf m).steps < 255 →
          exec (.ptpAnnounce r) s = .next (settle s ([false, true].foldl (fun t b =>
            if (dom t b).state != .disabled && domNumber (dom t b) == pmDomain m then
              reselect (chooseMaster b (modDom b (hearMaster r.port (announceOf m) (intervalNs (pmLog m)) (tb6 t)) t))
            else t) s)))
      ∧ (pmType m = ptPdelayReq → msgOk r 54 = true → profileFits s r true = true → e.up = true →
          (e.twoStep = false →
            exec (.ptpPdelayReq r) s = .next (settle s (sendPtp r.port ptpPeers (ownMessage s r.port ptPdelayResp (pmDomain m) (pmSeq m)
              (pmCorr m + (egressNs s r.port (portTb s r.port) - ingressNs s r) * uNs) 0 (zeros 10 ++ pmSource m)) s)))
          ∧ (e.twoStep = true →
            exec (.ptpPdelayReq r) s = .next (settle s
              (sendPtp r.port ptpPeers (ownMessage s r.port ptPdelayRespFollowUp (pmDomain m) (pmSeq m) (pmCorr m) 0
                  (pmStamp (egressNs s r.port (portTb s r.port)) ++ pmSource m))
                (sendPtp r.port ptpPeers (ownMessage s r.port ptPdelayResp (pmDomain m) (pmSeq m) 0 2
                  (pmStamp (ingressNs s r) ++ pmSource m)) s)))))
      ∧ (∀ t1, pmType m = ptPdelayResp → msgOk r 54 = true → profileFits s r true = true → e.pdelay = some (pmSeq m, t1) →
          slice m 44 10 = ownIdentity s r.port →
          (pmTwoStep m = true → exec (.ptpPdelayResp r) s = .next (settle s
            (modEth r.port (fun x => { x with pdelayTwo := some (pmSeq m, pmTime m 34, ingressNs s r, pmCorr m) }) s)))
          ∧ (pmTwoStep m = false → exec (.ptpPdelayResp r) s = .next (settle s
            (setPeerDelay r.port (((ingressNs s r - t1) * uNs - pmCorr m - e.asymmetry) / 2)
              (modEth r.port (fun x => { x with pdelay := none }) s)))))
      ∧ (∀ t1 t2 t4 c, pmType m = ptPdelayRespFollowUp → msgOk r 54 = true → profileFits s r true = true → e.pdelay = some (pmSeq m, t1) →
          e.pdelayTwo = some (pmSeq m, t2, t4, c) → slice m 44 10 = ownIdentity s r.port →
          exec (.ptpPdelayRespFollowUp r) s = .next (settle s
            (setPeerDelay r.port (((t4 - t1) * uNs - (pmTime m 34 - t2) * uNs - c - pmCorr m - e.asymmetry) / 2)
              (modEth r.port (fun x => { x with pdelay := none, pdelayTwo := none }) s))))

/-- What PTP does of itself: under the default profile a delay request is numbered and sent, and its stamp kept; a primary port without an
Announce for three intervals turns the domain to its alternate; a primary that has carried Announces for 60 s with its link up is taken
again; a LOCKED domain without a Sync for its limit enters HOLDOVER; one in HOLDOVER without a master for 600 s returns to LISTENING; a peer
delay request is numbered and sent on a peer-to-peer port; and a link that comes up or falls is noted. -/
def Obligations.PtpTimersAct : Prop :=
  ∀ s : State, s.dev.phase = .running →
    (∀ b, let d := dom s b
      let p := portInUse d
      (d.state ≠ .disabled → d.master.isSome = true → (ethPort s p).up = true → (ethPort s p).p2p = false → d.power = false →
          exec (.ptpDelayReqTx b) s = .next (settle s
            (sendPtp p ptpGroup (ownMessage s p ptDelayReq (domNumber d) d.seqId (-(ethPort s p).asymmetry) 0 (zeros 10))
              (modDom b (fun x => { x with delayReq := some (d.seqId, egressNs s p (domBase s b / nsUnit)), seqId := (d.seqId + 1) % 65536 }) s))))
        ∧ (d.state ≠ .disabled → d.announced p + 3 * announceInterval d p ≤ tb6 s → d.alt = false →
          exec (.announceTimeout b) s = .next (settle s (applyIdle b (turnPort b true s))))
        ∧ (∀ x, d.state ≠ .disabled → d.alt = true → (ethPort s (primaryPort d)).up = true → d.primarySince = some x →
          x + 60 * nsPerS ≤ tb6 s → tb6 s < d.announced (primaryPort d) + 3 * announceInterval d (primaryPort d) →
          exec (.primaryReturn b) s = .next (settle s (applyIdle b (turnPort b false s))))
        ∧ (d.state = .locked → d.lastSync + max (3 * d.syncInt) (3 * nsPerS) ≤ tb6 s →
          exec (.domainSyncTimeout b) s = .next (settle s (reselect (setDomState b .holdover (noteFollow s)))))
        ∧ (d.state = .holdover → d.master = none → d.noMasterSince + 600 * nsPerS ≤ tb6 s →
          exec (.domainHoldoverTimeout b) s = .next (settle s (applyIdle b (reselect (setDomState b .listening s))))))
      ∧ (∀ p, p < 2 → (ethPort s p).up = true → (ethPort s p).p2p = true →
          ∃ t, exec (.ptpPdelayReqTx p) s = .next t ∧ (ethPort t p).seqId = ((ethPort s p).seqId + 1) % 65536
            ∧ (ethPort t p).pdelay = some ((ethPort s p).seqId, egressNs s p (portTb s p)) ∧ (ethPort t p).pdelayTwo = none)
      ∧ (∀ p, p < 2 → exec (.ethLinkUp p) s = .next (settle s (modEth p (fun e => { e with up := true }) s)))
      ∧ (∀ p, p < 2 → (dom s false).state = .disabled → (dom s true).state = .disabled →
          ∃ t, exec (.ethLinkDown p) s = .next t ∧ (ethPort t p).up = false ∧ (ethPort t p).pdelay = none
            ∧ ∀ q, q < 2 → q ≠ p → ethPort t q = ethPort s q)

/-! ### The vault (R253 to R261) -/

/-- The vault's events: after 60 s, while the TRNG gives draws, every key and cache entry takes a fresh mask and the storage polarity is
inverted; a failed health test marks the TRNG failed and is reported where it had not failed before; a retry after 1 s counts a pass, starts
the count anew or, at the sixteenth pass in a row, ends the failure; a session past its expiry is closed; a challenge past its time is
dropped; and a JTAG response to a live challenge unlocks debug and is measured where it verifies under slot 3, and else uses the challenge
up. -/
def Obligations.VaultEventsAct : Prop :=
  ∀ s : State, s.dev.phase = .running →
    (s.vlt.trngFailed = false → s.vlt.remasked + 60 * nsPerS ≤ tb6 s →
        exec .vaultRemask s = .next (settle s (s.onVlt fun v =>
          { v with
            keys := v.keys.zipIdx.map fun p => (p.1.1, remaskedKey (v.draws + p.2) p.1.2)
            cache := v.cache.zipIdx.map fun p => remaskedEntry (v.draws + v.keys.length + p.2) p.1
            draws := v.draws + v.keys.length + v.cache.length
            inverted := !v.inverted
            remasked := tb6 s })))
      ∧ (let u := s.onVlt fun v => { v with trngFailed := true, trngPasses := 0, trngTested := tb6 s }
         (s.vlt.trngFailed = true → exec .trngHealthFail s = .next (settle s u))
          ∧ (s.vlt.trngFailed = false → exec .trngHealthFail s = .next (settle s (report 0x3010 kDevice 0 [] 0x0C01 0 0 [] u))))
      ∧ (s.vlt.trngFailed = true → s.vlt.trngTested + nsPerS ≤ tb6 s →
          exec (.trngRetest false) s = .next (settle s (s.onVlt fun v => { v with trngPasses := 0, trngFailed := true, trngTested := tb6 s }))
            ∧ (s.vlt.trngPasses < 15 → exec (.trngRetest true) s = .next (settle s
                (s.onVlt fun v => { v with trngPasses := v.trngPasses + 1, trngFailed := true, trngTested := tb6 s })))
            ∧ (s.vlt.trngPasses = 15 → exec (.trngRetest true) s = .next (settle s
                (s.onVlt fun v => { v with trngPasses := 0, trngFailed := false, trngTested := tb6 s }))))
      ∧ (∀ y, y ∈ s.host.sessions → expired s y = true → exec (.sessionExpiry y.id) s = .next (settle s (closeSession y.id s)))
      ∧ (∀ c, s.vlt.challenge = some c → liveChallenge s = none →
          exec .maintChallengeExpiry s = .next (settle s (s.onVlt fun v => { v with challenge := none })))
      ∧ (∀ sig ch, liveChallenge s = some ch →
          let u := (claimFalcon s).onVlt fun v => { v with challenge := none }
          let good := verifyUnder s 3 (ascii "KHMAINT" ++ ch ++ le 8 s.dev.fit.serial.toNat) sig
          (good = true → exec (.jtagDebugUnlock sig) s = .next (settle s (wakeDeep (report 0x3023 kDevice 0 [] 0x0C05 1 0 []
              (extend 5 ch (u.onDev fun d => { d with debugUnlocked := true }))))))
            ∧ (good = false → exec (.jtagDebugUnlock sig) s = .next (settle s u)))

/-! ### Coppice (R266 to R289, R402) -/

/-- NAND blocks turn: a page that reports success leaves what its stream makes of it, and the sources of copies are looked at again; one
that fails retires its block, and the failure is counted; an erased block is FREE with one more cycle at the tail of the free ring; one
that does not erase is retired; a CLOSED block read back is VERIFIED, or relocated where a sector of it is worn or lost; a VERIFIED block
read on patrol is relocated where a sector is worn; and with the free ring below its target the oldest VERIFIED block is collected. The
numbering of blocks and what collection leaves open are the model's choices (assumption logs 49 and 50). -/
def Obligations.BlocksTurn : Prop :=
  ∀ s : State, s.dev.phase = .running →
    (∀ (p : PageIn) c, nandUsed s = true → streamPage s.dev.fit p s.cop = some c →
        exec (.nandProgramComplete p) s = .next (settle s (sweep (s.onCop fun _ => c))))
      ∧ (∀ p : PageIn, streamPage s.dev.fit p s.cop = none → exec (.nandProgramComplete p) s = .next (settle s s))
      ∧ (∀ (p : PageIn) b c, nandUsed s = true → p.stream ≤ 8 → s.cop.failPage s.dev.fit p.stream = some (b, c) →
          exec (.nandProgramFail p) s = .next (settle s (countFailure b (sayRetired b (s.onCop fun _ => c)))))
      ∧ (∀ b, (block s b).state = .erasing →
          ∃ t, exec (.nandEraseComplete b) s = .next t ∧ (block t b).state = .free ∧ (block t b).pe = (block s b).pe + 1
            ∧ t.cop.free = s.cop.free ++ [b])
      ∧ (∀ b, (block s b).state = .erasing →
          exec (.nandEraseFail b) s = .next (settle s (countFailure b (retireBlock b (s.onCop fun c => { c with eraseFails := c.eraseFails + 1 })))))
      ∧ (∀ v : VerifyIn, (block s v.block).state = .closed → readable s v.block = true →
          (anyLost v = false → worn v s.cop.params.verify = false →
            ∃ t, exec (.blockVerify v) s = .next t ∧ (block t v.block).state = .verified ∧ t.cop.histogram = (countDecodes v s).cop.histogram)
          ∧ (anyLost v = false → worn v s.cop.params.verify = true →
            exec (.blockVerify v) s = .next (settle s (relocate v.block false (countDecodes v s)))))
      ∧ (∀ v : VerifyIn, (block s v.block).state = .verified → readable s v.block = true → badLsns (countDecodes v s) v = [] →
          exec (.nandPatrolRead v) s = .next (settle s
            (if worn v s.cop.params.refresh then relocate v.block false (countDecodes v s) else countDecodes v s)))
      ∧ (∀ b, s.cop.free.length < freeTarget s → gcVictim s = some b →
          let u := takeCheckpoint (s.nand fun f => Coppice.markSegs f b)
          (s.cop.holdsCheckpoint s.dev.fit b = false → exec .gcBlockCollect s = .next (settle s (relocate b false s)))
            ∧ (s.cop.holdsCheckpoint s.dev.fit b = true →
              exec .gcBlockCollect s = .next (settle s (if u.cop.holdsCheckpoint s.dev.fit b then u else relocate b false u))))

/-- Coppice's timers and faults: the journal tail goes to its ring after 1 s while the ring has room, and no mark waits any more; a
checkpoint is taken after an hour where its stream finds blocks, and waits else; a die that is not ready is counted; a rebuilt die is told;
an uncorrectable DRAM error is counted and what it took is marked; a scrub is counted; a health snapshot is kept each minute with its
temperature counted; and marks and ledger entries past their retention go. -/
def Obligations.StorageTimersAct : Prop :=
  ∀ s : State, s.dev.phase = .running →
    (nandUsed s = true → s.cop.tailAt + nsPerS ≤ tb6 s → s.cop.ringFull s.dev.fit = false →
        exec .journalTailWrite s = .next (settle s
          ((s.nand fun f c => { c.pourTail f with tailAt := tb6 s }).onProt fun p => { p with marksPending := 0 })))
      ∧ (nandUsed s = true → s.cop.checkpointAt + nsHour ≤ tb6 s →
          (∀ c, s.cop.checkpointed s.dev.fit = some c → s.lau.segs = [] →
            exec .checkpoint s = .next (settle s (s.onCop fun _ => { c with checkpointAt := tb6 s })))
          ∧ (∀ c, s.cop.checkpointed s.dev.fit = some c → s.lau.segs ≠ [] →
            exec .checkpoint s = .next (settle s (commit (s.onCop fun _ => { c with checkpointAt := tb6 s }))))
          ∧ (s.cop.checkpointed s.dev.fit = none → exec .checkpoint s = .next (settle s s)))
      ∧ (∀ die, die < diesFitted s → nandUsed s = true → s.cop.timeouts = [] →
          exec (.nandReadyTimeout die) s = .next (settle s (s.onCop fun c => { c with timeouts := [(tb6 s, die)] })))
      ∧ (∀ die, die ∈ s.cop.rebuilding → (∀ b ∈ blocksIn s die [.open_, .closed], validIn s b = []) →
          exec (.dieRebuilt die) s = .next (settle s
            (report 0x600B kDie die [] 0x0D0A 2 die [] (s.onCop fun c => { c with rebuilding := c.rebuilding.erase die }))))
      ∧ (∀ e : DramErr, s.cop.dramErrors = [] →
          ∃ t, exec (.dramUncorrectable e) s = .next t ∧ t.cop.dramErrors = [(e.device, e.line, tb6 s)]
            ∧ (∀ n, e.slot = some n → n ∈ t.cop.reload)
            ∧ (∀ a, e.bar2 = some a → a / 128 ∈ t.host.badLines)
            ∧ (∀ x ∈ t.host.tokens, e.token = some x.id → x.status = stInternal))
      ∧ (∀ n, exec (.dramScrub n) s = .next (settle s (s.onCop fun c => { c with scrubbed := c.scrubbed + n })))
      ∧ (s.cop.snapshotAt + nsMin ≤ tb6 s →
          ∃ t, exec .healthSnapshot s = .next t ∧ t.cop.snapshotAt = tb6 s
            ∧ t.cop.temps = Tbl.upd s.cop.temps (tempBin s.dev.junction) 0 (· + 1))
      ∧ (tb2Valid s = true →
          ∃ t, exec .retentionExpiry s = .next t
            ∧ t.tar.marks = s.tar.marks.filter (fun m => !passed s (m.due / nsPerS) s.cop.params.retention)
            ∧ t.led.entries = expireEntries s)

/-! ### Yew (R317 to R326) -/

/-- Yew: an event appended is the next record with its chain hash, at the head of those kept; an event raised while appends are stopped is
staged while there is room; YEW_CURSOR takes effect with its upper word within the records kept and is else ignored; a refill makes the
window ready; a read of the window's last word moves the cursor past the last record shown where AUTO_ADVANCE has it, and else moves
nothing; a freeze ends after 60 s; and a block whose records are all past the hold is reclaimed, as is one whose place is needed while
appends go on. -/
def Obligations.YewActs : Prop :=
  (∀ (s : State) (e : YewEvent) (st : Bool),
      let t := yewAppend e st s
      t.yew.newest = s.yew.newest + 1 ∧ t.met = s.met ∧ t.yew.chain = yewChain s.yew.chain (yewHead (s.yew.newest + 1) e st)
        ∧ t.yew.records = { seq := s.yew.newest + 1, ev := e, staged := st, chain := t.yew.chain, appended := tb7 s } :: s.yew.records)
    ∧ (∀ (s : State) (code kind source : Nat) (data : Bytes), yewStaging s = true → s.yew.staged.length < 4096 →
        yew code kind source data s = s.onYew fun y => { y with staged := y.staged ++ [yewEvent code kind source data s] })
    ∧ (∀ (s : State) (v : Word), s.dev.phase = .running →
        let c := (v ++ s.yew.cursorLow : DWord).toNat
        (yewOldest s ≤ c → c ≤ s.yew.newest + 1 →
            exec (.yewCursor true v) s = .next (settle s (s.onYew fun y => { y with cursor := c, ready := false, irqCount := 0 })))
          ∧ ((c < yewOldest s ∨ s.yew.newest + 1 < c) → exec (.yewCursor true v) s = .next (settle s s))
          ∧ exec (.yewCursor false v) s = .next (settle s (s.onYew fun y => { y with cursorLow := v })))
    ∧ (∀ s : State, s.dev.phase = .running →
        exec .yewWindowReady s = .next (settle s (s.onYew fun y => { y with ready := true }))
          ∧ (∀ q, s.yew.ctrl.getLsbD 0 = true → s.yew.ready = true → lastShown s = some q →
              exec .yewWindowLastWordRead s = .next (settle s
                (moveCursor (q + 1) (emit (.read (slice (yewWindow s) 4092 4)) s))))
          ∧ ((s.yew.ctrl.getLsbD 0 = false ∨ s.yew.ready = false ∨ lastShown s = none) →
              exec .yewWindowLastWordRead s = .next (settle s (emit (.read (slice (yewWindow s) 4092 4)) s)))
          ∧ (s.yew.frozen = true → s.yew.hard = false → s.yew.frozenAt + 60 * nsPerS ≤ tb6 s →
              exec .yewFreezeTimeout s = .next (settle s (unstage s)))
          ∧ (∀ n, n ≤ yewBlock s → withinHold s (s.yew.records.drop (s.yew.records.length - n)) = [] →
              exec (.yewReclaim n) s = .next (settle s (yewErase n s)))
          ∧ (∀ n, n ≤ yewBlock s → yewPlaces ≤ s.yew.records.length - n → yewStaging s = false →
              exec (.yewReclaim n) s = .next (settle s (yewErase n s))))

/-! ### Downlink, campaigns and background work -/

/-- Timed downlink and background work: an expired command ends with outcome 3; a multicast round goes out on every network; a campaign's
activation instant readies the meters that wait for it; and a background activity that falls late or catches up is noted, and no
other. -/
def Obligations.TimedWorkRuns : Prop :=
  ∀ s : State, s.dev.phase = .running →
    (∀ i x, dlCmd s i = some x → x.expiry ≠ 0 → x.expiry ≤ tb7 s → holdsToken s = true →
        exec (.downlinkExpiry i) s = .next (settle s (dlFinish i 3 0 0 [] s)))
      ∧ (∀ c, maySend s = true → exec (.multicastRound c) s = .next (settle s ((s.hr.map Prod.fst).foldl (fun t net => roundOn c net t) s)))
      ∧ (∀ c g, campaign s c = some g → g.ended = false → maySend s = true →
          exec (.campaignActivationInstant c) s = .next (settle s
            ((g.slots.filter fun x => x.2.1 == phReady).foldl (fun t x => campReady c x.1 t) s)))
      ∧ (∀ row late, s.dev.late.getLsbD row = !late → row < 32 →
          ∃ t, exec (.backgroundActivityLate row late) s = .next t ∧ t.dev.late.getLsbD row = late
            ∧ ∀ k, k ≠ row → t.dev.late.getLsbD k = s.dev.late.getLsbD k)

/-! ### Power domains and Hawthorn (R348 to R364) -/

/-- Power domains: an idle domain's entry that nothing refuses begins; a domain not entering a state wakes; a first wake that fails is
noted; DVFS moves a quad's point by its load; and PWR_LIMIT is taken, or ignored whole where its ceiling or its value does not fit. -/
def Obligations.PowerDomainsTurn : Prop :=
  ∀ s : State, s.dev.phase = .running →
    (∀ d l st, isDomain d = true → domIdle s d = true → nextState s d = some st → refusersOf s d st (l.contains 3) = [] →
        exec (.domainEntry d l) s = .next (settle s (modPdom d (fun x => { x with entering := some st }) s)))
      ∧ (∀ d, isDomain d = true → (pdom s d).entering = none → exec (.domainWake d) s = .next (settle s (wakeNow d s)))
      ∧ (∀ d, isDomain d = true → (pdom s d).state ≠ 0 → (pdom s d).wakeFails = 0 →
          ∃ t, exec (.wakeFault d) s = .next t ∧ (pdom t d).wakeFails = 1)
      ∧ (∀ busy q, q < 4 →
          let w := busy.getD q 0
          ∃ t, exec (.dvfsWindow busy) s = .next t
            ∧ (20 < w → (pdom t q).point = max ((pdom s q).point - 1) (pointLimit s q) ∧ (pdom t q).low = 0)
            ∧ (5 ≤ w → w ≤ 20 → (pdom t q).point = (pdom s q).point ∧ (pdom t q).low = 0)
            ∧ (w < 5 → (pdom s q).low + 1 < 10 → (pdom t q).point = (pdom s q).point ∧ (pdom t q).low = (pdom s q).low + 1))
      ∧ (∀ d v, isDomain d = true → (limitAsked s d v).2.1 ≠ 0 → ceilingOk s d (limitAsked s d v).2.1 = false →
          exec (.pwrLimit d v) s = .next (settle s s))
      ∧ (∀ d v, isDomain d = true → limitFits d v = false → exec (.pwrLimit d v) s = .next (settle s s))
      ∧ (∀ d v, isDomain d = true → isQuad d = false → limitFits d v = true → (limitAsked s d v).2.1 = 0 → (pdom s d).ceiling = 0 →
          exec (.pwrLimit d v) s = .next (settle s (holdDown d (modPdom d (fun x =>
            { x with limit := BitVec.ofNat 32 ((limitAsked s d v).1 + 16 * (limitAsked s d v).2.1 + 256 * (limitAsked s d v).2.2),
                     watch := false }) s))))

/-- Hawthorn: a request of a free resource joins those that wait and the resource is arbitrated; so it is at a release; a holder over its
bound is cut off and counted; and a requester that is due is admitted again. -/
def Obligations.HawthornArbitrates : Prop :=
  ∀ s : State, s.dev.phase = .running →
    (∀ (q : HwReq) (r : Nat) (rest : List Nat), requester q.who = true → wantsOk q.wants = true → cutOff s q.who = false → q.locked = false →
        q.wants = r :: rest → Tbl.get s.pwr.owners r = none → (pdom s (domainOfRes r)).state = 0 → (pdom s (domainOfRes r)).entering = none →
        exec (.hawthornRequest q) s = .next (settle s (arbitrate r (s.onPwr fun p =>
          { p with queue := p.queue ++ [{ who := q.who, wants := q.wants, age := BitVec.ofNat 32 (memCycle s), length := q.length, locked := false }] }))))
      ∧ (∀ r g, Tbl.get s.pwr.owners r = some g →
          exec (.hawthornRelease r) s = .next (settle s (retryHolds (arbitrate r (endGrant r s)))))
      ∧ (∀ r g, Tbl.get s.pwr.owners r = some g → g.who < 32 → overBound s g = true →
          ∃ t, exec (.arbiterCutoff r) s = .next t ∧ t.pwr.cutoffs = sat32 s.pwr.cutoffs 1 ∧ cutOff t g.who = true)
      ∧ (∀ who, cutOff s who = true → who < 32 → who ∉ s.pwr.dead → readmitDue s who = true →
          ∃ t, exec (.arbiterReadmit who) s = .next t ∧ cutOff t who = false)

/-! ### Laurel (R366 to R373) -/

/-- Laurel: an UPDATE without START or while the display is disabled is ignored, one that arrives while an update runs waits, and one
while the pump starts is kept; a frame of a running update advances its waveforms; a pump not ready after 20 ms refuses the update; and
both strip bursts are driven while the strip is active. -/
def Obligations.LaurelActs : Prop :=
  ∀ s : State, s.dev.phase = .running →
    (∀ v, (v.getLsbD 0 = false ∨ lauEnabled s = false) → exec (.laurelUpdate v) s = .next (settle s s))
      ∧ (∀ v ds, v.getLsbD 0 = true → lauEnabled s = true → s.lau.running = some ds →
          exec (.laurelUpdate v) s = .next (settle s (s.onLau fun l =>
            { l with refused := false, pending := some (v.getLsbD 1 || l.pending.getD false) })))
      ∧ (∀ v, v.getLsbD 0 = true → lauEnabled s = true → s.lau.running = none → displayRuns s = true → s.lau.pumpAt.isSome = true →
          exec (.laurelUpdate v) s = .next (settle s (s.onLau fun l =>
            { l with refused := false, requested := some (v.getLsbD 1 || l.requested.getD false) })))
      ∧ (∀ ds, s.lau.running = some ds → ((nextFrame ds).all fun d => d.codes == []) = false →
          exec .displayFrame s = .next (settle s
            ((ds.foldl (fun t d => chargeFrame d t) s).onLau fun l => { l with running := some (nextFrame ds) })))
      ∧ (∀ t, s.lau.pumpAt = some t → s.lau.pumpOk = false → t + 20 * nsMs ≤ tb6 s →
          ∃ u, exec .displayPumpTimeout s = .next u ∧ u.lau.refused = true ∧ u.lau.reason = 4 ∧ u.lau.requested = none
            ∧ u.lau.pending = none ∧ u.lau.pumpAt = none)
      ∧ (stripActive s = true →
          exec .stripRefreshBurst s = .next (settle s
              (let u := stripContent (stripVp s); stripBurst 0b1011 24 (lauBytes u 0x4000 384) u))
            ∧ exec .stripPolarityBurst s = .next (settle s (stripBurst 0b0110 0 [] (stripVp s))))
end

