-- ==== Sys2Proof/Laws/Directory.lean ====
section
/-!
SUPPORT. The directory finds places: what an insertion into few entries does (R145).
-/

namespace Sys2Proof.Laws
open Sys2Proof.Machine

/-- A bucket holds no more entries than the directory. -/
theorem bucketLoad_le (l : List DirEntry) (b : Nat) : bucketLoad l b ≤ l.length := List.length_filter_le _ _

/-- With fewer than eight entries in the directory an entry finds a place, and no other moves (R145). -/
theorem placeEntry_of_few (homes : DirEntry → Nat × Nat) (victim : Nat → Nat) (f : Nat) (e : DirEntry) (l : List DirEntry)
    (h : l.length < 8) : ∃ b, placeEntry homes victim f e l = some (l ++ [{ e with bucket := b }]) := by
  have room : ∀ b, bucketLoad l b < 8 := fun b => lt_of_le_of_lt (bucketLoad_le l b) h
  refine ⟨if bucketLoad l (homes e).1 ≤ bucketLoad l (homes e).2 then (homes e).1 else (homes e).2, ?_⟩
  cases f <;> simp [placeEntry, room]

/-- A meter finds its places in a directory of fewer than seven entries, an empty one say (R145). -/
theorem enterNames_of_few (s : State) (n : Nat) (eui title : DWord) (h : s.met.dir.length < 7) :
    (enterNames s n eui title).isSome = true := by
  obtain ⟨a, ha⟩ := placeEntry_of_few (homesOf s) (fun i => Config.dirVictim (directoryKey s) eui i) 256
    { title := false, key := eui, slot := n, bucket := 0 } s.met.dir (by omega)
  obtain ⟨b, hb⟩ := placeEntry_of_few (homesOf s) (fun i => Config.dirVictim (directoryKey s) title i) 256
    { title := true, key := title, slot := n, bucket := 0 } (s.met.dir ++ [{ title := false, key := eui, slot := n, bucket := a }])
    (by simp; omega)
  simp [enterNames, namesOf, placeName, ha, hb]

end Sys2Proof.Laws
end

