-- ==== Sys2Proof/Laws/State.lean ====
section
/-!
SUPPORT. What each updater of a group of the state leaves of every group: one lemma per group per updater.
-/

namespace Sys2Proof.Laws
open Sys2Proof.Machine

@[simp] theorem onDev_dev (s : State) (f : Dev → Dev) : (s.onDev f).dev = f s.dev := rfl
@[simp] theorem onDev_prot (s : State) (f : Dev → Dev) : (s.onDev f).prot = s.prot := rfl
@[simp] theorem onDev_host (s : State) (f : Dev → Dev) : (s.onDev f).host = s.host := rfl
@[simp] theorem onDev_lane (s : State) (f : Dev → Dev) : (s.onDev f).lane = s.lane := rfl
@[simp] theorem onDev_hr (s : State) (f : Dev → Dev) : (s.onDev f).hr = s.hr := rfl
@[simp] theorem onDev_br (s : State) (f : Dev → Dev) : (s.onDev f).br = s.br := rfl
@[simp] theorem onDev_met (s : State) (f : Dev → Dev) : (s.onDev f).met = s.met := rfl
@[simp] theorem onDev_tar (s : State) (f : Dev → Dev) : (s.onDev f).tar = s.tar := rfl
@[simp] theorem onDev_led (s : State) (f : Dev → Dev) : (s.onDev f).led = s.led := rfl
@[simp] theorem onDev_lt (s : State) (f : Dev → Dev) : (s.onDev f).lt = s.lt := rfl
@[simp] theorem onDev_tim (s : State) (f : Dev → Dev) : (s.onDev f).tim = s.tim := rfl
@[simp] theorem onDev_vlt (s : State) (f : Dev → Dev) : (s.onDev f).vlt = s.vlt := rfl
@[simp] theorem onDev_cop (s : State) (f : Dev → Dev) : (s.onDev f).cop = s.cop := rfl
@[simp] theorem onDev_pair (s : State) (f : Dev → Dev) : (s.onDev f).pair = s.pair := rfl
@[simp] theorem onDev_yew (s : State) (f : Dev → Dev) : (s.onDev f).yew = s.yew := rfl
@[simp] theorem onDev_fw (s : State) (f : Dev → Dev) : (s.onDev f).fw = s.fw := rfl
@[simp] theorem onDev_pwr (s : State) (f : Dev → Dev) : (s.onDev f).pwr = s.pwr := rfl
@[simp] theorem onDev_lau (s : State) (f : Dev → Dev) : (s.onDev f).lau = s.lau := rfl
@[simp] theorem onDev_dl (s : State) (f : Dev → Dev) : (s.onDev f).dl = s.dl := rfl
@[simp] theorem onDev_past (s : State) (f : Dev → Dev) : (s.onDev f).past = s.past := rfl
@[simp] theorem onDev_pending (s : State) (f : Dev → Dev) : (s.onDev f).pending = s.pending := rfl
@[simp] theorem onDev_free (s : State) (f : Dev → Dev) : (s.onDev f).free = s.free := rfl

@[simp] theorem onProt_dev (s : State) (f : Protect → Protect) : (s.onProt f).dev = s.dev := rfl
@[simp] theorem onProt_prot (s : State) (f : Protect → Protect) : (s.onProt f).prot = f s.prot := rfl
@[simp] theorem onProt_host (s : State) (f : Protect → Protect) : (s.onProt f).host = s.host := rfl
@[simp] theorem onProt_lane (s : State) (f : Protect → Protect) : (s.onProt f).lane = s.lane := rfl
@[simp] theorem onProt_hr (s : State) (f : Protect → Protect) : (s.onProt f).hr = s.hr := rfl
@[simp] theorem onProt_br (s : State) (f : Protect → Protect) : (s.onProt f).br = s.br := rfl
@[simp] theorem onProt_met (s : State) (f : Protect → Protect) : (s.onProt f).met = s.met := rfl
@[simp] theorem onProt_tar (s : State) (f : Protect → Protect) : (s.onProt f).tar = s.tar := rfl
@[simp] theorem onProt_led (s : State) (f : Protect → Protect) : (s.onProt f).led = s.led := rfl
@[simp] theorem onProt_lt (s : State) (f : Protect → Protect) : (s.onProt f).lt = s.lt := rfl
@[simp] theorem onProt_tim (s : State) (f : Protect → Protect) : (s.onProt f).tim = s.tim := rfl
@[simp] theorem onProt_vlt (s : State) (f : Protect → Protect) : (s.onProt f).vlt = s.vlt := rfl
@[simp] theorem onProt_cop (s : State) (f : Protect → Protect) : (s.onProt f).cop = s.cop := rfl
@[simp] theorem onProt_pair (s : State) (f : Protect → Protect) : (s.onProt f).pair = s.pair := rfl
@[simp] theorem onProt_yew (s : State) (f : Protect → Protect) : (s.onProt f).yew = s.yew := rfl
@[simp] theorem onProt_fw (s : State) (f : Protect → Protect) : (s.onProt f).fw = s.fw := rfl
@[simp] theorem onProt_pwr (s : State) (f : Protect → Protect) : (s.onProt f).pwr = s.pwr := rfl
@[simp] theorem onProt_lau (s : State) (f : Protect → Protect) : (s.onProt f).lau = s.lau := rfl
@[simp] theorem onProt_dl (s : State) (f : Protect → Protect) : (s.onProt f).dl = s.dl := rfl
@[simp] theorem onProt_past (s : State) (f : Protect → Protect) : (s.onProt f).past = s.past := rfl
@[simp] theorem onProt_pending (s : State) (f : Protect → Protect) : (s.onProt f).pending = s.pending := rfl
@[simp] theorem onProt_free (s : State) (f : Protect → Protect) : (s.onProt f).free = s.free := rfl

@[simp] theorem onHost_dev (s : State) (f : HostIf → HostIf) : (s.onHost f).dev = s.dev := rfl
@[simp] theorem onHost_prot (s : State) (f : HostIf → HostIf) : (s.onHost f).prot = s.prot := rfl
@[simp] theorem onHost_host (s : State) (f : HostIf → HostIf) : (s.onHost f).host = f s.host := rfl
@[simp] theorem onHost_lane (s : State) (f : HostIf → HostIf) : (s.onHost f).lane = s.lane := rfl
@[simp] theorem onHost_hr (s : State) (f : HostIf → HostIf) : (s.onHost f).hr = s.hr := rfl
@[simp] theorem onHost_br (s : State) (f : HostIf → HostIf) : (s.onHost f).br = s.br := rfl
@[simp] theorem onHost_met (s : State) (f : HostIf → HostIf) : (s.onHost f).met = s.met := rfl
@[simp] theorem onHost_tar (s : State) (f : HostIf → HostIf) : (s.onHost f).tar = s.tar := rfl
@[simp] theorem onHost_led (s : State) (f : HostIf → HostIf) : (s.onHost f).led = s.led := rfl
@[simp] theorem onHost_lt (s : State) (f : HostIf → HostIf) : (s.onHost f).lt = s.lt := rfl
@[simp] theorem onHost_tim (s : State) (f : HostIf → HostIf) : (s.onHost f).tim = s.tim := rfl
@[simp] theorem onHost_vlt (s : State) (f : HostIf → HostIf) : (s.onHost f).vlt = s.vlt := rfl
@[simp] theorem onHost_cop (s : State) (f : HostIf → HostIf) : (s.onHost f).cop = s.cop := rfl
@[simp] theorem onHost_pair (s : State) (f : HostIf → HostIf) : (s.onHost f).pair = s.pair := rfl
@[simp] theorem onHost_yew (s : State) (f : HostIf → HostIf) : (s.onHost f).yew = s.yew := rfl
@[simp] theorem onHost_fw (s : State) (f : HostIf → HostIf) : (s.onHost f).fw = s.fw := rfl
@[simp] theorem onHost_pwr (s : State) (f : HostIf → HostIf) : (s.onHost f).pwr = s.pwr := rfl
@[simp] theorem onHost_lau (s : State) (f : HostIf → HostIf) : (s.onHost f).lau = s.lau := rfl
@[simp] theorem onHost_dl (s : State) (f : HostIf → HostIf) : (s.onHost f).dl = s.dl := rfl
@[simp] theorem onHost_past (s : State) (f : HostIf → HostIf) : (s.onHost f).past = s.past := rfl
@[simp] theorem onHost_pending (s : State) (f : HostIf → HostIf) : (s.onHost f).pending = s.pending := rfl
@[simp] theorem onHost_free (s : State) (f : HostIf → HostIf) : (s.onHost f).free = s.free := rfl

@[simp] theorem onLane_dev (s : State) (f : Lane → Lane) : (s.onLane f).dev = s.dev := rfl
@[simp] theorem onLane_prot (s : State) (f : Lane → Lane) : (s.onLane f).prot = s.prot := rfl
@[simp] theorem onLane_host (s : State) (f : Lane → Lane) : (s.onLane f).host = s.host := rfl
@[simp] theorem onLane_lane (s : State) (f : Lane → Lane) : (s.onLane f).lane = f s.lane := rfl
@[simp] theorem onLane_hr (s : State) (f : Lane → Lane) : (s.onLane f).hr = s.hr := rfl
@[simp] theorem onLane_br (s : State) (f : Lane → Lane) : (s.onLane f).br = s.br := rfl
@[simp] theorem onLane_met (s : State) (f : Lane → Lane) : (s.onLane f).met = s.met := rfl
@[simp] theorem onLane_tar (s : State) (f : Lane → Lane) : (s.onLane f).tar = s.tar := rfl
@[simp] theorem onLane_led (s : State) (f : Lane → Lane) : (s.onLane f).led = s.led := rfl
@[simp] theorem onLane_lt (s : State) (f : Lane → Lane) : (s.onLane f).lt = s.lt := rfl
@[simp] theorem onLane_tim (s : State) (f : Lane → Lane) : (s.onLane f).tim = s.tim := rfl
@[simp] theorem onLane_vlt (s : State) (f : Lane → Lane) : (s.onLane f).vlt = s.vlt := rfl
@[simp] theorem onLane_cop (s : State) (f : Lane → Lane) : (s.onLane f).cop = s.cop := rfl
@[simp] theorem onLane_pair (s : State) (f : Lane → Lane) : (s.onLane f).pair = s.pair := rfl
@[simp] theorem onLane_yew (s : State) (f : Lane → Lane) : (s.onLane f).yew = s.yew := rfl
@[simp] theorem onLane_fw (s : State) (f : Lane → Lane) : (s.onLane f).fw = s.fw := rfl
@[simp] theorem onLane_pwr (s : State) (f : Lane → Lane) : (s.onLane f).pwr = s.pwr := rfl
@[simp] theorem onLane_lau (s : State) (f : Lane → Lane) : (s.onLane f).lau = s.lau := rfl
@[simp] theorem onLane_dl (s : State) (f : Lane → Lane) : (s.onLane f).dl = s.dl := rfl
@[simp] theorem onLane_past (s : State) (f : Lane → Lane) : (s.onLane f).past = s.past := rfl
@[simp] theorem onLane_pending (s : State) (f : Lane → Lane) : (s.onLane f).pending = s.pending := rfl
@[simp] theorem onLane_free (s : State) (f : Lane → Lane) : (s.onLane f).free = s.free := rfl

@[simp] theorem onHr_dev (s : State) (f : Tbl HrNet → Tbl HrNet) : (s.onHr f).dev = s.dev := rfl
@[simp] theorem onHr_prot (s : State) (f : Tbl HrNet → Tbl HrNet) : (s.onHr f).prot = s.prot := rfl
@[simp] theorem onHr_host (s : State) (f : Tbl HrNet → Tbl HrNet) : (s.onHr f).host = s.host := rfl
@[simp] theorem onHr_lane (s : State) (f : Tbl HrNet → Tbl HrNet) : (s.onHr f).lane = s.lane := rfl
@[simp] theorem onHr_hr (s : State) (f : Tbl HrNet → Tbl HrNet) : (s.onHr f).hr = f s.hr := rfl
@[simp] theorem onHr_br (s : State) (f : Tbl HrNet → Tbl HrNet) : (s.onHr f).br = s.br := rfl
@[simp] theorem onHr_met (s : State) (f : Tbl HrNet → Tbl HrNet) : (s.onHr f).met = s.met := rfl
@[simp] theorem onHr_tar (s : State) (f : Tbl HrNet → Tbl HrNet) : (s.onHr f).tar = s.tar := rfl
@[simp] theorem onHr_led (s : State) (f : Tbl HrNet → Tbl HrNet) : (s.onHr f).led = s.led := rfl
@[simp] theorem onHr_lt (s : State) (f : Tbl HrNet → Tbl HrNet) : (s.onHr f).lt = s.lt := rfl
@[simp] theorem onHr_tim (s : State) (f : Tbl HrNet → Tbl HrNet) : (s.onHr f).tim = s.tim := rfl
@[simp] theorem onHr_vlt (s : State) (f : Tbl HrNet → Tbl HrNet) : (s.onHr f).vlt = s.vlt := rfl
@[simp] theorem onHr_cop (s : State) (f : Tbl HrNet → Tbl HrNet) : (s.onHr f).cop = s.cop := rfl
@[simp] theorem onHr_pair (s : State) (f : Tbl HrNet → Tbl HrNet) : (s.onHr f).pair = s.pair := rfl
@[simp] theorem onHr_yew (s : State) (f : Tbl HrNet → Tbl HrNet) : (s.onHr f).yew = s.yew := rfl
@[simp] theorem onHr_fw (s : State) (f : Tbl HrNet → Tbl HrNet) : (s.onHr f).fw = s.fw := rfl
@[simp] theorem onHr_pwr (s : State) (f : Tbl HrNet → Tbl HrNet) : (s.onHr f).pwr = s.pwr := rfl
@[simp] theorem onHr_lau (s : State) (f : Tbl HrNet → Tbl HrNet) : (s.onHr f).lau = s.lau := rfl
@[simp] theorem onHr_dl (s : State) (f : Tbl HrNet → Tbl HrNet) : (s.onHr f).dl = s.dl := rfl
@[simp] theorem onHr_past (s : State) (f : Tbl HrNet → Tbl HrNet) : (s.onHr f).past = s.past := rfl
@[simp] theorem onHr_pending (s : State) (f : Tbl HrNet → Tbl HrNet) : (s.onHr f).pending = s.pending := rfl
@[simp] theorem onHr_free (s : State) (f : Tbl HrNet → Tbl HrNet) : (s.onHr f).free = s.free := rfl

@[simp] theorem onBr_dev (s : State) (f : Bramble → Bramble) : (s.onBr f).dev = s.dev := rfl
@[simp] theorem onBr_prot (s : State) (f : Bramble → Bramble) : (s.onBr f).prot = s.prot := rfl
@[simp] theorem onBr_host (s : State) (f : Bramble → Bramble) : (s.onBr f).host = s.host := rfl
@[simp] theorem onBr_lane (s : State) (f : Bramble → Bramble) : (s.onBr f).lane = s.lane := rfl
@[simp] theorem onBr_hr (s : State) (f : Bramble → Bramble) : (s.onBr f).hr = s.hr := rfl
@[simp] theorem onBr_br (s : State) (f : Bramble → Bramble) : (s.onBr f).br = f s.br := rfl
@[simp] theorem onBr_met (s : State) (f : Bramble → Bramble) : (s.onBr f).met = s.met := rfl
@[simp] theorem onBr_tar (s : State) (f : Bramble → Bramble) : (s.onBr f).tar = s.tar := rfl
@[simp] theorem onBr_led (s : State) (f : Bramble → Bramble) : (s.onBr f).led = s.led := rfl
@[simp] theorem onBr_lt (s : State) (f : Bramble → Bramble) : (s.onBr f).lt = s.lt := rfl
@[simp] theorem onBr_tim (s : State) (f : Bramble → Bramble) : (s.onBr f).tim = s.tim := rfl
@[simp] theorem onBr_vlt (s : State) (f : Bramble → Bramble) : (s.onBr f).vlt = s.vlt := rfl
@[simp] theorem onBr_cop (s : State) (f : Bramble → Bramble) : (s.onBr f).cop = s.cop := rfl
@[simp] theorem onBr_pair (s : State) (f : Bramble → Bramble) : (s.onBr f).pair = s.pair := rfl
@[simp] theorem onBr_yew (s : State) (f : Bramble → Bramble) : (s.onBr f).yew = s.yew := rfl
@[simp] theorem onBr_fw (s : State) (f : Bramble → Bramble) : (s.onBr f).fw = s.fw := rfl
@[simp] theorem onBr_pwr (s : State) (f : Bramble → Bramble) : (s.onBr f).pwr = s.pwr := rfl
@[simp] theorem onBr_lau (s : State) (f : Bramble → Bramble) : (s.onBr f).lau = s.lau := rfl
@[simp] theorem onBr_dl (s : State) (f : Bramble → Bramble) : (s.onBr f).dl = s.dl := rfl
@[simp] theorem onBr_past (s : State) (f : Bramble → Bramble) : (s.onBr f).past = s.past := rfl
@[simp] theorem onBr_pending (s : State) (f : Bramble → Bramble) : (s.onBr f).pending = s.pending := rfl
@[simp] theorem onBr_free (s : State) (f : Bramble → Bramble) : (s.onBr f).free = s.free := rfl

@[simp] theorem onMet_dev (s : State) (f : Meters → Meters) : (s.onMet f).dev = s.dev := rfl
@[simp] theorem onMet_prot (s : State) (f : Meters → Meters) : (s.onMet f).prot = s.prot := rfl
@[simp] theorem onMet_host (s : State) (f : Meters → Meters) : (s.onMet f).host = s.host := rfl
@[simp] theorem onMet_lane (s : State) (f : Meters → Meters) : (s.onMet f).lane = s.lane := rfl
@[simp] theorem onMet_hr (s : State) (f : Meters → Meters) : (s.onMet f).hr = s.hr := rfl
@[simp] theorem onMet_br (s : State) (f : Meters → Meters) : (s.onMet f).br = s.br := rfl
@[simp] theorem onMet_met (s : State) (f : Meters → Meters) : (s.onMet f).met = f s.met := rfl
@[simp] theorem onMet_tar (s : State) (f : Meters → Meters) : (s.onMet f).tar = s.tar := rfl
@[simp] theorem onMet_led (s : State) (f : Meters → Meters) : (s.onMet f).led = s.led := rfl
@[simp] theorem onMet_lt (s : State) (f : Meters → Meters) : (s.onMet f).lt = s.lt := rfl
@[simp] theorem onMet_tim (s : State) (f : Meters → Meters) : (s.onMet f).tim = s.tim := rfl
@[simp] theorem onMet_vlt (s : State) (f : Meters → Meters) : (s.onMet f).vlt = s.vlt := rfl
@[simp] theorem onMet_cop (s : State) (f : Meters → Meters) : (s.onMet f).cop = s.cop := rfl
@[simp] theorem onMet_pair (s : State) (f : Meters → Meters) : (s.onMet f).pair = s.pair := rfl
@[simp] theorem onMet_yew (s : State) (f : Meters → Meters) : (s.onMet f).yew = s.yew := rfl
@[simp] theorem onMet_fw (s : State) (f : Meters → Meters) : (s.onMet f).fw = s.fw := rfl
@[simp] theorem onMet_pwr (s : State) (f : Meters → Meters) : (s.onMet f).pwr = s.pwr := rfl
@[simp] theorem onMet_lau (s : State) (f : Meters → Meters) : (s.onMet f).lau = s.lau := rfl
@[simp] theorem onMet_dl (s : State) (f : Meters → Meters) : (s.onMet f).dl = s.dl := rfl
@[simp] theorem onMet_past (s : State) (f : Meters → Meters) : (s.onMet f).past = s.past := rfl
@[simp] theorem onMet_pending (s : State) (f : Meters → Meters) : (s.onMet f).pending = s.pending := rfl
@[simp] theorem onMet_free (s : State) (f : Meters → Meters) : (s.onMet f).free = s.free := rfl

@[simp] theorem onTar_dev (s : State) (f : Tariffs → Tariffs) : (s.onTar f).dev = s.dev := rfl
@[simp] theorem onTar_prot (s : State) (f : Tariffs → Tariffs) : (s.onTar f).prot = s.prot := rfl
@[simp] theorem onTar_host (s : State) (f : Tariffs → Tariffs) : (s.onTar f).host = s.host := rfl
@[simp] theorem onTar_lane (s : State) (f : Tariffs → Tariffs) : (s.onTar f).lane = s.lane := rfl
@[simp] theorem onTar_hr (s : State) (f : Tariffs → Tariffs) : (s.onTar f).hr = s.hr := rfl
@[simp] theorem onTar_br (s : State) (f : Tariffs → Tariffs) : (s.onTar f).br = s.br := rfl
@[simp] theorem onTar_met (s : State) (f : Tariffs → Tariffs) : (s.onTar f).met = s.met := rfl
@[simp] theorem onTar_tar (s : State) (f : Tariffs → Tariffs) : (s.onTar f).tar = f s.tar := rfl
@[simp] theorem onTar_led (s : State) (f : Tariffs → Tariffs) : (s.onTar f).led = s.led := rfl
@[simp] theorem onTar_lt (s : State) (f : Tariffs → Tariffs) : (s.onTar f).lt = s.lt := rfl
@[simp] theorem onTar_tim (s : State) (f : Tariffs → Tariffs) : (s.onTar f).tim = s.tim := rfl
@[simp] theorem onTar_vlt (s : State) (f : Tariffs → Tariffs) : (s.onTar f).vlt = s.vlt := rfl
@[simp] theorem onTar_cop (s : State) (f : Tariffs → Tariffs) : (s.onTar f).cop = s.cop := rfl
@[simp] theorem onTar_pair (s : State) (f : Tariffs → Tariffs) : (s.onTar f).pair = s.pair := rfl
@[simp] theorem onTar_yew (s : State) (f : Tariffs → Tariffs) : (s.onTar f).yew = s.yew := rfl
@[simp] theorem onTar_fw (s : State) (f : Tariffs → Tariffs) : (s.onTar f).fw = s.fw := rfl
@[simp] theorem onTar_pwr (s : State) (f : Tariffs → Tariffs) : (s.onTar f).pwr = s.pwr := rfl
@[simp] theorem onTar_lau (s : State) (f : Tariffs → Tariffs) : (s.onTar f).lau = s.lau := rfl
@[simp] theorem onTar_dl (s : State) (f : Tariffs → Tariffs) : (s.onTar f).dl = s.dl := rfl
@[simp] theorem onTar_past (s : State) (f : Tariffs → Tariffs) : (s.onTar f).past = s.past := rfl
@[simp] theorem onTar_pending (s : State) (f : Tariffs → Tariffs) : (s.onTar f).pending = s.pending := rfl
@[simp] theorem onTar_free (s : State) (f : Tariffs → Tariffs) : (s.onTar f).free = s.free := rfl

@[simp] theorem onLed_dev (s : State) (f : Ledger → Ledger) : (s.onLed f).dev = s.dev := rfl
@[simp] theorem onLed_prot (s : State) (f : Ledger → Ledger) : (s.onLed f).prot = s.prot := rfl
@[simp] theorem onLed_host (s : State) (f : Ledger → Ledger) : (s.onLed f).host = s.host := rfl
@[simp] theorem onLed_lane (s : State) (f : Ledger → Ledger) : (s.onLed f).lane = s.lane := rfl
@[simp] theorem onLed_hr (s : State) (f : Ledger → Ledger) : (s.onLed f).hr = s.hr := rfl
@[simp] theorem onLed_br (s : State) (f : Ledger → Ledger) : (s.onLed f).br = s.br := rfl
@[simp] theorem onLed_met (s : State) (f : Ledger → Ledger) : (s.onLed f).met = s.met := rfl
@[simp] theorem onLed_tar (s : State) (f : Ledger → Ledger) : (s.onLed f).tar = s.tar := rfl
@[simp] theorem onLed_led (s : State) (f : Ledger → Ledger) : (s.onLed f).led = f s.led := rfl
@[simp] theorem onLed_lt (s : State) (f : Ledger → Ledger) : (s.onLed f).lt = s.lt := rfl
@[simp] theorem onLed_tim (s : State) (f : Ledger → Ledger) : (s.onLed f).tim = s.tim := rfl
@[simp] theorem onLed_vlt (s : State) (f : Ledger → Ledger) : (s.onLed f).vlt = s.vlt := rfl
@[simp] theorem onLed_cop (s : State) (f : Ledger → Ledger) : (s.onLed f).cop = s.cop := rfl
@[simp] theorem onLed_pair (s : State) (f : Ledger → Ledger) : (s.onLed f).pair = s.pair := rfl
@[simp] theorem onLed_yew (s : State) (f : Ledger → Ledger) : (s.onLed f).yew = s.yew := rfl
@[simp] theorem onLed_fw (s : State) (f : Ledger → Ledger) : (s.onLed f).fw = s.fw := rfl
@[simp] theorem onLed_pwr (s : State) (f : Ledger → Ledger) : (s.onLed f).pwr = s.pwr := rfl
@[simp] theorem onLed_lau (s : State) (f : Ledger → Ledger) : (s.onLed f).lau = s.lau := rfl
@[simp] theorem onLed_dl (s : State) (f : Ledger → Ledger) : (s.onLed f).dl = s.dl := rfl
@[simp] theorem onLed_past (s : State) (f : Ledger → Ledger) : (s.onLed f).past = s.past := rfl
@[simp] theorem onLed_pending (s : State) (f : Ledger → Ledger) : (s.onLed f).pending = s.pending := rfl
@[simp] theorem onLed_free (s : State) (f : Ledger → Ledger) : (s.onLed f).free = s.free := rfl

@[simp] theorem onLt_dev (s : State) (f : LossTheft → LossTheft) : (s.onLt f).dev = s.dev := rfl
@[simp] theorem onLt_prot (s : State) (f : LossTheft → LossTheft) : (s.onLt f).prot = s.prot := rfl
@[simp] theorem onLt_host (s : State) (f : LossTheft → LossTheft) : (s.onLt f).host = s.host := rfl
@[simp] theorem onLt_lane (s : State) (f : LossTheft → LossTheft) : (s.onLt f).lane = s.lane := rfl
@[simp] theorem onLt_hr (s : State) (f : LossTheft → LossTheft) : (s.onLt f).hr = s.hr := rfl
@[simp] theorem onLt_br (s : State) (f : LossTheft → LossTheft) : (s.onLt f).br = s.br := rfl
@[simp] theorem onLt_met (s : State) (f : LossTheft → LossTheft) : (s.onLt f).met = s.met := rfl
@[simp] theorem onLt_tar (s : State) (f : LossTheft → LossTheft) : (s.onLt f).tar = s.tar := rfl
@[simp] theorem onLt_led (s : State) (f : LossTheft → LossTheft) : (s.onLt f).led = s.led := rfl
@[simp] theorem onLt_lt (s : State) (f : LossTheft → LossTheft) : (s.onLt f).lt = f s.lt := rfl
@[simp] theorem onLt_tim (s : State) (f : LossTheft → LossTheft) : (s.onLt f).tim = s.tim := rfl
@[simp] theorem onLt_vlt (s : State) (f : LossTheft → LossTheft) : (s.onLt f).vlt = s.vlt := rfl
@[simp] theorem onLt_cop (s : State) (f : LossTheft → LossTheft) : (s.onLt f).cop = s.cop := rfl
@[simp] theorem onLt_pair (s : State) (f : LossTheft → LossTheft) : (s.onLt f).pair = s.pair := rfl
@[simp] theorem onLt_yew (s : State) (f : LossTheft → LossTheft) : (s.onLt f).yew = s.yew := rfl
@[simp] theorem onLt_fw (s : State) (f : LossTheft → LossTheft) : (s.onLt f).fw = s.fw := rfl
@[simp] theorem onLt_pwr (s : State) (f : LossTheft → LossTheft) : (s.onLt f).pwr = s.pwr := rfl
@[simp] theorem onLt_lau (s : State) (f : LossTheft → LossTheft) : (s.onLt f).lau = s.lau := rfl
@[simp] theorem onLt_dl (s : State) (f : LossTheft → LossTheft) : (s.onLt f).dl = s.dl := rfl
@[simp] theorem onLt_past (s : State) (f : LossTheft → LossTheft) : (s.onLt f).past = s.past := rfl
@[simp] theorem onLt_pending (s : State) (f : LossTheft → LossTheft) : (s.onLt f).pending = s.pending := rfl
@[simp] theorem onLt_free (s : State) (f : LossTheft → LossTheft) : (s.onLt f).free = s.free := rfl

@[simp] theorem onTim_dev (s : State) (f : TimeUnit → TimeUnit) : (s.onTim f).dev = s.dev := rfl
@[simp] theorem onTim_prot (s : State) (f : TimeUnit → TimeUnit) : (s.onTim f).prot = s.prot := rfl
@[simp] theorem onTim_host (s : State) (f : TimeUnit → TimeUnit) : (s.onTim f).host = s.host := rfl
@[simp] theorem onTim_lane (s : State) (f : TimeUnit → TimeUnit) : (s.onTim f).lane = s.lane := rfl
@[simp] theorem onTim_hr (s : State) (f : TimeUnit → TimeUnit) : (s.onTim f).hr = s.hr := rfl
@[simp] theorem onTim_br (s : State) (f : TimeUnit → TimeUnit) : (s.onTim f).br = s.br := rfl
@[simp] theorem onTim_met (s : State) (f : TimeUnit → TimeUnit) : (s.onTim f).met = s.met := rfl
@[simp] theorem onTim_tar (s : State) (f : TimeUnit → TimeUnit) : (s.onTim f).tar = s.tar := rfl
@[simp] theorem onTim_led (s : State) (f : TimeUnit → TimeUnit) : (s.onTim f).led = s.led := rfl
@[simp] theorem onTim_lt (s : State) (f : TimeUnit → TimeUnit) : (s.onTim f).lt = s.lt := rfl
@[simp] theorem onTim_tim (s : State) (f : TimeUnit → TimeUnit) : (s.onTim f).tim = f s.tim := rfl
@[simp] theorem onTim_vlt (s : State) (f : TimeUnit → TimeUnit) : (s.onTim f).vlt = s.vlt := rfl
@[simp] theorem onTim_cop (s : State) (f : TimeUnit → TimeUnit) : (s.onTim f).cop = s.cop := rfl
@[simp] theorem onTim_pair (s : State) (f : TimeUnit → TimeUnit) : (s.onTim f).pair = s.pair := rfl
@[simp] theorem onTim_yew (s : State) (f : TimeUnit → TimeUnit) : (s.onTim f).yew = s.yew := rfl
@[simp] theorem onTim_fw (s : State) (f : TimeUnit → TimeUnit) : (s.onTim f).fw = s.fw := rfl
@[simp] theorem onTim_pwr (s : State) (f : TimeUnit → TimeUnit) : (s.onTim f).pwr = s.pwr := rfl
@[simp] theorem onTim_lau (s : State) (f : TimeUnit → TimeUnit) : (s.onTim f).lau = s.lau := rfl
@[simp] theorem onTim_dl (s : State) (f : TimeUnit → TimeUnit) : (s.onTim f).dl = s.dl := rfl
@[simp] theorem onTim_past (s : State) (f : TimeUnit → TimeUnit) : (s.onTim f).past = s.past := rfl
@[simp] theorem onTim_pending (s : State) (f : TimeUnit → TimeUnit) : (s.onTim f).pending = s.pending := rfl
@[simp] theorem onTim_free (s : State) (f : TimeUnit → TimeUnit) : (s.onTim f).free = s.free := rfl

@[simp] theorem onVlt_dev (s : State) (f : Vault → Vault) : (s.onVlt f).dev = s.dev := rfl
@[simp] theorem onVlt_prot (s : State) (f : Vault → Vault) : (s.onVlt f).prot = s.prot := rfl
@[simp] theorem onVlt_host (s : State) (f : Vault → Vault) : (s.onVlt f).host = s.host := rfl
@[simp] theorem onVlt_lane (s : State) (f : Vault → Vault) : (s.onVlt f).lane = s.lane := rfl
@[simp] theorem onVlt_hr (s : State) (f : Vault → Vault) : (s.onVlt f).hr = s.hr := rfl
@[simp] theorem onVlt_br (s : State) (f : Vault → Vault) : (s.onVlt f).br = s.br := rfl
@[simp] theorem onVlt_met (s : State) (f : Vault → Vault) : (s.onVlt f).met = s.met := rfl
@[simp] theorem onVlt_tar (s : State) (f : Vault → Vault) : (s.onVlt f).tar = s.tar := rfl
@[simp] theorem onVlt_led (s : State) (f : Vault → Vault) : (s.onVlt f).led = s.led := rfl
@[simp] theorem onVlt_lt (s : State) (f : Vault → Vault) : (s.onVlt f).lt = s.lt := rfl
@[simp] theorem onVlt_tim (s : State) (f : Vault → Vault) : (s.onVlt f).tim = s.tim := rfl
@[simp] theorem onVlt_vlt (s : State) (f : Vault → Vault) : (s.onVlt f).vlt = f s.vlt := rfl
@[simp] theorem onVlt_cop (s : State) (f : Vault → Vault) : (s.onVlt f).cop = s.cop := rfl
@[simp] theorem onVlt_pair (s : State) (f : Vault → Vault) : (s.onVlt f).pair = s.pair := rfl
@[simp] theorem onVlt_yew (s : State) (f : Vault → Vault) : (s.onVlt f).yew = s.yew := rfl
@[simp] theorem onVlt_fw (s : State) (f : Vault → Vault) : (s.onVlt f).fw = s.fw := rfl
@[simp] theorem onVlt_pwr (s : State) (f : Vault → Vault) : (s.onVlt f).pwr = s.pwr := rfl
@[simp] theorem onVlt_lau (s : State) (f : Vault → Vault) : (s.onVlt f).lau = s.lau := rfl
@[simp] theorem onVlt_dl (s : State) (f : Vault → Vault) : (s.onVlt f).dl = s.dl := rfl
@[simp] theorem onVlt_past (s : State) (f : Vault → Vault) : (s.onVlt f).past = s.past := rfl
@[simp] theorem onVlt_pending (s : State) (f : Vault → Vault) : (s.onVlt f).pending = s.pending := rfl
@[simp] theorem onVlt_free (s : State) (f : Vault → Vault) : (s.onVlt f).free = s.free := rfl

@[simp] theorem onCop_dev (s : State) (f : Coppice → Coppice) : (s.onCop f).dev = s.dev := rfl
@[simp] theorem onCop_prot (s : State) (f : Coppice → Coppice) : (s.onCop f).prot = s.prot := rfl
@[simp] theorem onCop_host (s : State) (f : Coppice → Coppice) : (s.onCop f).host = s.host := rfl
@[simp] theorem onCop_lane (s : State) (f : Coppice → Coppice) : (s.onCop f).lane = s.lane := rfl
@[simp] theorem onCop_hr (s : State) (f : Coppice → Coppice) : (s.onCop f).hr = s.hr := rfl
@[simp] theorem onCop_br (s : State) (f : Coppice → Coppice) : (s.onCop f).br = s.br := rfl
@[simp] theorem onCop_met (s : State) (f : Coppice → Coppice) : (s.onCop f).met = s.met := rfl
@[simp] theorem onCop_tar (s : State) (f : Coppice → Coppice) : (s.onCop f).tar = s.tar := rfl
@[simp] theorem onCop_led (s : State) (f : Coppice → Coppice) : (s.onCop f).led = s.led := rfl
@[simp] theorem onCop_lt (s : State) (f : Coppice → Coppice) : (s.onCop f).lt = s.lt := rfl
@[simp] theorem onCop_tim (s : State) (f : Coppice → Coppice) : (s.onCop f).tim = s.tim := rfl
@[simp] theorem onCop_vlt (s : State) (f : Coppice → Coppice) : (s.onCop f).vlt = s.vlt := rfl
@[simp] theorem onCop_cop (s : State) (f : Coppice → Coppice) : (s.onCop f).cop = f s.cop := rfl
@[simp] theorem onCop_pair (s : State) (f : Coppice → Coppice) : (s.onCop f).pair = s.pair := rfl
@[simp] theorem onCop_yew (s : State) (f : Coppice → Coppice) : (s.onCop f).yew = s.yew := rfl
@[simp] theorem onCop_fw (s : State) (f : Coppice → Coppice) : (s.onCop f).fw = s.fw := rfl
@[simp] theorem onCop_pwr (s : State) (f : Coppice → Coppice) : (s.onCop f).pwr = s.pwr := rfl
@[simp] theorem onCop_lau (s : State) (f : Coppice → Coppice) : (s.onCop f).lau = s.lau := rfl
@[simp] theorem onCop_dl (s : State) (f : Coppice → Coppice) : (s.onCop f).dl = s.dl := rfl
@[simp] theorem onCop_past (s : State) (f : Coppice → Coppice) : (s.onCop f).past = s.past := rfl
@[simp] theorem onCop_pending (s : State) (f : Coppice → Coppice) : (s.onCop f).pending = s.pending := rfl
@[simp] theorem onCop_free (s : State) (f : Coppice → Coppice) : (s.onCop f).free = s.free := rfl

@[simp] theorem onPair_dev (s : State) (f : Pair → Pair) : (s.onPair f).dev = s.dev := rfl
@[simp] theorem onPair_prot (s : State) (f : Pair → Pair) : (s.onPair f).prot = s.prot := rfl
@[simp] theorem onPair_host (s : State) (f : Pair → Pair) : (s.onPair f).host = s.host := rfl
@[simp] theorem onPair_lane (s : State) (f : Pair → Pair) : (s.onPair f).lane = s.lane := rfl
@[simp] theorem onPair_hr (s : State) (f : Pair → Pair) : (s.onPair f).hr = s.hr := rfl
@[simp] theorem onPair_br (s : State) (f : Pair → Pair) : (s.onPair f).br = s.br := rfl
@[simp] theorem onPair_met (s : State) (f : Pair → Pair) : (s.onPair f).met = s.met := rfl
@[simp] theorem onPair_tar (s : State) (f : Pair → Pair) : (s.onPair f).tar = s.tar := rfl
@[simp] theorem onPair_led (s : State) (f : Pair → Pair) : (s.onPair f).led = s.led := rfl
@[simp] theorem onPair_lt (s : State) (f : Pair → Pair) : (s.onPair f).lt = s.lt := rfl
@[simp] theorem onPair_tim (s : State) (f : Pair → Pair) : (s.onPair f).tim = s.tim := rfl
@[simp] theorem onPair_vlt (s : State) (f : Pair → Pair) : (s.onPair f).vlt = s.vlt := rfl
@[simp] theorem onPair_cop (s : State) (f : Pair → Pair) : (s.onPair f).cop = s.cop := rfl
@[simp] theorem onPair_pair (s : State) (f : Pair → Pair) : (s.onPair f).pair = f s.pair := rfl
@[simp] theorem onPair_yew (s : State) (f : Pair → Pair) : (s.onPair f).yew = s.yew := rfl
@[simp] theorem onPair_fw (s : State) (f : Pair → Pair) : (s.onPair f).fw = s.fw := rfl
@[simp] theorem onPair_pwr (s : State) (f : Pair → Pair) : (s.onPair f).pwr = s.pwr := rfl
@[simp] theorem onPair_lau (s : State) (f : Pair → Pair) : (s.onPair f).lau = s.lau := rfl
@[simp] theorem onPair_dl (s : State) (f : Pair → Pair) : (s.onPair f).dl = s.dl := rfl
@[simp] theorem onPair_past (s : State) (f : Pair → Pair) : (s.onPair f).past = s.past := rfl
@[simp] theorem onPair_pending (s : State) (f : Pair → Pair) : (s.onPair f).pending = s.pending := rfl
@[simp] theorem onPair_free (s : State) (f : Pair → Pair) : (s.onPair f).free = s.free := rfl

@[simp] theorem onYew_dev (s : State) (f : Yew → Yew) : (s.onYew f).dev = s.dev := rfl
@[simp] theorem onYew_prot (s : State) (f : Yew → Yew) : (s.onYew f).prot = s.prot := rfl
@[simp] theorem onYew_host (s : State) (f : Yew → Yew) : (s.onYew f).host = s.host := rfl
@[simp] theorem onYew_lane (s : State) (f : Yew → Yew) : (s.onYew f).lane = s.lane := rfl
@[simp] theorem onYew_hr (s : State) (f : Yew → Yew) : (s.onYew f).hr = s.hr := rfl
@[simp] theorem onYew_br (s : State) (f : Yew → Yew) : (s.onYew f).br = s.br := rfl
@[simp] theorem onYew_met (s : State) (f : Yew → Yew) : (s.onYew f).met = s.met := rfl
@[simp] theorem onYew_tar (s : State) (f : Yew → Yew) : (s.onYew f).tar = s.tar := rfl
@[simp] theorem onYew_led (s : State) (f : Yew → Yew) : (s.onYew f).led = s.led := rfl
@[simp] theorem onYew_lt (s : State) (f : Yew → Yew) : (s.onYew f).lt = s.lt := rfl
@[simp] theorem onYew_tim (s : State) (f : Yew → Yew) : (s.onYew f).tim = s.tim := rfl
@[simp] theorem onYew_vlt (s : State) (f : Yew → Yew) : (s.onYew f).vlt = s.vlt := rfl
@[simp] theorem onYew_cop (s : State) (f : Yew → Yew) : (s.onYew f).cop = s.cop := rfl
@[simp] theorem onYew_pair (s : State) (f : Yew → Yew) : (s.onYew f).pair = s.pair := rfl
@[simp] theorem onYew_yew (s : State) (f : Yew → Yew) : (s.onYew f).yew = f s.yew := rfl
@[simp] theorem onYew_fw (s : State) (f : Yew → Yew) : (s.onYew f).fw = s.fw := rfl
@[simp] theorem onYew_pwr (s : State) (f : Yew → Yew) : (s.onYew f).pwr = s.pwr := rfl
@[simp] theorem onYew_lau (s : State) (f : Yew → Yew) : (s.onYew f).lau = s.lau := rfl
@[simp] theorem onYew_dl (s : State) (f : Yew → Yew) : (s.onYew f).dl = s.dl := rfl
@[simp] theorem onYew_past (s : State) (f : Yew → Yew) : (s.onYew f).past = s.past := rfl
@[simp] theorem onYew_pending (s : State) (f : Yew → Yew) : (s.onYew f).pending = s.pending := rfl
@[simp] theorem onYew_free (s : State) (f : Yew → Yew) : (s.onYew f).free = s.free := rfl

@[simp] theorem onFw_dev (s : State) (f : Firmware → Firmware) : (s.onFw f).dev = s.dev := rfl
@[simp] theorem onFw_prot (s : State) (f : Firmware → Firmware) : (s.onFw f).prot = s.prot := rfl
@[simp] theorem onFw_host (s : State) (f : Firmware → Firmware) : (s.onFw f).host = s.host := rfl
@[simp] theorem onFw_lane (s : State) (f : Firmware → Firmware) : (s.onFw f).lane = s.lane := rfl
@[simp] theorem onFw_hr (s : State) (f : Firmware → Firmware) : (s.onFw f).hr = s.hr := rfl
@[simp] theorem onFw_br (s : State) (f : Firmware → Firmware) : (s.onFw f).br = s.br := rfl
@[simp] theorem onFw_met (s : State) (f : Firmware → Firmware) : (s.onFw f).met = s.met := rfl
@[simp] theorem onFw_tar (s : State) (f : Firmware → Firmware) : (s.onFw f).tar = s.tar := rfl
@[simp] theorem onFw_led (s : State) (f : Firmware → Firmware) : (s.onFw f).led = s.led := rfl
@[simp] theorem onFw_lt (s : State) (f : Firmware → Firmware) : (s.onFw f).lt = s.lt := rfl
@[simp] theorem onFw_tim (s : State) (f : Firmware → Firmware) : (s.onFw f).tim = s.tim := rfl
@[simp] theorem onFw_vlt (s : State) (f : Firmware → Firmware) : (s.onFw f).vlt = s.vlt := rfl
@[simp] theorem onFw_cop (s : State) (f : Firmware → Firmware) : (s.onFw f).cop = s.cop := rfl
@[simp] theorem onFw_pair (s : State) (f : Firmware → Firmware) : (s.onFw f).pair = s.pair := rfl
@[simp] theorem onFw_yew (s : State) (f : Firmware → Firmware) : (s.onFw f).yew = s.yew := rfl
@[simp] theorem onFw_fw (s : State) (f : Firmware → Firmware) : (s.onFw f).fw = f s.fw := rfl
@[simp] theorem onFw_pwr (s : State) (f : Firmware → Firmware) : (s.onFw f).pwr = s.pwr := rfl
@[simp] theorem onFw_lau (s : State) (f : Firmware → Firmware) : (s.onFw f).lau = s.lau := rfl
@[simp] theorem onFw_dl (s : State) (f : Firmware → Firmware) : (s.onFw f).dl = s.dl := rfl
@[simp] theorem onFw_past (s : State) (f : Firmware → Firmware) : (s.onFw f).past = s.past := rfl
@[simp] theorem onFw_pending (s : State) (f : Firmware → Firmware) : (s.onFw f).pending = s.pending := rfl
@[simp] theorem onFw_free (s : State) (f : Firmware → Firmware) : (s.onFw f).free = s.free := rfl

@[simp] theorem onPwr_dev (s : State) (f : Power → Power) : (s.onPwr f).dev = s.dev := rfl
@[simp] theorem onPwr_prot (s : State) (f : Power → Power) : (s.onPwr f).prot = s.prot := rfl
@[simp] theorem onPwr_host (s : State) (f : Power → Power) : (s.onPwr f).host = s.host := rfl
@[simp] theorem onPwr_lane (s : State) (f : Power → Power) : (s.onPwr f).lane = s.lane := rfl
@[simp] theorem onPwr_hr (s : State) (f : Power → Power) : (s.onPwr f).hr = s.hr := rfl
@[simp] theorem onPwr_br (s : State) (f : Power → Power) : (s.onPwr f).br = s.br := rfl
@[simp] theorem onPwr_met (s : State) (f : Power → Power) : (s.onPwr f).met = s.met := rfl
@[simp] theorem onPwr_tar (s : State) (f : Power → Power) : (s.onPwr f).tar = s.tar := rfl
@[simp] theorem onPwr_led (s : State) (f : Power → Power) : (s.onPwr f).led = s.led := rfl
@[simp] theorem onPwr_lt (s : State) (f : Power → Power) : (s.onPwr f).lt = s.lt := rfl
@[simp] theorem onPwr_tim (s : State) (f : Power → Power) : (s.onPwr f).tim = s.tim := rfl
@[simp] theorem onPwr_vlt (s : State) (f : Power → Power) : (s.onPwr f).vlt = s.vlt := rfl
@[simp] theorem onPwr_cop (s : State) (f : Power → Power) : (s.onPwr f).cop = s.cop := rfl
@[simp] theorem onPwr_pair (s : State) (f : Power → Power) : (s.onPwr f).pair = s.pair := rfl
@[simp] theorem onPwr_yew (s : State) (f : Power → Power) : (s.onPwr f).yew = s.yew := rfl
@[simp] theorem onPwr_fw (s : State) (f : Power → Power) : (s.onPwr f).fw = s.fw := rfl
@[simp] theorem onPwr_pwr (s : State) (f : Power → Power) : (s.onPwr f).pwr = f s.pwr := rfl
@[simp] theorem onPwr_lau (s : State) (f : Power → Power) : (s.onPwr f).lau = s.lau := rfl
@[simp] theorem onPwr_dl (s : State) (f : Power → Power) : (s.onPwr f).dl = s.dl := rfl
@[simp] theorem onPwr_past (s : State) (f : Power → Power) : (s.onPwr f).past = s.past := rfl
@[simp] theorem onPwr_pending (s : State) (f : Power → Power) : (s.onPwr f).pending = s.pending := rfl
@[simp] theorem onPwr_free (s : State) (f : Power → Power) : (s.onPwr f).free = s.free := rfl

@[simp] theorem onLau_dev (s : State) (f : Laurel → Laurel) : (s.onLau f).dev = s.dev := rfl
@[simp] theorem onLau_prot (s : State) (f : Laurel → Laurel) : (s.onLau f).prot = s.prot := rfl
@[simp] theorem onLau_host (s : State) (f : Laurel → Laurel) : (s.onLau f).host = s.host := rfl
@[simp] theorem onLau_lane (s : State) (f : Laurel → Laurel) : (s.onLau f).lane = s.lane := rfl
@[simp] theorem onLau_hr (s : State) (f : Laurel → Laurel) : (s.onLau f).hr = s.hr := rfl
@[simp] theorem onLau_br (s : State) (f : Laurel → Laurel) : (s.onLau f).br = s.br := rfl
@[simp] theorem onLau_met (s : State) (f : Laurel → Laurel) : (s.onLau f).met = s.met := rfl
@[simp] theorem onLau_tar (s : State) (f : Laurel → Laurel) : (s.onLau f).tar = s.tar := rfl
@[simp] theorem onLau_led (s : State) (f : Laurel → Laurel) : (s.onLau f).led = s.led := rfl
@[simp] theorem onLau_lt (s : State) (f : Laurel → Laurel) : (s.onLau f).lt = s.lt := rfl
@[simp] theorem onLau_tim (s : State) (f : Laurel → Laurel) : (s.onLau f).tim = s.tim := rfl
@[simp] theorem onLau_vlt (s : State) (f : Laurel → Laurel) : (s.onLau f).vlt = s.vlt := rfl
@[simp] theorem onLau_cop (s : State) (f : Laurel → Laurel) : (s.onLau f).cop = s.cop := rfl
@[simp] theorem onLau_pair (s : State) (f : Laurel → Laurel) : (s.onLau f).pair = s.pair := rfl
@[simp] theorem onLau_yew (s : State) (f : Laurel → Laurel) : (s.onLau f).yew = s.yew := rfl
@[simp] theorem onLau_fw (s : State) (f : Laurel → Laurel) : (s.onLau f).fw = s.fw := rfl
@[simp] theorem onLau_pwr (s : State) (f : Laurel → Laurel) : (s.onLau f).pwr = s.pwr := rfl
@[simp] theorem onLau_lau (s : State) (f : Laurel → Laurel) : (s.onLau f).lau = f s.lau := rfl
@[simp] theorem onLau_dl (s : State) (f : Laurel → Laurel) : (s.onLau f).dl = s.dl := rfl
@[simp] theorem onLau_past (s : State) (f : Laurel → Laurel) : (s.onLau f).past = s.past := rfl
@[simp] theorem onLau_pending (s : State) (f : Laurel → Laurel) : (s.onLau f).pending = s.pending := rfl
@[simp] theorem onLau_free (s : State) (f : Laurel → Laurel) : (s.onLau f).free = s.free := rfl

@[simp] theorem onDl_dev (s : State) (f : Downlink → Downlink) : (s.onDl f).dev = s.dev := rfl
@[simp] theorem onDl_prot (s : State) (f : Downlink → Downlink) : (s.onDl f).prot = s.prot := rfl
@[simp] theorem onDl_host (s : State) (f : Downlink → Downlink) : (s.onDl f).host = s.host := rfl
@[simp] theorem onDl_lane (s : State) (f : Downlink → Downlink) : (s.onDl f).lane = s.lane := rfl
@[simp] theorem onDl_hr (s : State) (f : Downlink → Downlink) : (s.onDl f).hr = s.hr := rfl
@[simp] theorem onDl_br (s : State) (f : Downlink → Downlink) : (s.onDl f).br = s.br := rfl
@[simp] theorem onDl_met (s : State) (f : Downlink → Downlink) : (s.onDl f).met = s.met := rfl
@[simp] theorem onDl_tar (s : State) (f : Downlink → Downlink) : (s.onDl f).tar = s.tar := rfl
@[simp] theorem onDl_led (s : State) (f : Downlink → Downlink) : (s.onDl f).led = s.led := rfl
@[simp] theorem onDl_lt (s : State) (f : Downlink → Downlink) : (s.onDl f).lt = s.lt := rfl
@[simp] theorem onDl_tim (s : State) (f : Downlink → Downlink) : (s.onDl f).tim = s.tim := rfl
@[simp] theorem onDl_vlt (s : State) (f : Downlink → Downlink) : (s.onDl f).vlt = s.vlt := rfl
@[simp] theorem onDl_cop (s : State) (f : Downlink → Downlink) : (s.onDl f).cop = s.cop := rfl
@[simp] theorem onDl_pair (s : State) (f : Downlink → Downlink) : (s.onDl f).pair = s.pair := rfl
@[simp] theorem onDl_yew (s : State) (f : Downlink → Downlink) : (s.onDl f).yew = s.yew := rfl
@[simp] theorem onDl_fw (s : State) (f : Downlink → Downlink) : (s.onDl f).fw = s.fw := rfl
@[simp] theorem onDl_pwr (s : State) (f : Downlink → Downlink) : (s.onDl f).pwr = s.pwr := rfl
@[simp] theorem onDl_lau (s : State) (f : Downlink → Downlink) : (s.onDl f).lau = s.lau := rfl
@[simp] theorem onDl_dl (s : State) (f : Downlink → Downlink) : (s.onDl f).dl = f s.dl := rfl
@[simp] theorem onDl_past (s : State) (f : Downlink → Downlink) : (s.onDl f).past = s.past := rfl
@[simp] theorem onDl_pending (s : State) (f : Downlink → Downlink) : (s.onDl f).pending = s.pending := rfl
@[simp] theorem onDl_free (s : State) (f : Downlink → Downlink) : (s.onDl f).free = s.free := rfl

@[simp] theorem draw_dev (s : State) : s.draw.dev = s.dev := rfl
@[simp] theorem draw_prot (s : State) : s.draw.prot = s.prot := rfl
@[simp] theorem draw_host (s : State) : s.draw.host = s.host := rfl
@[simp] theorem draw_lane (s : State) : s.draw.lane = s.lane := rfl
@[simp] theorem draw_hr (s : State) : s.draw.hr = s.hr := rfl
@[simp] theorem draw_br (s : State) : s.draw.br = s.br := rfl
@[simp] theorem draw_met (s : State) : s.draw.met = s.met := rfl
@[simp] theorem draw_tar (s : State) : s.draw.tar = s.tar := rfl
@[simp] theorem draw_led (s : State) : s.draw.led = s.led := rfl
@[simp] theorem draw_lt (s : State) : s.draw.lt = s.lt := rfl
@[simp] theorem draw_tim (s : State) : s.draw.tim = s.tim := rfl
@[simp] theorem draw_vlt (s : State) : s.draw.vlt = s.vlt := rfl
@[simp] theorem draw_cop (s : State) : s.draw.cop = s.cop := rfl
@[simp] theorem draw_pair (s : State) : s.draw.pair = s.pair := rfl
@[simp] theorem draw_yew (s : State) : s.draw.yew = s.yew := rfl
@[simp] theorem draw_fw (s : State) : s.draw.fw = s.fw := rfl
@[simp] theorem draw_pwr (s : State) : s.draw.pwr = s.pwr := rfl
@[simp] theorem draw_lau (s : State) : s.draw.lau = s.lau := rfl
@[simp] theorem draw_dl (s : State) : s.draw.dl = s.dl := rfl
@[simp] theorem draw_past (s : State) : s.draw.past = s.past := rfl
@[simp] theorem draw_pending (s : State) : s.draw.pending = s.pending := rfl
@[simp] theorem draw_free (s : State) : s.draw.free = s.free + 1 := rfl

end Sys2Proof.Laws
end

