-- ==== Sys2Proof/Laws/Ops.lean ====
section
/-!
SUPPORT. What each shared operation leaves of the state: one lemma per group, and per field of a group it changes in part.
-/

namespace Sys2Proof.Laws
open Sys2Proof.Machine

/-! ### emit, signal, post -/

@[simp] theorem emit_pending (o : Out) (s : State) : (emit o s).pending = s.pending := rfl
@[simp] theorem emit_dev (o : Out) (s : State) : (emit o s).dev = s.dev := rfl
@[simp] theorem emit_prot (o : Out) (s : State) : (emit o s).prot = s.prot := rfl
@[simp] theorem emit_lane (o : Out) (s : State) : (emit o s).lane = s.lane := rfl
@[simp] theorem emit_hr (o : Out) (s : State) : (emit o s).hr = s.hr := rfl
@[simp] theorem emit_br (o : Out) (s : State) : (emit o s).br = s.br := rfl
@[simp] theorem emit_met (o : Out) (s : State) : (emit o s).met = s.met := rfl
@[simp] theorem emit_tar (o : Out) (s : State) : (emit o s).tar = s.tar := rfl
@[simp] theorem emit_led (o : Out) (s : State) : (emit o s).led = s.led := rfl
@[simp] theorem emit_lt (o : Out) (s : State) : (emit o s).lt = s.lt := rfl
@[simp] theorem emit_tim (o : Out) (s : State) : (emit o s).tim = s.tim := rfl
@[simp] theorem emit_vlt (o : Out) (s : State) : (emit o s).vlt = s.vlt := rfl
@[simp] theorem emit_cop (o : Out) (s : State) : (emit o s).cop = s.cop := rfl
@[simp] theorem emit_pair (o : Out) (s : State) : (emit o s).pair = s.pair := rfl
@[simp] theorem emit_yew (o : Out) (s : State) : (emit o s).yew = s.yew := rfl
@[simp] theorem emit_fw (o : Out) (s : State) : (emit o s).fw = s.fw := rfl
@[simp] theorem emit_pwr (o : Out) (s : State) : (emit o s).pwr = s.pwr := rfl
@[simp] theorem emit_lau (o : Out) (s : State) : (emit o s).lau = s.lau := rfl
@[simp] theorem emit_dl (o : Out) (s : State) : (emit o s).dl = s.dl := rfl
@[simp] theorem emit_past (o : Out) (s : State) : (emit o s).past = s.past := rfl
@[simp] theorem emit_free (o : Out) (s : State) : (emit o s).free = s.free := rfl
@[simp] theorem emit_host_rings (o : Out) (s : State) : (emit o s).host.rings = s.host.rings := rfl
@[simp] theorem emit_host_sessions (o : Out) (s : State) : (emit o s).host.sessions = s.host.sessions := rfl
@[simp] theorem emit_host_useCount (o : Out) (s : State) : (emit o s).host.useCount = s.host.useCount := rfl
@[simp] theorem emit_host_waiting (o : Out) (s : State) : (emit o s).host.waiting = s.host.waiting := rfl
@[simp] theorem emit_host_running (o : Out) (s : State) : (emit o s).host.running = s.host.running := rfl
@[simp] theorem emit_host_tokens (o : Out) (s : State) : (emit o s).host.tokens = s.host.tokens := rfl
@[simp] theorem emit_host_tokenCount (o : Out) (s : State) : (emit o s).host.tokenCount = s.host.tokenCount := rfl
@[simp] theorem emit_host_select (o : Out) (s : State) : (emit o s).host.select = s.host.select := rfl
@[simp] theorem emit_host_page (o : Out) (s : State) : (emit o s).host.page = s.host.page := rfl
@[simp] theorem emit_host_msixEnable (o : Out) (s : State) : (emit o s).host.msixEnable = s.host.msixEnable := rfl
@[simp] theorem emit_host_msixMask (o : Out) (s : State) : (emit o s).host.msixMask = s.host.msixMask := rfl
@[simp] theorem emit_host_msix (o : Out) (s : State) : (emit o s).host.msix = s.host.msix := rfl
@[simp] theorem emit_host_pba (o : Out) (s : State) : (emit o s).host.pba = s.host.pba := rfl
@[simp] theorem emit_host_notices (o : Out) (s : State) : (emit o s).host.notices = s.host.notices := rfl
@[simp] theorem emit_host_noticeSeq (o : Out) (s : State) : (emit o s).host.noticeSeq = s.host.noticeSeq := rfl
@[simp] theorem emit_host_latch (o : Out) (s : State) : (emit o s).host.latch = s.host.latch := rfl
@[simp] theorem emit_host_stalled (o : Out) (s : State) : (emit o s).host.stalled = s.host.stalled := rfl
@[simp] theorem emit_host_stallLimit (o : Out) (s : State) : (emit o s).host.stallLimit = s.host.stallLimit := rfl
@[simp] theorem emit_host_lost (o : Out) (s : State) : (emit o s).host.lost = s.host.lost := rfl
@[simp] theorem emit_host_noticeIrq (o : Out) (s : State) : (emit o s).host.noticeIrq = s.host.noticeIrq := rfl
@[simp] theorem emit_host_bar2 (o : Out) (s : State) : (emit o s).host.bar2 = s.host.bar2 := rfl
@[simp] theorem emit_host_badLines (o : Out) (s : State) : (emit o s).host.badLines = s.host.badLines := rfl
@[simp] theorem emit_host_quiet (o : Out) (s : State) : (emit o s).host.quiet = s.host.quiet := rfl
@[simp] theorem emit_host_out (o : Out) (s : State) : (emit o s).host.out = o :: s.host.out := rfl

/-- A signalled vector sends its message or sets its pending bit, and nothing else changes. -/
theorem signal_cases (v : Nat) (s : State) :
    (∃ o, signal v s = emit o s) ∨ signal v s = s.onHost fun h => { h with pba := h.pba ||| BitVec.ofNat 64 (2 ^ v) } := by
  by_cases h : (s.host.msixEnable && !s.host.msixMask && !(Tbl.getD s.host.msix v {}).masked) = true
  · exact .inl ⟨.msix v _ _, by simp only [signal, if_pos h]; rfl⟩
  · exact .inr (by simp only [signal, if_neg h])

/-- The fields a signalled vector may change. -/
theorem signal_shape (v : Nat) (s : State) : ∃ out pba, signal v s = { s with host := { s.host with out := out, pba := pba } } := by
  rcases signal_cases v s with ⟨o, h⟩ | h <;> rw [h] <;> exact ⟨_, _, rfl⟩

@[simp] theorem signal_pending (v : Nat) (s : State) : (signal v s).pending = s.pending := by rcases signal_cases v s with ⟨o, h⟩ | h <;> rw [h] <;> rfl
@[simp] theorem signal_dev (v : Nat) (s : State) : (signal v s).dev = s.dev := by rcases signal_cases v s with ⟨o, h⟩ | h <;> rw [h] <;> rfl
@[simp] theorem signal_prot (v : Nat) (s : State) : (signal v s).prot = s.prot := by rcases signal_cases v s with ⟨o, h⟩ | h <;> rw [h] <;> rfl
@[simp] theorem signal_lane (v : Nat) (s : State) : (signal v s).lane = s.lane := by rcases signal_cases v s with ⟨o, h⟩ | h <;> rw [h] <;> rfl
@[simp] theorem signal_hr (v : Nat) (s : State) : (signal v s).hr = s.hr := by rcases signal_cases v s with ⟨o, h⟩ | h <;> rw [h] <;> rfl
@[simp] theorem signal_br (v : Nat) (s : State) : (signal v s).br = s.br := by rcases signal_cases v s with ⟨o, h⟩ | h <;> rw [h] <;> rfl
@[simp] theorem signal_met (v : Nat) (s : State) : (signal v s).met = s.met := by rcases signal_cases v s with ⟨o, h⟩ | h <;> rw [h] <;> rfl
@[simp] theorem signal_tar (v : Nat) (s : State) : (signal v s).tar = s.tar := by rcases signal_cases v s with ⟨o, h⟩ | h <;> rw [h] <;> rfl
@[simp] theorem signal_led (v : Nat) (s : State) : (signal v s).led = s.led := by rcases signal_cases v s with ⟨o, h⟩ | h <;> rw [h] <;> rfl
@[simp] theorem signal_lt (v : Nat) (s : State) : (signal v s).lt = s.lt := by rcases signal_cases v s with ⟨o, h⟩ | h <;> rw [h] <;> rfl
@[simp] theorem signal_tim (v : Nat) (s : State) : (signal v s).tim = s.tim := by rcases signal_cases v s with ⟨o, h⟩ | h <;> rw [h] <;> rfl
@[simp] theorem signal_vlt (v : Nat) (s : State) : (signal v s).vlt = s.vlt := by rcases signal_cases v s with ⟨o, h⟩ | h <;> rw [h] <;> rfl
@[simp] theorem signal_cop (v : Nat) (s : State) : (signal v s).cop = s.cop := by rcases signal_cases v s with ⟨o, h⟩ | h <;> rw [h] <;> rfl
@[simp] theorem signal_pair (v : Nat) (s : State) : (signal v s).pair = s.pair := by rcases signal_cases v s with ⟨o, h⟩ | h <;> rw [h] <;> rfl
@[simp] theorem signal_yew (v : Nat) (s : State) : (signal v s).yew = s.yew := by rcases signal_cases v s with ⟨o, h⟩ | h <;> rw [h] <;> rfl
@[simp] theorem signal_fw (v : Nat) (s : State) : (signal v s).fw = s.fw := by rcases signal_cases v s with ⟨o, h⟩ | h <;> rw [h] <;> rfl
@[simp] theorem signal_pwr (v : Nat) (s : State) : (signal v s).pwr = s.pwr := by rcases signal_cases v s with ⟨o, h⟩ | h <;> rw [h] <;> rfl
@[simp] theorem signal_lau (v : Nat) (s : State) : (signal v s).lau = s.lau := by rcases signal_cases v s with ⟨o, h⟩ | h <;> rw [h] <;> rfl
@[simp] theorem signal_dl (v : Nat) (s : State) : (signal v s).dl = s.dl := by rcases signal_cases v s with ⟨o, h⟩ | h <;> rw [h] <;> rfl
@[simp] theorem signal_past (v : Nat) (s : State) : (signal v s).past = s.past := by rcases signal_cases v s with ⟨o, h⟩ | h <;> rw [h] <;> rfl
@[simp] theorem signal_free (v : Nat) (s : State) : (signal v s).free = s.free := by rcases signal_cases v s with ⟨o, h⟩ | h <;> rw [h] <;> rfl
@[simp] theorem signal_host_rings (v : Nat) (s : State) : (signal v s).host.rings = s.host.rings := by rcases signal_cases v s with ⟨o, h⟩ | h <;> rw [h] <;> rfl
@[simp] theorem signal_host_sessions (v : Nat) (s : State) : (signal v s).host.sessions = s.host.sessions := by rcases signal_cases v s with ⟨o, h⟩ | h <;> rw [h] <;> rfl
@[simp] theorem signal_host_useCount (v : Nat) (s : State) : (signal v s).host.useCount = s.host.useCount := by rcases signal_cases v s with ⟨o, h⟩ | h <;> rw [h] <;> rfl
@[simp] theorem signal_host_waiting (v : Nat) (s : State) : (signal v s).host.waiting = s.host.waiting := by rcases signal_cases v s with ⟨o, h⟩ | h <;> rw [h] <;> rfl
@[simp] theorem signal_host_running (v : Nat) (s : State) : (signal v s).host.running = s.host.running := by rcases signal_cases v s with ⟨o, h⟩ | h <;> rw [h] <;> rfl
@[simp] theorem signal_host_tokens (v : Nat) (s : State) : (signal v s).host.tokens = s.host.tokens := by rcases signal_cases v s with ⟨o, h⟩ | h <;> rw [h] <;> rfl
@[simp] theorem signal_host_tokenCount (v : Nat) (s : State) : (signal v s).host.tokenCount = s.host.tokenCount := by rcases signal_cases v s with ⟨o, h⟩ | h <;> rw [h] <;> rfl
@[simp] theorem signal_host_select (v : Nat) (s : State) : (signal v s).host.select = s.host.select := by rcases signal_cases v s with ⟨o, h⟩ | h <;> rw [h] <;> rfl
@[simp] theorem signal_host_page (v : Nat) (s : State) : (signal v s).host.page = s.host.page := by rcases signal_cases v s with ⟨o, h⟩ | h <;> rw [h] <;> rfl
@[simp] theorem signal_host_msixEnable (v : Nat) (s : State) : (signal v s).host.msixEnable = s.host.msixEnable := by rcases signal_cases v s with ⟨o, h⟩ | h <;> rw [h] <;> rfl
@[simp] theorem signal_host_msixMask (v : Nat) (s : State) : (signal v s).host.msixMask = s.host.msixMask := by rcases signal_cases v s with ⟨o, h⟩ | h <;> rw [h] <;> rfl
@[simp] theorem signal_host_msix (v : Nat) (s : State) : (signal v s).host.msix = s.host.msix := by rcases signal_cases v s with ⟨o, h⟩ | h <;> rw [h] <;> rfl
@[simp] theorem signal_host_notices (v : Nat) (s : State) : (signal v s).host.notices = s.host.notices := by rcases signal_cases v s with ⟨o, h⟩ | h <;> rw [h] <;> rfl
@[simp] theorem signal_host_noticeSeq (v : Nat) (s : State) : (signal v s).host.noticeSeq = s.host.noticeSeq := by rcases signal_cases v s with ⟨o, h⟩ | h <;> rw [h] <;> rfl
@[simp] theorem signal_host_latch (v : Nat) (s : State) : (signal v s).host.latch = s.host.latch := by rcases signal_cases v s with ⟨o, h⟩ | h <;> rw [h] <;> rfl
@[simp] theorem signal_host_stalled (v : Nat) (s : State) : (signal v s).host.stalled = s.host.stalled := by rcases signal_cases v s with ⟨o, h⟩ | h <;> rw [h] <;> rfl
@[simp] theorem signal_host_stallLimit (v : Nat) (s : State) : (signal v s).host.stallLimit = s.host.stallLimit := by rcases signal_cases v s with ⟨o, h⟩ | h <;> rw [h] <;> rfl
@[simp] theorem signal_host_lost (v : Nat) (s : State) : (signal v s).host.lost = s.host.lost := by rcases signal_cases v s with ⟨o, h⟩ | h <;> rw [h] <;> rfl
@[simp] theorem signal_host_noticeIrq (v : Nat) (s : State) : (signal v s).host.noticeIrq = s.host.noticeIrq := by rcases signal_cases v s with ⟨o, h⟩ | h <;> rw [h] <;> rfl
@[simp] theorem signal_host_bar2 (v : Nat) (s : State) : (signal v s).host.bar2 = s.host.bar2 := by rcases signal_cases v s with ⟨o, h⟩ | h <;> rw [h] <;> rfl
@[simp] theorem signal_host_badLines (v : Nat) (s : State) : (signal v s).host.badLines = s.host.badLines := by rcases signal_cases v s with ⟨o, h⟩ | h <;> rw [h] <;> rfl
@[simp] theorem signal_host_quiet (v : Nat) (s : State) : (signal v s).host.quiet = s.host.quiet := by rcases signal_cases v s with ⟨o, h⟩ | h <;> rw [h] <;> rfl

/-- A posted notice changes the Privet queue, its latch and counts, and what is sent. -/
theorem post_shape (code prio source : Nat) (data : Bytes) (s : State) : ∃ q n la st lo out pba,
    post code prio source data s =
      { s with host := { s.host with notices := q, noticeSeq := n, latch := la, stalled := st, lost := lo, out := out, pba := pba } } := by
  have step : ∀ (x : State) (n : Nat), ∃ out pba,
      (if n = 1 then signal (32 + prio) x else x) = { x with host := { x.host with out := out, pba := pba } } := by
    intro x n
    by_cases h : n = 1
    · rw [if_pos h]; exact signal_shape _ x
    · rw [if_neg h]; exact ⟨_, _, rfl⟩
  unfold post
  cases hs : s.host.stalled with
  | nil =>
    obtain ⟨o, p, e⟩ := step (s.onHost fun h =>
      { h with notices := (admitNotice h.notices { code, prio, seq := s.host.noticeSeq % 2 ^ 32, stamp := s.tim.tb2, source, data := slice data 0 8 }).1
               noticeSeq := h.noticeSeq + 1
               lost := match (admitNotice h.notices { code, prio, seq := s.host.noticeSeq % 2 ^ 32, stamp := s.tim.tb2, source, data := slice data 0 8 }).2 with
                 | some p => bump h.lost p | none => h.lost }) (bits s.host.noticeIrq prio 1)
    exact ⟨_, _, _, _, _, o, p, e⟩
  | cons w rest =>
    let n : Notice := { code, prio, seq := s.host.noticeSeq % 2 ^ 32, stamp := s.tim.tb2, source, data := slice data 0 8 }
    obtain ⟨o, p, e⟩ := step (emit (.read (popBytes w.2 (noticeBytes n))) (s.onHost fun h =>
      { h with noticeSeq := h.noticeSeq + 1, stalled := rest, latch := noticeBytes n })) (bits s.host.noticeIrq prio 1)
    exact ⟨_, _, _, _, _, o, p, e⟩

@[simp] theorem post_pending (code prio source : Nat) (data : Bytes) (s : State) : (post code prio source data s).pending = s.pending := by obtain ⟨_, _, _, _, _, _, _, e⟩ := post_shape code prio source data s; rw [e]
@[simp] theorem post_dev (code prio source : Nat) (data : Bytes) (s : State) : (post code prio source data s).dev = s.dev := by obtain ⟨_, _, _, _, _, _, _, e⟩ := post_shape code prio source data s; rw [e]
@[simp] theorem post_prot (code prio source : Nat) (data : Bytes) (s : State) : (post code prio source data s).prot = s.prot := by obtain ⟨_, _, _, _, _, _, _, e⟩ := post_shape code prio source data s; rw [e]
@[simp] theorem post_lane (code prio source : Nat) (data : Bytes) (s : State) : (post code prio source data s).lane = s.lane := by obtain ⟨_, _, _, _, _, _, _, e⟩ := post_shape code prio source data s; rw [e]
@[simp] theorem post_hr (code prio source : Nat) (data : Bytes) (s : State) : (post code prio source data s).hr = s.hr := by obtain ⟨_, _, _, _, _, _, _, e⟩ := post_shape code prio source data s; rw [e]
@[simp] theorem post_br (code prio source : Nat) (data : Bytes) (s : State) : (post code prio source data s).br = s.br := by obtain ⟨_, _, _, _, _, _, _, e⟩ := post_shape code prio source data s; rw [e]
@[simp] theorem post_met (code prio source : Nat) (data : Bytes) (s : State) : (post code prio source data s).met = s.met := by obtain ⟨_, _, _, _, _, _, _, e⟩ := post_shape code prio source data s; rw [e]
@[simp] theorem post_tar (code prio source : Nat) (data : Bytes) (s : State) : (post code prio source data s).tar = s.tar := by obtain ⟨_, _, _, _, _, _, _, e⟩ := post_shape code prio source data s; rw [e]
@[simp] theorem post_led (code prio source : Nat) (data : Bytes) (s : State) : (post code prio source data s).led = s.led := by obtain ⟨_, _, _, _, _, _, _, e⟩ := post_shape code prio source data s; rw [e]
@[simp] theorem post_lt (code prio source : Nat) (data : Bytes) (s : State) : (post code prio source data s).lt = s.lt := by obtain ⟨_, _, _, _, _, _, _, e⟩ := post_shape code prio source data s; rw [e]
@[simp] theorem post_tim (code prio source : Nat) (data : Bytes) (s : State) : (post code prio source data s).tim = s.tim := by obtain ⟨_, _, _, _, _, _, _, e⟩ := post_shape code prio source data s; rw [e]
@[simp] theorem post_vlt (code prio source : Nat) (data : Bytes) (s : State) : (post code prio source data s).vlt = s.vlt := by obtain ⟨_, _, _, _, _, _, _, e⟩ := post_shape code prio source data s; rw [e]
@[simp] theorem post_cop (code prio source : Nat) (data : Bytes) (s : State) : (post code prio source data s).cop = s.cop := by obtain ⟨_, _, _, _, _, _, _, e⟩ := post_shape code prio source data s; rw [e]
@[simp] theorem post_pair (code prio source : Nat) (data : Bytes) (s : State) : (post code prio source data s).pair = s.pair := by obtain ⟨_, _, _, _, _, _, _, e⟩ := post_shape code prio source data s; rw [e]
@[simp] theorem post_yew (code prio source : Nat) (data : Bytes) (s : State) : (post code prio source data s).yew = s.yew := by obtain ⟨_, _, _, _, _, _, _, e⟩ := post_shape code prio source data s; rw [e]
@[simp] theorem post_fw (code prio source : Nat) (data : Bytes) (s : State) : (post code prio source data s).fw = s.fw := by obtain ⟨_, _, _, _, _, _, _, e⟩ := post_shape code prio source data s; rw [e]
@[simp] theorem post_pwr (code prio source : Nat) (data : Bytes) (s : State) : (post code prio source data s).pwr = s.pwr := by obtain ⟨_, _, _, _, _, _, _, e⟩ := post_shape code prio source data s; rw [e]
@[simp] theorem post_lau (code prio source : Nat) (data : Bytes) (s : State) : (post code prio source data s).lau = s.lau := by obtain ⟨_, _, _, _, _, _, _, e⟩ := post_shape code prio source data s; rw [e]
@[simp] theorem post_dl (code prio source : Nat) (data : Bytes) (s : State) : (post code prio source data s).dl = s.dl := by obtain ⟨_, _, _, _, _, _, _, e⟩ := post_shape code prio source data s; rw [e]
@[simp] theorem post_past (code prio source : Nat) (data : Bytes) (s : State) : (post code prio source data s).past = s.past := by obtain ⟨_, _, _, _, _, _, _, e⟩ := post_shape code prio source data s; rw [e]
@[simp] theorem post_free (code prio source : Nat) (data : Bytes) (s : State) : (post code prio source data s).free = s.free := by obtain ⟨_, _, _, _, _, _, _, e⟩ := post_shape code prio source data s; rw [e]
@[simp] theorem post_host_rings (code prio source : Nat) (data : Bytes) (s : State) : (post code prio source data s).host.rings = s.host.rings := by obtain ⟨_, _, _, _, _, _, _, e⟩ := post_shape code prio source data s; rw [e]
@[simp] theorem post_host_sessions (code prio source : Nat) (data : Bytes) (s : State) : (post code prio source data s).host.sessions = s.host.sessions := by obtain ⟨_, _, _, _, _, _, _, e⟩ := post_shape code prio source data s; rw [e]
@[simp] theorem post_host_useCount (code prio source : Nat) (data : Bytes) (s : State) : (post code prio source data s).host.useCount = s.host.useCount := by obtain ⟨_, _, _, _, _, _, _, e⟩ := post_shape code prio source data s; rw [e]
@[simp] theorem post_host_waiting (code prio source : Nat) (data : Bytes) (s : State) : (post code prio source data s).host.waiting = s.host.waiting := by obtain ⟨_, _, _, _, _, _, _, e⟩ := post_shape code prio source data s; rw [e]
@[simp] theorem post_host_running (code prio source : Nat) (data : Bytes) (s : State) : (post code prio source data s).host.running = s.host.running := by obtain ⟨_, _, _, _, _, _, _, e⟩ := post_shape code prio source data s; rw [e]
@[simp] theorem post_host_tokens (code prio source : Nat) (data : Bytes) (s : State) : (post code prio source data s).host.tokens = s.host.tokens := by obtain ⟨_, _, _, _, _, _, _, e⟩ := post_shape code prio source data s; rw [e]
@[simp] theorem post_host_tokenCount (code prio source : Nat) (data : Bytes) (s : State) : (post code prio source data s).host.tokenCount = s.host.tokenCount := by obtain ⟨_, _, _, _, _, _, _, e⟩ := post_shape code prio source data s; rw [e]
@[simp] theorem post_host_select (code prio source : Nat) (data : Bytes) (s : State) : (post code prio source data s).host.select = s.host.select := by obtain ⟨_, _, _, _, _, _, _, e⟩ := post_shape code prio source data s; rw [e]
@[simp] theorem post_host_page (code prio source : Nat) (data : Bytes) (s : State) : (post code prio source data s).host.page = s.host.page := by obtain ⟨_, _, _, _, _, _, _, e⟩ := post_shape code prio source data s; rw [e]
@[simp] theorem post_host_msixEnable (code prio source : Nat) (data : Bytes) (s : State) : (post code prio source data s).host.msixEnable = s.host.msixEnable := by obtain ⟨_, _, _, _, _, _, _, e⟩ := post_shape code prio source data s; rw [e]
@[simp] theorem post_host_msixMask (code prio source : Nat) (data : Bytes) (s : State) : (post code prio source data s).host.msixMask = s.host.msixMask := by obtain ⟨_, _, _, _, _, _, _, e⟩ := post_shape code prio source data s; rw [e]
@[simp] theorem post_host_msix (code prio source : Nat) (data : Bytes) (s : State) : (post code prio source data s).host.msix = s.host.msix := by obtain ⟨_, _, _, _, _, _, _, e⟩ := post_shape code prio source data s; rw [e]
@[simp] theorem post_host_stallLimit (code prio source : Nat) (data : Bytes) (s : State) : (post code prio source data s).host.stallLimit = s.host.stallLimit := by obtain ⟨_, _, _, _, _, _, _, e⟩ := post_shape code prio source data s; rw [e]
@[simp] theorem post_host_noticeIrq (code prio source : Nat) (data : Bytes) (s : State) : (post code prio source data s).host.noticeIrq = s.host.noticeIrq := by obtain ⟨_, _, _, _, _, _, _, e⟩ := post_shape code prio source data s; rw [e]
@[simp] theorem post_host_bar2 (code prio source : Nat) (data : Bytes) (s : State) : (post code prio source data s).host.bar2 = s.host.bar2 := by obtain ⟨_, _, _, _, _, _, _, e⟩ := post_shape code prio source data s; rw [e]
@[simp] theorem post_host_badLines (code prio source : Nat) (data : Bytes) (s : State) : (post code prio source data s).host.badLines = s.host.badLines := by obtain ⟨_, _, _, _, _, _, _, e⟩ := post_shape code prio source data s; rw [e]
@[simp] theorem post_host_quiet (code prio source : Nat) (data : Bytes) (s : State) : (post code prio source data s).host.quiet = s.host.quiet := by obtain ⟨_, _, _, _, _, _, _, e⟩ := post_shape code prio source data s; rw [e]

/-! ### Commits, events, reports -/

@[simp] theorem dirtySector_pending (t : Nat) (s : State) : (dirtySector t s).pending = s.pending := rfl
@[simp] theorem dirtySector_dev (t : Nat) (s : State) : (dirtySector t s).dev = s.dev := rfl
@[simp] theorem dirtySector_prot (t : Nat) (s : State) : (dirtySector t s).prot = s.prot := rfl
@[simp] theorem dirtySector_host (t : Nat) (s : State) : (dirtySector t s).host = s.host := rfl
@[simp] theorem dirtySector_lane (t : Nat) (s : State) : (dirtySector t s).lane = s.lane := rfl
@[simp] theorem dirtySector_hr (t : Nat) (s : State) : (dirtySector t s).hr = s.hr := rfl
@[simp] theorem dirtySector_br (t : Nat) (s : State) : (dirtySector t s).br = s.br := rfl
@[simp] theorem dirtySector_met (t : Nat) (s : State) : (dirtySector t s).met = s.met := rfl
@[simp] theorem dirtySector_tar (t : Nat) (s : State) : (dirtySector t s).tar = s.tar := rfl
@[simp] theorem dirtySector_led (t : Nat) (s : State) : (dirtySector t s).led = s.led := rfl
@[simp] theorem dirtySector_lt (t : Nat) (s : State) : (dirtySector t s).lt = s.lt := rfl
@[simp] theorem dirtySector_tim (t : Nat) (s : State) : (dirtySector t s).tim = s.tim := rfl
@[simp] theorem dirtySector_vlt (t : Nat) (s : State) : (dirtySector t s).vlt = s.vlt := rfl
@[simp] theorem dirtySector_pair (t : Nat) (s : State) : (dirtySector t s).pair = s.pair := rfl
@[simp] theorem dirtySector_yew (t : Nat) (s : State) : (dirtySector t s).yew = s.yew := rfl
@[simp] theorem dirtySector_fw (t : Nat) (s : State) : (dirtySector t s).fw = s.fw := rfl
@[simp] theorem dirtySector_pwr (t : Nat) (s : State) : (dirtySector t s).pwr = s.pwr := rfl
@[simp] theorem dirtySector_lau (t : Nat) (s : State) : (dirtySector t s).lau = s.lau := rfl
@[simp] theorem dirtySector_dl (t : Nat) (s : State) : (dirtySector t s).dl = s.dl := rfl
@[simp] theorem dirtySector_past (t : Nat) (s : State) : (dirtySector t s).past = s.past := rfl
@[simp] theorem dirtySector_free (t : Nat) (s : State) : (dirtySector t s).free = s.free := rfl
@[simp] theorem commit_pending (s : State) : (commit s).pending = s.pending := rfl
@[simp] theorem commit_dev (s : State) : (commit s).dev = s.dev := rfl
@[simp] theorem commit_prot (s : State) : (commit s).prot = s.prot := rfl
@[simp] theorem commit_host (s : State) : (commit s).host = s.host := rfl
@[simp] theorem commit_lane (s : State) : (commit s).lane = s.lane := rfl
@[simp] theorem commit_hr (s : State) : (commit s).hr = s.hr := rfl
@[simp] theorem commit_br (s : State) : (commit s).br = s.br := rfl
@[simp] theorem commit_met (s : State) : (commit s).met = s.met := rfl
@[simp] theorem commit_tar (s : State) : (commit s).tar = s.tar := rfl
@[simp] theorem commit_led (s : State) : (commit s).led = s.led := rfl
@[simp] theorem commit_lt (s : State) : (commit s).lt = s.lt := rfl
@[simp] theorem commit_tim (s : State) : (commit s).tim = s.tim := rfl
@[simp] theorem commit_vlt (s : State) : (commit s).vlt = s.vlt := rfl
@[simp] theorem commit_pair (s : State) : (commit s).pair = s.pair := rfl
@[simp] theorem commit_yew (s : State) : (commit s).yew = s.yew := rfl
@[simp] theorem commit_fw (s : State) : (commit s).fw = s.fw := rfl
@[simp] theorem commit_pwr (s : State) : (commit s).pwr = s.pwr := rfl
@[simp] theorem commit_lau (s : State) : (commit s).lau = s.lau := rfl
@[simp] theorem commit_dl (s : State) : (commit s).dl = s.dl := rfl
@[simp] theorem commit_past (s : State) : (commit s).past = s.past := rfl
@[simp] theorem commit_free (s : State) : (commit s).free = s.free := rfl
@[simp] theorem yewAppend_pending (e : YewEvent) (b : Bool) (s : State) : (yewAppend e b s).pending = s.pending := by unfold yewAppend; simp only; split <;> split <;> simp
@[simp] theorem yewAppend_dev (e : YewEvent) (b : Bool) (s : State) : (yewAppend e b s).dev = s.dev := by unfold yewAppend; simp only; split <;> split <;> simp
@[simp] theorem yewAppend_prot (e : YewEvent) (b : Bool) (s : State) : (yewAppend e b s).prot = s.prot := by unfold yewAppend; simp only; split <;> split <;> simp
@[simp] theorem yewAppend_lane (e : YewEvent) (b : Bool) (s : State) : (yewAppend e b s).lane = s.lane := by unfold yewAppend; simp only; split <;> split <;> simp
@[simp] theorem yewAppend_hr (e : YewEvent) (b : Bool) (s : State) : (yewAppend e b s).hr = s.hr := by unfold yewAppend; simp only; split <;> split <;> simp
@[simp] theorem yewAppend_br (e : YewEvent) (b : Bool) (s : State) : (yewAppend e b s).br = s.br := by unfold yewAppend; simp only; split <;> split <;> simp
@[simp] theorem yewAppend_met (e : YewEvent) (b : Bool) (s : State) : (yewAppend e b s).met = s.met := by unfold yewAppend; simp only; split <;> split <;> simp
@[simp] theorem yewAppend_tar (e : YewEvent) (b : Bool) (s : State) : (yewAppend e b s).tar = s.tar := by unfold yewAppend; simp only; split <;> split <;> simp
@[simp] theorem yewAppend_led (e : YewEvent) (b : Bool) (s : State) : (yewAppend e b s).led = s.led := by unfold yewAppend; simp only; split <;> split <;> simp
@[simp] theorem yewAppend_lt (e : YewEvent) (b : Bool) (s : State) : (yewAppend e b s).lt = s.lt := by unfold yewAppend; simp only; split <;> split <;> simp
@[simp] theorem yewAppend_tim (e : YewEvent) (b : Bool) (s : State) : (yewAppend e b s).tim = s.tim := by unfold yewAppend; simp only; split <;> split <;> simp
@[simp] theorem yewAppend_vlt (e : YewEvent) (b : Bool) (s : State) : (yewAppend e b s).vlt = s.vlt := by unfold yewAppend; simp only; split <;> split <;> simp
@[simp] theorem yewAppend_pair (e : YewEvent) (b : Bool) (s : State) : (yewAppend e b s).pair = s.pair := by unfold yewAppend; simp only; split <;> split <;> simp
@[simp] theorem yewAppend_fw (e : YewEvent) (b : Bool) (s : State) : (yewAppend e b s).fw = s.fw := by unfold yewAppend; simp only; split <;> split <;> simp
@[simp] theorem yewAppend_pwr (e : YewEvent) (b : Bool) (s : State) : (yewAppend e b s).pwr = s.pwr := by unfold yewAppend; simp only; split <;> split <;> simp
@[simp] theorem yewAppend_lau (e : YewEvent) (b : Bool) (s : State) : (yewAppend e b s).lau = s.lau := by unfold yewAppend; simp only; split <;> split <;> simp
@[simp] theorem yewAppend_dl (e : YewEvent) (b : Bool) (s : State) : (yewAppend e b s).dl = s.dl := by unfold yewAppend; simp only; split <;> split <;> simp
@[simp] theorem yewAppend_past (e : YewEvent) (b : Bool) (s : State) : (yewAppend e b s).past = s.past := by unfold yewAppend; simp only; split <;> split <;> simp
@[simp] theorem yewAppend_free (e : YewEvent) (b : Bool) (s : State) : (yewAppend e b s).free = s.free := by unfold yewAppend; simp only; split <;> split <;> simp
@[simp] theorem yewAppend_host_rings (e : YewEvent) (b : Bool) (s : State) : (yewAppend e b s).host.rings = s.host.rings := by unfold yewAppend; simp only; split <;> split <;> simp
@[simp] theorem yewAppend_host_sessions (e : YewEvent) (b : Bool) (s : State) : (yewAppend e b s).host.sessions = s.host.sessions := by unfold yewAppend; simp only; split <;> split <;> simp
@[simp] theorem yewAppend_host_useCount (e : YewEvent) (b : Bool) (s : State) : (yewAppend e b s).host.useCount = s.host.useCount := by unfold yewAppend; simp only; split <;> split <;> simp
@[simp] theorem yewAppend_host_waiting (e : YewEvent) (b : Bool) (s : State) : (yewAppend e b s).host.waiting = s.host.waiting := by unfold yewAppend; simp only; split <;> split <;> simp
@[simp] theorem yewAppend_host_running (e : YewEvent) (b : Bool) (s : State) : (yewAppend e b s).host.running = s.host.running := by unfold yewAppend; simp only; split <;> split <;> simp
@[simp] theorem yewAppend_host_tokens (e : YewEvent) (b : Bool) (s : State) : (yewAppend e b s).host.tokens = s.host.tokens := by unfold yewAppend; simp only; split <;> split <;> simp
@[simp] theorem yewAppend_host_tokenCount (e : YewEvent) (b : Bool) (s : State) : (yewAppend e b s).host.tokenCount = s.host.tokenCount := by unfold yewAppend; simp only; split <;> split <;> simp
@[simp] theorem yewAppend_host_select (e : YewEvent) (b : Bool) (s : State) : (yewAppend e b s).host.select = s.host.select := by unfold yewAppend; simp only; split <;> split <;> simp
@[simp] theorem yewAppend_host_page (e : YewEvent) (b : Bool) (s : State) : (yewAppend e b s).host.page = s.host.page := by unfold yewAppend; simp only; split <;> split <;> simp
@[simp] theorem yewAppend_host_msixEnable (e : YewEvent) (b : Bool) (s : State) : (yewAppend e b s).host.msixEnable = s.host.msixEnable := by unfold yewAppend; simp only; split <;> split <;> simp
@[simp] theorem yewAppend_host_msixMask (e : YewEvent) (b : Bool) (s : State) : (yewAppend e b s).host.msixMask = s.host.msixMask := by unfold yewAppend; simp only; split <;> split <;> simp
@[simp] theorem yewAppend_host_msix (e : YewEvent) (b : Bool) (s : State) : (yewAppend e b s).host.msix = s.host.msix := by unfold yewAppend; simp only; split <;> split <;> simp
@[simp] theorem yewAppend_host_notices (e : YewEvent) (b : Bool) (s : State) : (yewAppend e b s).host.notices = s.host.notices := by unfold yewAppend; simp only; split <;> split <;> simp
@[simp] theorem yewAppend_host_noticeSeq (e : YewEvent) (b : Bool) (s : State) : (yewAppend e b s).host.noticeSeq = s.host.noticeSeq := by unfold yewAppend; simp only; split <;> split <;> simp
@[simp] theorem yewAppend_host_latch (e : YewEvent) (b : Bool) (s : State) : (yewAppend e b s).host.latch = s.host.latch := by unfold yewAppend; simp only; split <;> split <;> simp
@[simp] theorem yewAppend_host_stalled (e : YewEvent) (b : Bool) (s : State) : (yewAppend e b s).host.stalled = s.host.stalled := by unfold yewAppend; simp only; split <;> split <;> simp
@[simp] theorem yewAppend_host_stallLimit (e : YewEvent) (b : Bool) (s : State) : (yewAppend e b s).host.stallLimit = s.host.stallLimit := by unfold yewAppend; simp only; split <;> split <;> simp
@[simp] theorem yewAppend_host_lost (e : YewEvent) (b : Bool) (s : State) : (yewAppend e b s).host.lost = s.host.lost := by unfold yewAppend; simp only; split <;> split <;> simp
@[simp] theorem yewAppend_host_noticeIrq (e : YewEvent) (b : Bool) (s : State) : (yewAppend e b s).host.noticeIrq = s.host.noticeIrq := by unfold yewAppend; simp only; split <;> split <;> simp
@[simp] theorem yewAppend_host_bar2 (e : YewEvent) (b : Bool) (s : State) : (yewAppend e b s).host.bar2 = s.host.bar2 := by unfold yewAppend; simp only; split <;> split <;> simp
@[simp] theorem yewAppend_host_badLines (e : YewEvent) (b : Bool) (s : State) : (yewAppend e b s).host.badLines = s.host.badLines := by unfold yewAppend; simp only; split <;> split <;> simp
@[simp] theorem yewAppend_host_quiet (e : YewEvent) (b : Bool) (s : State) : (yewAppend e b s).host.quiet = s.host.quiet := by unfold yewAppend; simp only; split <;> split <;> simp

/-- What an appended record may change: the recorder, the write buffer, and the host by a vector. -/
theorem yewAppend_shape (e : YewEvent) (b : Bool) (s : State) : ∃ y c out pba,
    yewAppend e b s = { s with yew := y, cop := c, host := { s.host with out := out, pba := pba } } := by
  have base : ∃ c, (if s.yew.newest % 64 = 0 then dirtySector 0x08 s else s) = { s with cop := c } := by
    split
    · exact ⟨_, rfl⟩
    · exact ⟨_, rfl⟩
  obtain ⟨c, hc⟩ := base
  unfold yewAppend
  simp only [hc]
  split
  · obtain ⟨o, p, h⟩ := signal_shape 38 _
    rw [h]; exact ⟨_, _, _, _, rfl⟩
  · exact ⟨_, _, _, _, rfl⟩

/-- What an event may change besides: the queue of notices, where a full recorder erases its oldest block for it. -/
theorem yewErase_shape (n : Nat) (s : State) : ∃ y c q k la st lo out pba,
    yewErase n s = { s with yew := y, cop := c, host := { s.host with notices := q, noticeSeq := k, latch := la, stalled := st, lost := lo, out := out, pba := pba } } := by
  unfold yewErase
  dsimp only
  split
  · split
    · exact ⟨_, _, _, _, _, _, _, _, _, rfl⟩
    · obtain ⟨_, _, _, _, _, _, _, e⟩ := post_shape 0x0D10 1 0 _ _
      rw [e]
      obtain ⟨_, _, _, _, h⟩ := yewAppend_shape _ false _
      rw [h]; exact ⟨_, _, _, _, _, _, _, _, _, rfl⟩
  · exact ⟨_, _, _, _, _, _, _, _, _, rfl⟩

theorem yewPut_shape (e : YewEvent) (b : Bool) (s : State) : ∃ y c q k la st lo out pba,
    yewPut e b s = { s with yew := y, cop := c, host := { s.host with notices := q, noticeSeq := k, latch := la, stalled := st, lost := lo, out := out, pba := pba } } := by
  unfold yewPut
  obtain ⟨_, _, _, _, h⟩ := yewAppend_shape e b (if s.yew.records.length < yewPlaces + yewBlock s then s else yewErase (yewBlock s) s)
  rw [h]
  split
  · exact ⟨_, _, _, _, _, _, _, _, _, rfl⟩
  · obtain ⟨_, _, _, _, _, _, _, _, _, g⟩ := yewErase_shape (yewBlock s) s
    rw [g]; exact ⟨_, _, _, _, _, _, _, _, _, rfl⟩

theorem yew_shape (code kind source : Nat) (data : Bytes) (s : State) : ∃ y c q k la st lo out pba,
    yew code kind source data s = { s with yew := y, cop := c, host := { s.host with notices := q, noticeSeq := k, latch := la, stalled := st, lost := lo, out := out, pba := pba } } := by
  unfold yew
  dsimp only
  split
  · split <;> exact ⟨_, _, _, _, _, _, _, _, _, rfl⟩
  · exact yewPut_shape _ false s

@[simp] theorem yew_pending (code kind source : Nat) (data : Bytes) (s : State) : (yew code kind source data s).pending = s.pending := by obtain ⟨_, _, _, _, _, _, _, _, _, e⟩ := yew_shape code kind source data s; rw [e]
@[simp] theorem yew_dev (code kind source : Nat) (data : Bytes) (s : State) : (yew code kind source data s).dev = s.dev := by obtain ⟨_, _, _, _, _, _, _, _, _, e⟩ := yew_shape code kind source data s; rw [e]
@[simp] theorem yew_prot (code kind source : Nat) (data : Bytes) (s : State) : (yew code kind source data s).prot = s.prot := by obtain ⟨_, _, _, _, _, _, _, _, _, e⟩ := yew_shape code kind source data s; rw [e]
@[simp] theorem yew_lane (code kind source : Nat) (data : Bytes) (s : State) : (yew code kind source data s).lane = s.lane := by obtain ⟨_, _, _, _, _, _, _, _, _, e⟩ := yew_shape code kind source data s; rw [e]
@[simp] theorem yew_hr (code kind source : Nat) (data : Bytes) (s : State) : (yew code kind source data s).hr = s.hr := by obtain ⟨_, _, _, _, _, _, _, _, _, e⟩ := yew_shape code kind source data s; rw [e]
@[simp] theorem yew_br (code kind source : Nat) (data : Bytes) (s : State) : (yew code kind source data s).br = s.br := by obtain ⟨_, _, _, _, _, _, _, _, _, e⟩ := yew_shape code kind source data s; rw [e]
@[simp] theorem yew_met (code kind source : Nat) (data : Bytes) (s : State) : (yew code kind source data s).met = s.met := by obtain ⟨_, _, _, _, _, _, _, _, _, e⟩ := yew_shape code kind source data s; rw [e]
@[simp] theorem yew_tar (code kind source : Nat) (data : Bytes) (s : State) : (yew code kind source data s).tar = s.tar := by obtain ⟨_, _, _, _, _, _, _, _, _, e⟩ := yew_shape code kind source data s; rw [e]
@[simp] theorem yew_led (code kind source : Nat) (data : Bytes) (s : State) : (yew code kind source data s).led = s.led := by obtain ⟨_, _, _, _, _, _, _, _, _, e⟩ := yew_shape code kind source data s; rw [e]
@[simp] theorem yew_lt (code kind source : Nat) (data : Bytes) (s : State) : (yew code kind source data s).lt = s.lt := by obtain ⟨_, _, _, _, _, _, _, _, _, e⟩ := yew_shape code kind source data s; rw [e]
@[simp] theorem yew_tim (code kind source : Nat) (data : Bytes) (s : State) : (yew code kind source data s).tim = s.tim := by obtain ⟨_, _, _, _, _, _, _, _, _, e⟩ := yew_shape code kind source data s; rw [e]
@[simp] theorem yew_vlt (code kind source : Nat) (data : Bytes) (s : State) : (yew code kind source data s).vlt = s.vlt := by obtain ⟨_, _, _, _, _, _, _, _, _, e⟩ := yew_shape code kind source data s; rw [e]
@[simp] theorem yew_pair (code kind source : Nat) (data : Bytes) (s : State) : (yew code kind source data s).pair = s.pair := by obtain ⟨_, _, _, _, _, _, _, _, _, e⟩ := yew_shape code kind source data s; rw [e]
@[simp] theorem yew_fw (code kind source : Nat) (data : Bytes) (s : State) : (yew code kind source data s).fw = s.fw := by obtain ⟨_, _, _, _, _, _, _, _, _, e⟩ := yew_shape code kind source data s; rw [e]
@[simp] theorem yew_pwr (code kind source : Nat) (data : Bytes) (s : State) : (yew code kind source data s).pwr = s.pwr := by obtain ⟨_, _, _, _, _, _, _, _, _, e⟩ := yew_shape code kind source data s; rw [e]
@[simp] theorem yew_lau (code kind source : Nat) (data : Bytes) (s : State) : (yew code kind source data s).lau = s.lau := by obtain ⟨_, _, _, _, _, _, _, _, _, e⟩ := yew_shape code kind source data s; rw [e]
@[simp] theorem yew_dl (code kind source : Nat) (data : Bytes) (s : State) : (yew code kind source data s).dl = s.dl := by obtain ⟨_, _, _, _, _, _, _, _, _, e⟩ := yew_shape code kind source data s; rw [e]
@[simp] theorem yew_past (code kind source : Nat) (data : Bytes) (s : State) : (yew code kind source data s).past = s.past := by obtain ⟨_, _, _, _, _, _, _, _, _, e⟩ := yew_shape code kind source data s; rw [e]
@[simp] theorem yew_free (code kind source : Nat) (data : Bytes) (s : State) : (yew code kind source data s).free = s.free := by obtain ⟨_, _, _, _, _, _, _, _, _, e⟩ := yew_shape code kind source data s; rw [e]
@[simp] theorem yew_host_rings (code kind source : Nat) (data : Bytes) (s : State) : (yew code kind source data s).host.rings = s.host.rings := by obtain ⟨_, _, _, _, _, _, _, _, _, e⟩ := yew_shape code kind source data s; rw [e]
@[simp] theorem yew_host_sessions (code kind source : Nat) (data : Bytes) (s : State) : (yew code kind source data s).host.sessions = s.host.sessions := by obtain ⟨_, _, _, _, _, _, _, _, _, e⟩ := yew_shape code kind source data s; rw [e]
@[simp] theorem yew_host_useCount (code kind source : Nat) (data : Bytes) (s : State) : (yew code kind source data s).host.useCount = s.host.useCount := by obtain ⟨_, _, _, _, _, _, _, _, _, e⟩ := yew_shape code kind source data s; rw [e]
@[simp] theorem yew_host_waiting (code kind source : Nat) (data : Bytes) (s : State) : (yew code kind source data s).host.waiting = s.host.waiting := by obtain ⟨_, _, _, _, _, _, _, _, _, e⟩ := yew_shape code kind source data s; rw [e]
@[simp] theorem yew_host_running (code kind source : Nat) (data : Bytes) (s : State) : (yew code kind source data s).host.running = s.host.running := by obtain ⟨_, _, _, _, _, _, _, _, _, e⟩ := yew_shape code kind source data s; rw [e]
@[simp] theorem yew_host_tokens (code kind source : Nat) (data : Bytes) (s : State) : (yew code kind source data s).host.tokens = s.host.tokens := by obtain ⟨_, _, _, _, _, _, _, _, _, e⟩ := yew_shape code kind source data s; rw [e]
@[simp] theorem yew_host_tokenCount (code kind source : Nat) (data : Bytes) (s : State) : (yew code kind source data s).host.tokenCount = s.host.tokenCount := by obtain ⟨_, _, _, _, _, _, _, _, _, e⟩ := yew_shape code kind source data s; rw [e]
@[simp] theorem yew_host_select (code kind source : Nat) (data : Bytes) (s : State) : (yew code kind source data s).host.select = s.host.select := by obtain ⟨_, _, _, _, _, _, _, _, _, e⟩ := yew_shape code kind source data s; rw [e]
@[simp] theorem yew_host_page (code kind source : Nat) (data : Bytes) (s : State) : (yew code kind source data s).host.page = s.host.page := by obtain ⟨_, _, _, _, _, _, _, _, _, e⟩ := yew_shape code kind source data s; rw [e]
@[simp] theorem yew_host_msixEnable (code kind source : Nat) (data : Bytes) (s : State) : (yew code kind source data s).host.msixEnable = s.host.msixEnable := by obtain ⟨_, _, _, _, _, _, _, _, _, e⟩ := yew_shape code kind source data s; rw [e]
@[simp] theorem yew_host_msixMask (code kind source : Nat) (data : Bytes) (s : State) : (yew code kind source data s).host.msixMask = s.host.msixMask := by obtain ⟨_, _, _, _, _, _, _, _, _, e⟩ := yew_shape code kind source data s; rw [e]
@[simp] theorem yew_host_msix (code kind source : Nat) (data : Bytes) (s : State) : (yew code kind source data s).host.msix = s.host.msix := by obtain ⟨_, _, _, _, _, _, _, _, _, e⟩ := yew_shape code kind source data s; rw [e]
@[simp] theorem yew_host_stallLimit (code kind source : Nat) (data : Bytes) (s : State) : (yew code kind source data s).host.stallLimit = s.host.stallLimit := by obtain ⟨_, _, _, _, _, _, _, _, _, e⟩ := yew_shape code kind source data s; rw [e]
@[simp] theorem yew_host_noticeIrq (code kind source : Nat) (data : Bytes) (s : State) : (yew code kind source data s).host.noticeIrq = s.host.noticeIrq := by obtain ⟨_, _, _, _, _, _, _, _, _, e⟩ := yew_shape code kind source data s; rw [e]
@[simp] theorem yew_host_bar2 (code kind source : Nat) (data : Bytes) (s : State) : (yew code kind source data s).host.bar2 = s.host.bar2 := by obtain ⟨_, _, _, _, _, _, _, _, _, e⟩ := yew_shape code kind source data s; rw [e]
@[simp] theorem yew_host_badLines (code kind source : Nat) (data : Bytes) (s : State) : (yew code kind source data s).host.badLines = s.host.badLines := by obtain ⟨_, _, _, _, _, _, _, _, _, e⟩ := yew_shape code kind source data s; rw [e]
@[simp] theorem yew_host_quiet (code kind source : Nat) (data : Bytes) (s : State) : (yew code kind source data s).host.quiet = s.host.quiet := by obtain ⟨_, _, _, _, _, _, _, _, _, e⟩ := yew_shape code kind source data s; rw [e]
@[simp] theorem report_pending (yc k so : Nat) (data : Bytes) (nc p ns : Nat) (nd : Bytes) (s : State) : (report yc k so data nc p ns nd s).pending = s.pending := by simp [report]
@[simp] theorem report_dev (yc k so : Nat) (data : Bytes) (nc p ns : Nat) (nd : Bytes) (s : State) : (report yc k so data nc p ns nd s).dev = s.dev := by simp [report]
@[simp] theorem report_prot (yc k so : Nat) (data : Bytes) (nc p ns : Nat) (nd : Bytes) (s : State) : (report yc k so data nc p ns nd s).prot = s.prot := by simp [report]
@[simp] theorem report_lane (yc k so : Nat) (data : Bytes) (nc p ns : Nat) (nd : Bytes) (s : State) : (report yc k so data nc p ns nd s).lane = s.lane := by simp [report]
@[simp] theorem report_hr (yc k so : Nat) (data : Bytes) (nc p ns : Nat) (nd : Bytes) (s : State) : (report yc k so data nc p ns nd s).hr = s.hr := by simp [report]
@[simp] theorem report_br (yc k so : Nat) (data : Bytes) (nc p ns : Nat) (nd : Bytes) (s : State) : (report yc k so data nc p ns nd s).br = s.br := by simp [report]
@[simp] theorem report_met (yc k so : Nat) (data : Bytes) (nc p ns : Nat) (nd : Bytes) (s : State) : (report yc k so data nc p ns nd s).met = s.met := by simp [report]
@[simp] theorem report_tar (yc k so : Nat) (data : Bytes) (nc p ns : Nat) (nd : Bytes) (s : State) : (report yc k so data nc p ns nd s).tar = s.tar := by simp [report]
@[simp] theorem report_led (yc k so : Nat) (data : Bytes) (nc p ns : Nat) (nd : Bytes) (s : State) : (report yc k so data nc p ns nd s).led = s.led := by simp [report]
@[simp] theorem report_lt (yc k so : Nat) (data : Bytes) (nc p ns : Nat) (nd : Bytes) (s : State) : (report yc k so data nc p ns nd s).lt = s.lt := by simp [report]
@[simp] theorem report_tim (yc k so : Nat) (data : Bytes) (nc p ns : Nat) (nd : Bytes) (s : State) : (report yc k so data nc p ns nd s).tim = s.tim := by simp [report]
@[simp] theorem report_vlt (yc k so : Nat) (data : Bytes) (nc p ns : Nat) (nd : Bytes) (s : State) : (report yc k so data nc p ns nd s).vlt = s.vlt := by simp [report]
@[simp] theorem report_pair (yc k so : Nat) (data : Bytes) (nc p ns : Nat) (nd : Bytes) (s : State) : (report yc k so data nc p ns nd s).pair = s.pair := by simp [report]
@[simp] theorem report_fw (yc k so : Nat) (data : Bytes) (nc p ns : Nat) (nd : Bytes) (s : State) : (report yc k so data nc p ns nd s).fw = s.fw := by simp [report]
@[simp] theorem report_pwr (yc k so : Nat) (data : Bytes) (nc p ns : Nat) (nd : Bytes) (s : State) : (report yc k so data nc p ns nd s).pwr = s.pwr := by simp [report]
@[simp] theorem report_lau (yc k so : Nat) (data : Bytes) (nc p ns : Nat) (nd : Bytes) (s : State) : (report yc k so data nc p ns nd s).lau = s.lau := by simp [report]
@[simp] theorem report_dl (yc k so : Nat) (data : Bytes) (nc p ns : Nat) (nd : Bytes) (s : State) : (report yc k so data nc p ns nd s).dl = s.dl := by simp [report]
@[simp] theorem report_past (yc k so : Nat) (data : Bytes) (nc p ns : Nat) (nd : Bytes) (s : State) : (report yc k so data nc p ns nd s).past = s.past := by simp [report]
@[simp] theorem report_free (yc k so : Nat) (data : Bytes) (nc p ns : Nat) (nd : Bytes) (s : State) : (report yc k so data nc p ns nd s).free = s.free := by simp [report]
@[simp] theorem report_host_rings (yc k so : Nat) (data : Bytes) (nc p ns : Nat) (nd : Bytes) (s : State) : (report yc k so data nc p ns nd s).host.rings = s.host.rings := by simp [report]
@[simp] theorem report_host_sessions (yc k so : Nat) (data : Bytes) (nc p ns : Nat) (nd : Bytes) (s : State) : (report yc k so data nc p ns nd s).host.sessions = s.host.sessions := by simp [report]
@[simp] theorem report_host_useCount (yc k so : Nat) (data : Bytes) (nc p ns : Nat) (nd : Bytes) (s : State) : (report yc k so data nc p ns nd s).host.useCount = s.host.useCount := by simp [report]
@[simp] theorem report_host_waiting (yc k so : Nat) (data : Bytes) (nc p ns : Nat) (nd : Bytes) (s : State) : (report yc k so data nc p ns nd s).host.waiting = s.host.waiting := by simp [report]
@[simp] theorem report_host_running (yc k so : Nat) (data : Bytes) (nc p ns : Nat) (nd : Bytes) (s : State) : (report yc k so data nc p ns nd s).host.running = s.host.running := by simp [report]
@[simp] theorem report_host_tokens (yc k so : Nat) (data : Bytes) (nc p ns : Nat) (nd : Bytes) (s : State) : (report yc k so data nc p ns nd s).host.tokens = s.host.tokens := by simp [report]
@[simp] theorem report_host_tokenCount (yc k so : Nat) (data : Bytes) (nc p ns : Nat) (nd : Bytes) (s : State) : (report yc k so data nc p ns nd s).host.tokenCount = s.host.tokenCount := by simp [report]
@[simp] theorem report_host_select (yc k so : Nat) (data : Bytes) (nc p ns : Nat) (nd : Bytes) (s : State) : (report yc k so data nc p ns nd s).host.select = s.host.select := by simp [report]
@[simp] theorem report_host_page (yc k so : Nat) (data : Bytes) (nc p ns : Nat) (nd : Bytes) (s : State) : (report yc k so data nc p ns nd s).host.page = s.host.page := by simp [report]
@[simp] theorem report_host_msixEnable (yc k so : Nat) (data : Bytes) (nc p ns : Nat) (nd : Bytes) (s : State) : (report yc k so data nc p ns nd s).host.msixEnable = s.host.msixEnable := by simp [report]
@[simp] theorem report_host_msixMask (yc k so : Nat) (data : Bytes) (nc p ns : Nat) (nd : Bytes) (s : State) : (report yc k so data nc p ns nd s).host.msixMask = s.host.msixMask := by simp [report]
@[simp] theorem report_host_msix (yc k so : Nat) (data : Bytes) (nc p ns : Nat) (nd : Bytes) (s : State) : (report yc k so data nc p ns nd s).host.msix = s.host.msix := by simp [report]
@[simp] theorem report_host_stallLimit (yc k so : Nat) (data : Bytes) (nc p ns : Nat) (nd : Bytes) (s : State) : (report yc k so data nc p ns nd s).host.stallLimit = s.host.stallLimit := by simp [report]
@[simp] theorem report_host_noticeIrq (yc k so : Nat) (data : Bytes) (nc p ns : Nat) (nd : Bytes) (s : State) : (report yc k so data nc p ns nd s).host.noticeIrq = s.host.noticeIrq := by simp [report]
@[simp] theorem report_host_bar2 (yc k so : Nat) (data : Bytes) (nc p ns : Nat) (nd : Bytes) (s : State) : (report yc k so data nc p ns nd s).host.bar2 = s.host.bar2 := by simp [report]
@[simp] theorem report_host_badLines (yc k so : Nat) (data : Bytes) (nc p ns : Nat) (nd : Bytes) (s : State) : (report yc k so data nc p ns nd s).host.badLines = s.host.badLines := by simp [report]
@[simp] theorem report_host_quiet (yc k so : Nat) (data : Bytes) (nc p ns : Nat) (nd : Bytes) (s : State) : (report yc k so data nc p ns nd s).host.quiet = s.host.quiet := by simp [report]

/-! ### Taking, refusing -/

@[simp] theorem take_pending (st : Nat) (f : Bytes) (o lc p : Nat) (r : Int) (tr : Bool) (s : State) : (take st f o lc p r tr s).pending = s.pending := rfl
@[simp] theorem take_host (st : Nat) (f : Bytes) (o lc p : Nat) (r : Int) (tr : Bool) (s : State) : (take st f o lc p r tr s).host = s.host := rfl
@[simp] theorem take_lane (st : Nat) (f : Bytes) (o lc p : Nat) (r : Int) (tr : Bool) (s : State) : (take st f o lc p r tr s).lane = s.lane := rfl
@[simp] theorem take_hr (st : Nat) (f : Bytes) (o lc p : Nat) (r : Int) (tr : Bool) (s : State) : (take st f o lc p r tr s).hr = s.hr := rfl
@[simp] theorem take_br (st : Nat) (f : Bytes) (o lc p : Nat) (r : Int) (tr : Bool) (s : State) : (take st f o lc p r tr s).br = s.br := rfl
@[simp] theorem take_met (st : Nat) (f : Bytes) (o lc p : Nat) (r : Int) (tr : Bool) (s : State) : (take st f o lc p r tr s).met = s.met := rfl
@[simp] theorem take_tar (st : Nat) (f : Bytes) (o lc p : Nat) (r : Int) (tr : Bool) (s : State) : (take st f o lc p r tr s).tar = s.tar := rfl
@[simp] theorem take_led (st : Nat) (f : Bytes) (o lc p : Nat) (r : Int) (tr : Bool) (s : State) : (take st f o lc p r tr s).led = s.led := rfl
@[simp] theorem take_lt (st : Nat) (f : Bytes) (o lc p : Nat) (r : Int) (tr : Bool) (s : State) : (take st f o lc p r tr s).lt = s.lt := rfl
@[simp] theorem take_tim (st : Nat) (f : Bytes) (o lc p : Nat) (r : Int) (tr : Bool) (s : State) : (take st f o lc p r tr s).tim = s.tim := rfl
@[simp] theorem take_vlt (st : Nat) (f : Bytes) (o lc p : Nat) (r : Int) (tr : Bool) (s : State) : (take st f o lc p r tr s).vlt = s.vlt := rfl
@[simp] theorem take_cop (st : Nat) (f : Bytes) (o lc p : Nat) (r : Int) (tr : Bool) (s : State) : (take st f o lc p r tr s).cop = s.cop := rfl
@[simp] theorem take_pair (st : Nat) (f : Bytes) (o lc p : Nat) (r : Int) (tr : Bool) (s : State) : (take st f o lc p r tr s).pair = s.pair := rfl
@[simp] theorem take_yew (st : Nat) (f : Bytes) (o lc p : Nat) (r : Int) (tr : Bool) (s : State) : (take st f o lc p r tr s).yew = s.yew := rfl
@[simp] theorem take_fw (st : Nat) (f : Bytes) (o lc p : Nat) (r : Int) (tr : Bool) (s : State) : (take st f o lc p r tr s).fw = s.fw := rfl
@[simp] theorem take_pwr (st : Nat) (f : Bytes) (o lc p : Nat) (r : Int) (tr : Bool) (s : State) : (take st f o lc p r tr s).pwr = s.pwr := rfl
@[simp] theorem take_lau (st : Nat) (f : Bytes) (o lc p : Nat) (r : Int) (tr : Bool) (s : State) : (take st f o lc p r tr s).lau = s.lau := rfl
@[simp] theorem take_dl (st : Nat) (f : Bytes) (o lc p : Nat) (r : Int) (tr : Bool) (s : State) : (take st f o lc p r tr s).dl = s.dl := rfl
@[simp] theorem take_past (st : Nat) (f : Bytes) (o lc p : Nat) (r : Int) (tr : Bool) (s : State) : (take st f o lc p r tr s).past = s.past := rfl
@[simp] theorem take_free (st : Nat) (f : Bytes) (o lc p : Nat) (r : Int) (tr : Bool) (s : State) : (take st f o lc p r tr s).free = s.free := rfl

/-! ### What follows every effect -/

/-- Latches fall, and nothing else changes. -/
theorem relax_shape (s : State) : ∃ (rs rb lo : Bool),
    relax s = { s with dev := { s.dev with refusedShared := rs, refusedBacklog := rb }, prot := { s.prot with lowering := lo } }
      ∧ (rs = true → s.dev.refusedShared = true) ∧ (rb = true → s.dev.refusedBacklog = true)
      ∧ (lo = true → s.prot.lowering = true) := by
  unfold relax
  simp only
  have a : ∀ (b : Bool) (x : State), ∃ rs, (if b = true then x.onDev fun d => { d with refusedShared := false } else x)
      = { x with dev := { x.dev with refusedShared := rs } } ∧ (rs = true → x.dev.refusedShared = true) := by
    intro b x; cases b
    · exact ⟨x.dev.refusedShared, by simp, id⟩
    · exact ⟨false, by simp [State.onDev], by simp⟩
  have a2 : ∀ (b : Bool) (x : State), ∃ rs, (if b = true then x.onDev fun d => { d with refusedBacklog := false } else x)
      = { x with dev := { x.dev with refusedBacklog := rs } } ∧ (rs = true → x.dev.refusedBacklog = true) := by
    intro b x; cases b
    · exact ⟨x.dev.refusedBacklog, by simp, id⟩
    · exact ⟨false, by simp [State.onDev], by simp⟩
  have a3 : ∀ (b : Bool) (x : State), ∃ rs, (if b = true then x.onProt fun d => { d with lowering := false } else x)
      = { x with prot := { x.prot with lowering := rs } } ∧ (rs = true → x.prot.lowering = true) := by
    intro b x; cases b
    · exact ⟨x.prot.lowering, by simp, id⟩
    · exact ⟨false, by simp [State.onProt], by simp⟩
  obtain ⟨rs, e1, h1⟩ := a (s.dev.refusedShared && decide (10 * dirtyShared s < 9 * sharedLimit s)) s
  rw [e1]
  generalize hs1 : ({ s with dev := { s.dev with refusedShared := rs } } : State) = s1
  obtain ⟨rb, e2, h2⟩ := a2 (s1.dev.refusedBacklog && decide (backlog s1 < backlogLimit s1)) s1
  rw [e2]
  generalize hs2 : ({ s1 with dev := { s1.dev with refusedBacklog := rb } } : State) = s2
  obtain ⟨lo, e3, h3⟩ := a3 (s2.prot.lowering && decide (dirtyBytes s2 < ceiling s2)) s2
  rw [e3]
  subst hs2; subst hs1
  exact ⟨rs, rb, lo, rfl, h1, h2, h3⟩

/-- Keeping the image of a commit changes what the NAND holds alone. -/
theorem keepImage_shape (a b : State) : ∃ p, keepImage a b = { b with past := p } := by
  unfold keepImage
  split
  · exact ⟨b.past, rfl⟩
  · exact ⟨_, rfl⟩

/-- The fields that what follows an effect may change. -/
theorem settle_shape (a b : State) : ∃ (rs rb lo : Bool) (out : List Out) (pba : DWord) (past : Past),
    settle a b =
      { b with dev := { b.dev with refusedShared := rs, refusedBacklog := rb }, prot := { b.prot with lowering := lo },
               host := { b.host with out := out, pba := pba }, past := past } := by
  obtain ⟨past, ek⟩ := keepImage_shape a b
  have keep : ∀ (y : State) (v : Nat) (c : Prop) [Decidable c],
      (∃ (rs rb lo : Bool) (out : List Out) (pba : DWord), y =
        { b with dev := { b.dev with refusedShared := rs, refusedBacklog := rb }, prot := { b.prot with lowering := lo },
                 host := { b.host with out := out, pba := pba }, past := past }) →
      ∃ (rs rb lo : Bool) (out : List Out) (pba : DWord), (if c then y else signal v y) =
        { b with dev := { b.dev with refusedShared := rs, refusedBacklog := rb }, prot := { b.prot with lowering := lo },
                 host := { b.host with out := out, pba := pba }, past := past } := by
    intro y v c _ ⟨rs, rb, lo, out, pba, e⟩
    by_cases hc : c
    · rw [if_pos hc]; exact ⟨rs, rb, lo, out, pba, e⟩
    · rw [if_neg hc]
      obtain ⟨o, p, e2⟩ := signal_shape v y
      rw [e2, e]
      exact ⟨rs, rb, lo, o, p, rfl⟩
  suffices h : ∃ (rs rb lo : Bool) (out : List Out) (pba : DWord), settle a b =
      { b with dev := { b.dev with refusedShared := rs, refusedBacklog := rb }, prot := { b.prot with lowering := lo },
               host := { b.host with out := out, pba := pba }, past := past } by
    obtain ⟨rs, rb, lo, out, pba, e⟩ := h
    exact ⟨rs, rb, lo, out, pba, past, e⟩
  unfold settle
  simp only [ek]
  split
  · obtain ⟨rs, rb, lo, e, -⟩ := relax_shape { b with past := past }
    exact keep _ 37 _ (keep _ 36 _ ⟨rs, rb, lo, b.host.out, b.host.pba, e⟩)
  · exact ⟨_, _, _, b.host.out, b.host.pba, rfl⟩

@[simp] theorem settle_pending (a b : State) : (settle a b).pending = b.pending := by obtain ⟨_, _, _, _, _, _, e⟩ := settle_shape a b; rw [e]
@[simp] theorem settle_lane (a b : State) : (settle a b).lane = b.lane := by obtain ⟨_, _, _, _, _, _, e⟩ := settle_shape a b; rw [e]
@[simp] theorem settle_hr (a b : State) : (settle a b).hr = b.hr := by obtain ⟨_, _, _, _, _, _, e⟩ := settle_shape a b; rw [e]
@[simp] theorem settle_br (a b : State) : (settle a b).br = b.br := by obtain ⟨_, _, _, _, _, _, e⟩ := settle_shape a b; rw [e]
@[simp] theorem settle_met (a b : State) : (settle a b).met = b.met := by obtain ⟨_, _, _, _, _, _, e⟩ := settle_shape a b; rw [e]
@[simp] theorem settle_tar (a b : State) : (settle a b).tar = b.tar := by obtain ⟨_, _, _, _, _, _, e⟩ := settle_shape a b; rw [e]
@[simp] theorem settle_led (a b : State) : (settle a b).led = b.led := by obtain ⟨_, _, _, _, _, _, e⟩ := settle_shape a b; rw [e]
@[simp] theorem settle_lt (a b : State) : (settle a b).lt = b.lt := by obtain ⟨_, _, _, _, _, _, e⟩ := settle_shape a b; rw [e]
@[simp] theorem settle_tim (a b : State) : (settle a b).tim = b.tim := by obtain ⟨_, _, _, _, _, _, e⟩ := settle_shape a b; rw [e]
@[simp] theorem settle_vlt (a b : State) : (settle a b).vlt = b.vlt := by obtain ⟨_, _, _, _, _, _, e⟩ := settle_shape a b; rw [e]
@[simp] theorem settle_cop (a b : State) : (settle a b).cop = b.cop := by obtain ⟨_, _, _, _, _, _, e⟩ := settle_shape a b; rw [e]
@[simp] theorem settle_pair (a b : State) : (settle a b).pair = b.pair := by obtain ⟨_, _, _, _, _, _, e⟩ := settle_shape a b; rw [e]
@[simp] theorem settle_yew (a b : State) : (settle a b).yew = b.yew := by obtain ⟨_, _, _, _, _, _, e⟩ := settle_shape a b; rw [e]
@[simp] theorem settle_fw (a b : State) : (settle a b).fw = b.fw := by obtain ⟨_, _, _, _, _, _, e⟩ := settle_shape a b; rw [e]
@[simp] theorem settle_pwr (a b : State) : (settle a b).pwr = b.pwr := by obtain ⟨_, _, _, _, _, _, e⟩ := settle_shape a b; rw [e]
@[simp] theorem settle_lau (a b : State) : (settle a b).lau = b.lau := by obtain ⟨_, _, _, _, _, _, e⟩ := settle_shape a b; rw [e]
@[simp] theorem settle_dl (a b : State) : (settle a b).dl = b.dl := by obtain ⟨_, _, _, _, _, _, e⟩ := settle_shape a b; rw [e]
@[simp] theorem settle_free (a b : State) : (settle a b).free = b.free := by obtain ⟨_, _, _, _, _, _, e⟩ := settle_shape a b; rw [e]
@[simp] theorem settle_host_rings (a b : State) : (settle a b).host.rings = b.host.rings := by obtain ⟨_, _, _, _, _, _, e⟩ := settle_shape a b; rw [e]
@[simp] theorem settle_host_sessions (a b : State) : (settle a b).host.sessions = b.host.sessions := by obtain ⟨_, _, _, _, _, _, e⟩ := settle_shape a b; rw [e]
@[simp] theorem settle_host_useCount (a b : State) : (settle a b).host.useCount = b.host.useCount := by obtain ⟨_, _, _, _, _, _, e⟩ := settle_shape a b; rw [e]
@[simp] theorem settle_host_waiting (a b : State) : (settle a b).host.waiting = b.host.waiting := by obtain ⟨_, _, _, _, _, _, e⟩ := settle_shape a b; rw [e]
@[simp] theorem settle_host_running (a b : State) : (settle a b).host.running = b.host.running := by obtain ⟨_, _, _, _, _, _, e⟩ := settle_shape a b; rw [e]
@[simp] theorem settle_host_tokens (a b : State) : (settle a b).host.tokens = b.host.tokens := by obtain ⟨_, _, _, _, _, _, e⟩ := settle_shape a b; rw [e]
@[simp] theorem settle_host_tokenCount (a b : State) : (settle a b).host.tokenCount = b.host.tokenCount := by obtain ⟨_, _, _, _, _, _, e⟩ := settle_shape a b; rw [e]
@[simp] theorem settle_host_select (a b : State) : (settle a b).host.select = b.host.select := by obtain ⟨_, _, _, _, _, _, e⟩ := settle_shape a b; rw [e]
@[simp] theorem settle_host_page (a b : State) : (settle a b).host.page = b.host.page := by obtain ⟨_, _, _, _, _, _, e⟩ := settle_shape a b; rw [e]
@[simp] theorem settle_host_msixEnable (a b : State) : (settle a b).host.msixEnable = b.host.msixEnable := by obtain ⟨_, _, _, _, _, _, e⟩ := settle_shape a b; rw [e]
@[simp] theorem settle_host_msixMask (a b : State) : (settle a b).host.msixMask = b.host.msixMask := by obtain ⟨_, _, _, _, _, _, e⟩ := settle_shape a b; rw [e]
@[simp] theorem settle_host_msix (a b : State) : (settle a b).host.msix = b.host.msix := by obtain ⟨_, _, _, _, _, _, e⟩ := settle_shape a b; rw [e]
@[simp] theorem settle_host_notices (a b : State) : (settle a b).host.notices = b.host.notices := by obtain ⟨_, _, _, _, _, _, e⟩ := settle_shape a b; rw [e]
@[simp] theorem settle_host_noticeSeq (a b : State) : (settle a b).host.noticeSeq = b.host.noticeSeq := by obtain ⟨_, _, _, _, _, _, e⟩ := settle_shape a b; rw [e]
@[simp] theorem settle_host_latch (a b : State) : (settle a b).host.latch = b.host.latch := by obtain ⟨_, _, _, _, _, _, e⟩ := settle_shape a b; rw [e]
@[simp] theorem settle_host_stalled (a b : State) : (settle a b).host.stalled = b.host.stalled := by obtain ⟨_, _, _, _, _, _, e⟩ := settle_shape a b; rw [e]
@[simp] theorem settle_host_stallLimit (a b : State) : (settle a b).host.stallLimit = b.host.stallLimit := by obtain ⟨_, _, _, _, _, _, e⟩ := settle_shape a b; rw [e]
@[simp] theorem settle_host_lost (a b : State) : (settle a b).host.lost = b.host.lost := by obtain ⟨_, _, _, _, _, _, e⟩ := settle_shape a b; rw [e]
@[simp] theorem settle_host_noticeIrq (a b : State) : (settle a b).host.noticeIrq = b.host.noticeIrq := by obtain ⟨_, _, _, _, _, _, e⟩ := settle_shape a b; rw [e]
@[simp] theorem settle_host_bar2 (a b : State) : (settle a b).host.bar2 = b.host.bar2 := by obtain ⟨_, _, _, _, _, _, e⟩ := settle_shape a b; rw [e]
@[simp] theorem settle_host_badLines (a b : State) : (settle a b).host.badLines = b.host.badLines := by obtain ⟨_, _, _, _, _, _, e⟩ := settle_shape a b; rw [e]
@[simp] theorem settle_host_quiet (a b : State) : (settle a b).host.quiet = b.host.quiet := by obtain ⟨_, _, _, _, _, _, e⟩ := settle_shape a b; rw [e]
@[simp] theorem settle_dev_phase (a b : State) : (settle a b).dev.phase = b.dev.phase := by obtain ⟨_, _, _, _, _, _, e⟩ := settle_shape a b; rw [e]
@[simp] theorem settle_dev_fit (a b : State) : (settle a b).dev.fit = b.dev.fit := by obtain ⟨_, _, _, _, _, _, e⟩ := settle_shape a b; rw [e]
@[simp] theorem settle_dev_core (a b : State) : (settle a b).dev.core = b.dev.core := by obtain ⟨_, _, _, _, _, _, e⟩ := settle_shape a b; rw [e]
@[simp] theorem settle_dev_mboxReady (a b : State) : (settle a b).dev.mboxReady = b.dev.mboxReady := by obtain ⟨_, _, _, _, _, _, e⟩ := settle_shape a b; rw [e]
@[simp] theorem settle_dev_devReady (a b : State) : (settle a b).dev.devReady = b.dev.devReady := by obtain ⟨_, _, _, _, _, _, e⟩ := settle_shape a b; rw [e]
@[simp] theorem settle_dev_rebuild (a b : State) : (settle a b).dev.rebuild = b.dev.rebuild := by obtain ⟨_, _, _, _, _, _, e⟩ := settle_shape a b; rw [e]
@[simp] theorem settle_dev_waitTb3 (a b : State) : (settle a b).dev.waitTb3 = b.dev.waitTb3 := by obtain ⟨_, _, _, _, _, _, e⟩ := settle_shape a b; rw [e]
@[simp] theorem settle_dev_dramShort (a b : State) : (settle a b).dev.dramShort = b.dev.dramShort := by obtain ⟨_, _, _, _, _, _, e⟩ := settle_shape a b; rw [e]
@[simp] theorem settle_dev_refusedSpare (a b : State) : (settle a b).dev.refusedSpare = b.dev.refusedSpare := by obtain ⟨_, _, _, _, _, _, e⟩ := settle_shape a b; rw [e]
@[simp] theorem settle_dev_replayed (a b : State) : (settle a b).dev.replayed = b.dev.replayed := by obtain ⟨_, _, _, _, _, _, e⟩ := settle_shape a b; rw [e]
@[simp] theorem settle_dev_acceptStopped (a b : State) : (settle a b).dev.acceptStopped = b.dev.acceptStopped := by obtain ⟨_, _, _, _, _, _, e⟩ := settle_shape a b; rw [e]
@[simp] theorem settle_dev_bootStep (a b : State) : (settle a b).dev.bootStep = b.dev.bootStep := by obtain ⟨_, _, _, _, _, _, e⟩ := settle_shape a b; rw [e]
@[simp] theorem settle_dev_deviceId (a b : State) : (settle a b).dev.deviceId = b.dev.deviceId := by obtain ⟨_, _, _, _, _, _, e⟩ := settle_shape a b; rw [e]
@[simp] theorem settle_dev_cause (a b : State) : (settle a b).dev.cause = b.dev.cause := by obtain ⟨_, _, _, _, _, _, e⟩ := settle_shape a b; rw [e]
@[simp] theorem settle_dev_flushFound (a b : State) : (settle a b).dev.flushFound = b.dev.flushFound := by obtain ⟨_, _, _, _, _, _, e⟩ := settle_shape a b; rw [e]
@[simp] theorem settle_dev_flushIncomplete (a b : State) : (settle a b).dev.flushIncomplete = b.dev.flushIncomplete := by obtain ⟨_, _, _, _, _, _, e⟩ := settle_shape a b; rw [e]
@[simp] theorem settle_dev_aoRan (a b : State) : (settle a b).dev.aoRan = b.dev.aoRan := by obtain ⟨_, _, _, _, _, _, e⟩ := settle_shape a b; rw [e]
@[simp] theorem settle_dev_held (a b : State) : (settle a b).dev.held = b.dev.held := by obtain ⟨_, _, _, _, _, _, e⟩ := settle_shape a b; rw [e]
@[simp] theorem settle_dev_readyTime (a b : State) : (settle a b).dev.readyTime = b.dev.readyTime := by obtain ⟨_, _, _, _, _, _, e⟩ := settle_shape a b; rw [e]
@[simp] theorem settle_dev_deferredReset (a b : State) : (settle a b).dev.deferredReset = b.dev.deferredReset := by obtain ⟨_, _, _, _, _, _, e⟩ := settle_shape a b; rw [e]
@[simp] theorem settle_dev_thermalTrip (a b : State) : (settle a b).dev.thermalTrip = b.dev.thermalTrip := by obtain ⟨_, _, _, _, _, _, e⟩ := settle_shape a b; rw [e]
@[simp] theorem settle_dev_tripReport (a b : State) : (settle a b).dev.tripReport = b.dev.tripReport := by obtain ⟨_, _, _, _, _, _, e⟩ := settle_shape a b; rw [e]
@[simp] theorem settle_dev_thermalHold (a b : State) : (settle a b).dev.thermalHold = b.dev.thermalHold := by obtain ⟨_, _, _, _, _, _, e⟩ := settle_shape a b; rw [e]
@[simp] theorem settle_dev_junction (a b : State) : (settle a b).dev.junction = b.dev.junction := by obtain ⟨_, _, _, _, _, _, e⟩ := settle_shape a b; rw [e]
@[simp] theorem settle_dev_debugUnlocked (a b : State) : (settle a b).dev.debugUnlocked = b.dev.debugUnlocked := by obtain ⟨_, _, _, _, _, _, e⟩ := settle_shape a b; rw [e]
@[simp] theorem settle_dev_ildinFails (a b : State) : (settle a b).dev.ildinFails = b.dev.ildinFails := by obtain ⟨_, _, _, _, _, _, e⟩ := settle_shape a b; rw [e]
@[simp] theorem settle_dev_share (a b : State) : (settle a b).dev.share = b.dev.share := by obtain ⟨_, _, _, _, _, _, e⟩ := settle_shape a b; rw [e]
@[simp] theorem settle_dev_shareUsed (a b : State) : (settle a b).dev.shareUsed = b.dev.shareUsed := by obtain ⟨_, _, _, _, _, _, e⟩ := settle_shape a b; rw [e]
@[simp] theorem settle_dev_late (a b : State) : (settle a b).dev.late = b.dev.late := by obtain ⟨_, _, _, _, _, _, e⟩ := settle_shape a b; rw [e]
@[simp] theorem settle_dev_counters (a b : State) : (settle a b).dev.counters = b.dev.counters := by obtain ⟨_, _, _, _, _, _, e⟩ := settle_shape a b; rw [e]
@[simp] theorem settle_dev_refusedSinceNotice (a b : State) : (settle a b).dev.refusedSinceNotice = b.dev.refusedSinceNotice := by obtain ⟨_, _, _, _, _, _, e⟩ := settle_shape a b; rw [e]
@[simp] theorem settle_dev_ildinRel (a b : State) : (settle a b).dev.ildinRel = b.dev.ildinRel := by obtain ⟨_, _, _, _, _, _, e⟩ := settle_shape a b; rw [e]
@[simp] theorem settle_dev_bootDue (a b : State) : (settle a b).dev.bootDue = b.dev.bootDue := by obtain ⟨_, _, _, _, _, _, e⟩ := settle_shape a b; rw [e]
@[simp] theorem settle_prot_intake (a b : State) : (settle a b).prot.intake = b.prot.intake := by obtain ⟨_, _, _, _, _, _, e⟩ := settle_shape a b; rw [e]
@[simp] theorem settle_prot_takeSeq (a b : State) : (settle a b).prot.takeSeq = b.prot.takeSeq := by obtain ⟨_, _, _, _, _, _, e⟩ := settle_shape a b; rw [e]
@[simp] theorem settle_prot_budget (a b : State) : (settle a b).prot.budget = b.prot.budget := by obtain ⟨_, _, _, _, _, _, e⟩ := settle_shape a b; rw [e]
@[simp] theorem settle_prot_refused (a b : State) : (settle a b).prot.refused = b.prot.refused := by obtain ⟨_, _, _, _, _, _, e⟩ := settle_shape a b; rw [e]
@[simp] theorem settle_prot_flushWritten (a b : State) : (settle a b).prot.flushWritten = b.prot.flushWritten := by obtain ⟨_, _, _, _, _, _, e⟩ := settle_shape a b; rw [e]
@[simp] theorem settle_prot_sealOk (a b : State) : (settle a b).prot.sealOk = b.prot.sealOk := by obtain ⟨_, _, _, _, _, _, e⟩ := settle_shape a b; rw [e]
@[simp] theorem settle_prot_flushSeal (a b : State) : (settle a b).prot.flushSeal = b.prot.flushSeal := by obtain ⟨_, _, _, _, _, _, e⟩ := settle_shape a b; rw [e]
@[simp] theorem settle_prot_flushIntake (a b : State) : (settle a b).prot.flushIntake = b.prot.flushIntake := by obtain ⟨_, _, _, _, _, _, e⟩ := settle_shape a b; rw [e]
@[simp] theorem settle_prot_kept (a b : State) : (settle a b).prot.kept = b.prot.kept := by obtain ⟨_, _, _, _, _, _, e⟩ := settle_shape a b; rw [e]
@[simp] theorem settle_prot_marksPending (a b : State) : (settle a b).prot.marksPending = b.prot.marksPending := by obtain ⟨_, _, _, _, _, _, e⟩ := settle_shape a b; rw [e]
@[simp] theorem settle_dev_avs (a b : State) : (settle a b).dev.avs = b.dev.avs := by obtain ⟨_, _, _, _, _, _, e⟩ := settle_shape a b; rw [e]
@[simp] theorem settle_prot_flushBlock (a b : State) : (settle a b).prot.flushBlock = b.prot.flushBlock := by obtain ⟨_, _, _, _, _, _, e⟩ := settle_shape a b; rw [e]
@[simp] theorem settle_prot_planDies (a b : State) : (settle a b).prot.planDies = b.prot.planDies := by obtain ⟨_, _, _, _, _, _, e⟩ := settle_shape a b; rw [e]
@[simp] theorem settle_prot_planSeq (a b : State) : (settle a b).prot.planSeq = b.prot.planSeq := by obtain ⟨_, _, _, _, _, _, e⟩ := settle_shape a b; rw [e]

/-- What was sent stays sent. -/
theorem settle_out_mem (a b : State) {o : Out} (h : o ∈ b.host.out) : o ∈ (settle a b).host.out := by
  have sig : ∀ v (x : State), o ∈ x.host.out → o ∈ (signal v x).host.out := by
    intro v x hx
    rcases signal_cases v x with ⟨p, e⟩ | e <;> rw [e] <;> simp [State.onHost, hx]
  obtain ⟨past, ek⟩ := keepImage_shape a b
  unfold settle
  simp only [ek]
  split
  · obtain ⟨_, _, _, e, -⟩ := relax_shape { b with past := past }
    have hr : o ∈ (relax { b with past := past }).host.out := by rw [e]; exact h
    split <;> split <;> first | exact hr | exact sig _ _ hr | exact sig _ _ (sig _ _ hr)
  · exact h

end Sys2Proof.Laws
end

