-- ==== Sys2Proof/Laws/Host.lean ====
section
/-!
SUPPORT. How a host command reaches its definition, and what each wrapper of a meaning answers.
-/

namespace Sys2Proof.Laws
open Sys2Proof.Machine

/-- A command of the catalogue runs as its definition says. -/
theorem exec_host {c : Instr} {x : CmdDef} {d : Desc} (s : State) (h : hostDef c = some (x, d)) : exec c s = runCmd x c d s := by
  cases c <;> simp only [hostDef, Option.some.injEq, Prod.mk.injEq, reduceCtorEq] at h <;> obtain ⟨rfl, rfl⟩ := h <;> rfl

/-- A served host command that waits for nothing is started. -/
theorem runCmd_starts {x : CmdDef} {i : Instr} {d : Desc} {s : State} (h : s.dev.phase = .running) (m : s.dev.mboxReady = true)
    (f : fetched d s = true) (w : mustWait x d s = false) : runCmd x i d s = .next (settle s (startCmd x d s)) := by
  simp [runCmd, h, m, f, w]

theorem whileRunning_runs {s : State} (f : State → State) (h : s.dev.phase = .running) : whileRunning f s = .next (settle s (f s)) := by
  simp [whileRunning, h]

theorem whileReachable_runs {s : State} (f : State → State) (h : s.dev.phase = .running) : whileReachable f s = .next (settle s (f s)) := by
  simp [whileReachable, h]

theorem poweredUp_runs {s : State} (f : State → State) (h : s.dev.phase = .running) : poweredUp f s = .next (settle s (f s)) := by
  simp [poweredUp, h]

/-- Every command answers a next state: none faults and none is refused. -/
theorem runCmd_answers (x : CmdDef) (i : Instr) (d : Desc) (s : State) : ∃ t, runCmd x i d s = .next t := by
  unfold runCmd
  split
  · split
    · exact ⟨_, rfl⟩
    · split <;> exact ⟨_, rfl⟩
  · exact ⟨_, rfl⟩
  · exact ⟨_, rfl⟩

end Sys2Proof.Laws
end

