-- ==== Sys2Proof/Laws/Tables.lean ====
section
/-!
SUPPORT. The laws of tables and byte memories: what is read after a write, and that every operation keeps the canonical form.
-/

namespace Sys2Proof.Laws
open Sys2Proof.Machine

/-! ### Tables -/

@[simp] theorem get_put_same {α : Type} (t : Tbl α) (n : Nat) (v : α) : Tbl.get (Tbl.put t n v) n = some v := by
  induction t with
  | nil => simp [Tbl.put, Tbl.get]
  | cons p t ih =>
    obtain ⟨k, w⟩ := p
    simp only [Tbl.put]
    split
    · simp [Tbl.get]
    · split
      · simp [Tbl.get]
      · rename_i h
        simp [Tbl.get, ih, Ne.symm h]

theorem get_put_ne {α : Type} (t : Tbl α) {n m : Nat} (v : α) (h : m ≠ n) : Tbl.get (Tbl.put t n v) m = Tbl.get t m := by
  induction t with
  | nil => simp [Tbl.put, Tbl.get, Ne.symm h]
  | cons p t ih =>
    obtain ⟨k, w⟩ := p
    simp only [Tbl.put]
    split
    · simp [Tbl.get, Ne.symm h]
    · split
      · rename_i e
        subst e
        simp [Tbl.get, Ne.symm h]
      · simp [Tbl.get, ih]

@[simp] theorem get_del_same {α : Type} (t : Tbl α) (n : Nat) : Tbl.get (Tbl.del t n) n = none := by
  induction t with
  | nil => rfl
  | cons p t ih =>
    obtain ⟨k, w⟩ := p
    simp only [Tbl.del]
    split
    · exact ih
    · rename_i h
      simp [Tbl.get, ih, h]

theorem get_del_ne {α : Type} (t : Tbl α) {n m : Nat} (h : m ≠ n) : Tbl.get (Tbl.del t n) m = Tbl.get t m := by
  induction t with
  | nil => rfl
  | cons p t ih =>
    obtain ⟨k, w⟩ := p
    simp only [Tbl.del]
    split
    · rename_i e
      subst e
      simp [Tbl.get, ih, Ne.symm h]
    · simp [Tbl.get, ih]

@[simp] theorem getD_put_same {α : Type} (t : Tbl α) (n : Nat) (v d : α) : Tbl.getD (Tbl.put t n v) n d = v := by
  simp [Tbl.getD]

theorem getD_put_ne {α : Type} (t : Tbl α) {n m : Nat} (v d : α) (h : m ≠ n) : Tbl.getD (Tbl.put t n v) m d = Tbl.getD t m d := by
  simp [Tbl.getD, get_put_ne t v h]

@[simp] theorem getD_upd_same {α : Type} (t : Tbl α) (n : Nat) (d : α) (f : α → α) :
    Tbl.getD (Tbl.upd t n d f) n d = f (Tbl.getD t n d) := by
  simp [Tbl.upd]

theorem getD_upd_ne {α : Type} (t : Tbl α) {n m : Nat} (d e : α) (f : α → α) (h : m ≠ n) :
    Tbl.getD (Tbl.upd t n d f) m e = Tbl.getD t m e := by
  simp [Tbl.upd, getD_put_ne t _ _ h]

/-! ### The canonical form -/

theorem above_of_le {α : Type} {a b : Nat} {t : Tbl α} (h : a ≤ b) (hb : Tbl.above b t = true) : Tbl.above a t = true := by
  cases t with
  | nil => rfl
  | cons p t =>
    simp only [Tbl.above, Bool.and_eq_true, decide_eq_true_eq] at hb ⊢
    exact ⟨by omega, hb.2⟩

theorem above_put {α : Type} {a n : Nat} {t : Tbl α} (v : α) (hn : a < n) (h : Tbl.above a t = true) :
    Tbl.above a (Tbl.put t n v) = true := by
  induction t generalizing a with
  | nil => simp [Tbl.put, Tbl.above, hn]
  | cons p t ih =>
    obtain ⟨k, w⟩ := p
    simp only [Tbl.above, Bool.and_eq_true, decide_eq_true_eq] at h
    simp only [Tbl.put]
    split
    · simp only [Tbl.above, Bool.and_eq_true, decide_eq_true_eq]
      exact ⟨hn, by assumption, h.2⟩
    · split
      · rename_i e
        subst e
        simp only [Tbl.above, Bool.and_eq_true, decide_eq_true_eq]
        exact ⟨hn, h.2⟩
      · simp only [Tbl.above, Bool.and_eq_true, decide_eq_true_eq]
        exact ⟨h.1, ih (by omega) h.2⟩

theorem put_wf {α : Type} {t : Tbl α} (n : Nat) (v : α) (h : Tbl.wf t = true) : Tbl.wf (Tbl.put t n v) = true := by
  cases t with
  | nil => rfl
  | cons p t =>
    obtain ⟨k, w⟩ := p
    simp only [Tbl.wf] at h
    simp only [Tbl.put]
    split
    · simp only [Tbl.wf, Tbl.above, Bool.and_eq_true, decide_eq_true_eq]
      exact ⟨by assumption, h⟩
    · split
      · rename_i e
        subst e
        simpa [Tbl.wf] using h
      · simp only [Tbl.wf]
        exact above_put v (by omega) h

theorem above_del {α : Type} {a : Nat} {t : Tbl α} (n : Nat) (h : Tbl.above a t = true) : Tbl.above a (Tbl.del t n) = true := by
  induction t generalizing a with
  | nil => rfl
  | cons p t ih =>
    obtain ⟨k, w⟩ := p
    simp only [Tbl.above, Bool.and_eq_true, decide_eq_true_eq] at h
    simp only [Tbl.del]
    split
    · exact above_of_le (by omega) (ih h.2)
    · simp only [Tbl.above, Bool.and_eq_true, decide_eq_true_eq]
      exact ⟨h.1, ih h.2⟩

theorem wf_of_above {α : Type} {a : Nat} {t : Tbl α} (h : Tbl.above a t = true) : Tbl.wf t = true := by
  cases t with
  | nil => rfl
  | cons p t =>
    simp only [Tbl.above, Bool.and_eq_true, decide_eq_true_eq] at h
    exact h.2

theorem del_wf {α : Type} {t : Tbl α} (n : Nat) (h : Tbl.wf t = true) : Tbl.wf (Tbl.del t n) = true := by
  cases t with
  | nil => rfl
  | cons p t =>
    obtain ⟨k, w⟩ := p
    simp only [Tbl.wf] at h
    simp only [Tbl.del]
    split
    · exact wf_of_above (above_del n h)
    · simpa [Tbl.wf] using above_del n h

/-! ### Memory -/

theorem read_get (m : Memory) (a : Nat) : Memory.read m a = (Tbl.get m a).getD 0#8 := by
  induction m with
  | nil => rfl
  | cons p t ih =>
    obtain ⟨k, b⟩ := p
    simp only [Memory.read, Tbl.get]
    split <;> simp [ih]

@[simp] theorem read_write_same (m : Memory) (a : Nat) (b : Byte) : Memory.read (Memory.write m a b) a = b := by
  rw [read_get]
  simp only [Memory.write]
  split
  · rename_i h
    simp [h]
  · simp

theorem read_write_ne (m : Memory) {a x : Nat} (b : Byte) (h : x ≠ a) : Memory.read (Memory.write m a b) x = Memory.read m x := by
  rw [read_get, read_get]
  simp only [Memory.write]
  split
  · rw [get_del_ne m h]
  · rw [get_put_ne m b h]

theorem all_del {m : Memory} (a : Nat) (h : (m.all fun c => c.2 != 0#8) = true) :
    ((Tbl.del m a).all fun c => c.2 != 0#8) = true := by
  induction m with
  | nil => rfl
  | cons p t ih =>
    obtain ⟨k, b⟩ := p
    simp only [List.all_cons, Bool.and_eq_true] at h
    simp only [Tbl.del]
    split
    · exact ih h.2
    · simp only [List.all_cons, Bool.and_eq_true]
      exact ⟨h.1, ih h.2⟩

theorem all_put {m : Memory} (a : Nat) {b : Byte} (hb : b ≠ 0#8) (h : (m.all fun c => c.2 != 0#8) = true) :
    ((Tbl.put m a b).all fun c => c.2 != 0#8) = true := by
  induction m with
  | nil => simp [Tbl.put, hb]
  | cons p t ih =>
    obtain ⟨k, w⟩ := p
    simp only [List.all_cons, Bool.and_eq_true] at h
    simp only [Tbl.put]
    split
    · simp only [List.all_cons, Bool.and_eq_true]
      exact ⟨by simpa using hb, h.1, h.2⟩
    · split
      · simp only [List.all_cons, Bool.and_eq_true]
        exact ⟨by simpa using hb, h.2⟩
      · simp only [List.all_cons, Bool.and_eq_true]
        exact ⟨h.1, ih h.2⟩

/-- A write keeps the canonical form. -/
theorem write_wf {m : Memory} (a : Nat) (b : Byte) (h : Memory.wf m = true) : Memory.wf (Memory.write m a b) = true := by
  simp only [Memory.wf, Bool.and_eq_true] at h ⊢
  simp only [Memory.write]
  split
  · exact ⟨del_wf a h.1, all_del a h.2⟩
  · exact ⟨put_wf a b h.1, all_put a (by assumption) h.2⟩

/-- A run of writes keeps the canonical form. -/
theorem writeN_wf {m : Memory} (a : Nat) (bs : Bytes) (h : Memory.wf m = true) : Memory.wf (Memory.writeN m a bs) = true := by
  induction bs generalizing m a with
  | nil => exact h
  | cons b bs ih => exact ih (a + 1) (write_wf a b h)

/-- A run of writes leaves every byte outside it. -/
theorem read_writeN_ne (m : Memory) (a : Nat) (bs : Bytes) {x : Nat} (h : x < a ∨ a + bs.length ≤ x) :
    Memory.read (Memory.writeN m a bs) x = Memory.read m x := by
  induction bs generalizing m a with
  | nil => rfl
  | cons b bs ih =>
    simp only [List.length_cons] at h
    simp only [Memory.writeN]
    rw [ih (Memory.write m a b) (a + 1) (by omega), read_write_ne m b (by omega)]

end Sys2Proof.Laws
end

