-- ==== Sys2Proof/WellFormed.lean ====
section
/-!
DEFINITION. Which commands are well formed: operands in the ranges the manual's formats give them.
-/

namespace Sys2Proof

/-- A descriptor carries its 40 inline bytes and, unless its payload lies in BAR2, as many payload bytes as it says, up to
the 16 MiB the device reads (R65). -/
def descWf (d : Desc) : Bool :=
  d.inline.length == 40 && (d.flags.getLsbD 0 || d.payload.length == min d.plen.toNat (2 ^ 24))

/-- The image booted ends in its signature block (R329), and dies of the fitting only cannot be read (R264). -/
def bootWf (b : BootIn) : Bool := b.image.2.length == 2576 && b.unread.all fun d => decide (d < 32)

/-- A fitting: channels NC0 to NC7 with up to four chip enables each (table Supported NAND); Tmax is one of the two grades' (R428). -/
def fittingWf (f : Fitting) : Bool :=
  decide (f.onChan.length ≤ 8) && (f.onChan.all fun n => decide (n ≤ 4)) && decide (0 < f.blockMib)
    && (f.tmax == 220 || f.tmax == 250)

/-- A command is well formed. -/
def wellFormed (i : Instr) : Bool :=
  match i with
  | .powerOn f => fittingWf f
  | .resetNAssert => true
  | .resetNRelease _ b => bootWf b
  | .internalReset b => bootWf b
  | .restoreMarksCreate => true
  | .pfailNAssert => true
  | .flushComplete => true
  | .pfailGlitchRestart b => bootWf b
  | .railOutOfRange _ => true
  | .thermalWarn _ => true
  | .thermalWarnRelease _ => true
  | .thermalTrip _ => true
  | .thermalTripRestart _ b => bootWf b
  | .watchdogExpiry b => bootWf b
  | .functionLevelReset => true
  | .perstNAssert => true
  | .pcieLinkDown => true
  | .jtagDebugUnlock _ => true
  | .descriptorUndefinedOpcode d _ => descWf d
  | .sessionOpen d => descWf d
  | .sessionClose d => descWf d
  | .sessionStatus d => descWf d
  | .maintChallenge d => descWf d
  | .maintUnlock d => descWf d
  | .deviceIdSet d => descWf d
  | .shareSet d => descWf d
  | .telemetryRead d => descWf d
  | .countersRead d => descWf d
  | .softReset d => descWf d
  | .ingest d => descWf d
  | .sessionList d => descWf d
  | .meterEnter d => descWf d
  | .meterRemove d => descWf d
  | .meterUpdate d => descWf d
  | .slotRead d => descWf d
  | .commissioningSet d => descWf d
  | .layoutLoad d => descWf d
  | .ruleSetLoad d => descWf d
  | .shardCreate d => descWf d
  | .shardDelete d => descWf d
  | .shardModeSet d => descWf d
  | .shardRingSet d => descWf d
  | .shardStatus d => descWf d
  | .directoryLookup d => descWf d
  | .portConfig d => descWf d
  | .portStatus d => descWf d
  | .brambleDefaults d => descWf d
  | .brambleOverride d => descWf d
  | .connectionUpdate d => descWf d
  | .connectionTerminate d => descWf d
  | .routeRead d => descWf d
  | .planLoad d => descWf d
  | .switchListLoad d => descWf d
  | .calendarLoad d => descWf d
  | .passiveDiscard d => descWf d
  | .scheduleStatus d => descWf d
  | .determinantRead d => descWf d
  | .marksRead d => descWf d
  | .ledgerKeyCreate d => descWf d
  | .ledgerKeyRotate d => descWf d
  | .ledgerProof d => descWf d
  | .ledgerEntryRead d => descWf d
  | .ledgerRetentionSet d => descWf d
  | .ledgerStatus d => descWf d
  | .ledgerRingSet d => descWf d
  | .groupLoad d => descWf d
  | .groupRemove d => descWf d
  | .ltParamsLoad d => descWf d
  | .partialSum d => descWf d
  | .detectorReset d => descWf d
  | .tamperMapLoad d => descWf d
  | .tamperClear d => descWf d
  | .groupStatus d => descWf d
  | .zoneLoad d => descWf d
  | .timeStep d => descWf d
  | .zoneRead d => descWf d
  | .attest d => descWf d
  | .keyAttest d => descWf d
  | .certificateRead d => descWf d
  | .publicKeyRead d => descWf d
  | .keyList d => descWf d
  | .keyGenerate d => descWf d
  | .transportEstablish d => descWf d
  | .keyImport d => descWf d
  | .keyDelete d => descWf d
  | .generationStage d => descWf d
  | .generationStagePlan d => descWf d
  | .authorityEnrol d => descWf d
  | .cosignEnrol d => descWf d
  | .measureExtend d => descWf d
  | .broadcastGenerationSet d => descWf d
  | .healthRead d => descWf d
  | .storageParamsLoad d => descWf d
  | .formatNand d => descWf d
  | .unreadableList d => descWf d
  | .yewFreeze d => descWf d
  | .yewUnfreeze d => descWf d
  | .yewHoldSet d => descWf d
  | .yewClear d => descWf d
  | .imageBegin d => descWf d
  | .imageBlock d => descWf d
  | .imageStatus d => descWf d
  | .imageVerify d => descWf d
  | .activate d => descWf d
  | .confirm d => descWf d
  | .imageAbort d => descWf d
  | .pairConfigure d => descWf d
  | .pairDissolve d => descWf d
  | .pairStatus d => descWf d
  | .witnessTableLoad d => descWf d
  | .migratePrepare d => descWf d
  | .migrateFreeze d => descWf d
  | .migrateSnapshot d => descWf d
  | .migrateLoad d => descWf d
  | .migrateCommit d => descWf d
  | .migrateRelease d => descWf d
  | .migrateAbort d => descWf d
  | .drainWindowSet d => descWf d
  | .holdupBudgetSet d => descWf d
  | .holdupStatus d => descWf d
  | .displayRecover d => descWf d
  | .displayBookReset d => descWf d
  | .meterGet d => descWf d
  | .meterSet d => descWf d
  | .meterAction d => descWf d
  | .meterClockSet d => descWf d
  | .keyTransfer d => descWf d
  | .calendarPush d => descWf d
  | .meterImageBegin d => descWf d
  | .meterImageBlock d => descWf d
  | .meterImageVerify d => descWf d
  | .campaignStart d => descWf d
  | .campaignStatus d => descWf d
  | .campaignActivate d => descWf d
  | .campaignAbort d => descWf d
  | .downlinkCancel d => descWf d
  | .downlinkFetch d => descWf d
  | .downlinkAdoptedRead d => descWf d
  | .sqTail ring _ => decide (ring < 16)
  | .cqHead ring _ => decide (ring < 16)
  | .cqEnable ring _ => decide (ring < 16)
  | .submissionEnable ring _ => decide (ring < 16)
  | .exportEnable ring _ _ => decide (ring < 16)
  | .erCredit ring _ => decide (ring < 16)
  | .erCursor ring _ _ => decide (ring < 16)
  | .resultSelect _ => true
  | .resultPage _ => true
  | .resultRelease _ => true
  | .noticePop => true
  | .noticePopStallTimeout => true
  | .rcRead r => decide (r.off < if r.bar2 then 2 ^ 28 else 2 ^ 22)
  | .broadcastWrite off _ => decide (off < 2 ^ 22)
  | .applyWrite off _ => decide (off < 2 ^ 22)
  | .applyTakesEffect => true
  | .msixUnmask _ => true
  | .interruptCoalesceTimeout vector => decide (vector < 64)
  | .tbLatchRead n => decide (n < 8)
  | .selectWrite _ => true
  | .domCfg _ _ => true
  | .pwrLimit dom _ => decide (dom < 14)
  | .yewCursor _ _ => true
  | .yewWindowLastWordRead => true
  | .yewWindowReady => true
  | .laurelUpdate _ => true
  | .registerWrite bar2 off _ _ => decide (off < (if bar2 then 2 ^ 28 else 2 ^ 22))
  | .hrDataRx _ => true
  | .hrAckRx _ => true
  | .hrNackRx _ => true
  | .hrToneMapRespRx _ => true
  | .hrJoinReqRx _ => true
  | .hrNeighbourReportRx _ => true
  | .hrBeaconRx _ => true
  | .hrBeaconTx net => decide (net < 2 ^ 16)
  | .hrCsmaAttempt net _ => decide (net < 2 ^ 16)
  | .hrAckWaitTimeout net dest => decide (net < 2 ^ 16) && decide (dest < 2 ^ 16)
  | .toneMapAgeExpiry net addr => decide (net < 2 ^ 16) && decide (addr < 2 ^ 16)
  | .routeRecompute net => decide (net < 2 ^ 16)
  | .timedLaunch port => decide (port < 16)
  | .brDataRx _ => true
  | .brConnectReqRx _ => true
  | .brAckRx _ => true
  | .brNackRx _ => true
  | .brRendezvousTx net => decide (net < 2 ^ 16)
  | .brSupervisionTimeout slot => decide (slot < 2 ^ 20)
  | .brConnectionForget _ => true
  | .brUpdateInstantPassed slot => decide (slot < 2 ^ 20)
  | .brChannelQuality => true
  | .brChannelRestore net _ => decide (net < 2 ^ 16)
  | .watchBurstStart group => decide (group < 16)
  | .watchBurstEnd group => decide (group < 16)
  | .ethernetIngest _ => true
  | .sysrefEdge _ => true
  | .portLaneLock lock => decide (lock.port < 16)
  | .portLockLost port => decide (port < 16)
  | .portRetrain port => decide (port < 16)
  | .portCalibration port _ => decide (port < 16)
  | .calibrationSwap port _ => decide (port < 16)
  | .frameOpen => true
  | .exportRecordWrite ring => decide (ring < 16)
  | .shardOwnerReassign shard engine => decide (shard < 256) && decide (engine < 16)
  | .commissioningEnd slot => decide (slot < 2 ^ 20)
  | .gapEstimate slot => decide (slot < 2 ^ 20)
  | .shapeTableUpdate => true
  | .boundaryMarkCreate => true
  | .listActivation plan => decide (plan < 64)
  | .calendarActivation plan => decide (plan < 64)
  | .calendarFallback plan => decide (plan < 64)
  | .leapSecond => true
  | .boundarySweep _ => true
  | .backgroundActivityLate row _ => decide (row < 9)
  | .sealMarkCreate plan => decide (plan < 64)
  | .sealing => true
  | .cutoffWaitTimeout => true
  | .partnerRootTimeout => true
  | .ledgerPrebuild _ => true
  | .balanceEvaluate group => decide (group < 2 ^ 16)
  | .dailyAttribution group => decide (group < 2 ^ 16)
  | .topologyRun => true
  | .ptpSync _ => true
  | .ptpFollowUp _ => true
  | .ptpAnnounce _ => true
  | .ptpDelayReqTx _ => true
  | .ptpDelayResp _ => true
  | .ptpPdelayReqTx port => decide (port < 2)
  | .ptpPdelayReq _ => true
  | .ptpPdelayResp _ => true
  | .ptpPdelayRespFollowUp _ => true
  | .announceTimeout _ => true
  | .primaryReturn _ => true
  | .domainSyncTimeout _ => true
  | .domainHoldoverTimeout _ => true
  | .tb2HoldoverLimit => true
  | .ethLinkDown port => decide (port < 2)
  | .ethLinkUp port => decide (port < 2)
  | .zoryenHeartbeatTx => true
  | .zoryenHeartbeat _ => true
  | .tokenGrant _ => true
  | .tokenTake => true
  | .tokenHoldEnd => true
  | .holderFence => true
  | .witnessGrant _ => true
  | .partnerLost => true
  | .witnessSilent => true
  | .zoryenMirror _ => true
  | .zoryenMirrorAck _ => true
  | .zoryenCutoff _ => true
  | .zoryenRoot _ => true
  | .zoryenShardRoots _ => true
  | .zoryenLeafHashes _ => true
  | .zoryenResyncReq _ => true
  | .zoryenResyncData _ => true
  | .drainWindowEnd shard => decide (shard < 256)
  | .sessionExpiry _ => true
  | .maintChallengeExpiry => true
  | .fwTrialExpired => true
  | .laneMicrocodeSwap port => decide (port < 16)
  | .securityProcessorSwap => true
  | .multicastRound c => decide (c < 256)
  | .campaignActivationInstant c => decide (c < 256)
  | .downlinkExpiry _ => true
  | .yewFreezeTimeout => true
  | .yewReclaim _ => true
  | .journalTailWrite => true
  | .checkpoint => true
  | .nandProgramComplete p => decide (p.stream ≤ 9) && decide (p.lsns.length ≤ 4)
  | .nandProgramFail p => decide (p.stream ≤ 9) && decide (p.lsns.length ≤ 4)
  | .nandEraseComplete _ => true
  | .nandEraseFail _ => true
  | .blockVerify _ => true
  | .gcBlockCollect => true
  | .nandPatrolRead _ => true
  | .nandReadyTimeout die => decide (die < 32)
  | .dieRebuilt die => decide (die < 32)
  | .dramUncorrectable _ => true
  | .dramScrub _ => true
  | .vaultRemask => true
  | .trngHealthFail => true
  | .trngRetest _ => true
  | .healthSnapshot => true
  | .domainEntry dom _ => decide (dom < 14)
  | .domainWake dom => decide (dom < 14)
  | .wakeFault dom => decide (dom < 14)
  | .dvfsWindow _ => true
  | .hawthornRequest _ => true
  | .hawthornRelease res => decide (res < 32)
  | .arbiterCutoff res => decide (res < 32)
  | .arbiterReadmit who => decide (who < 64)
  | .displayFrame => true
  | .displayPumpTimeout => true
  | .stripRefreshBurst => true
  | .stripPolarityBurst => true
  | .brTerminateTimeout slot => decide (slot < 2 ^ 20)
  | .slewEnd n => decide (n < 8)
  | .retentionExpiry => true

end Sys2Proof
end

