-- ==== Sys2Proof/Tests/Slice0.lean ====
section
/-!
SUPPORT. Tests of the model on fixed values: ill-formed commands refused, worked examples, and for each statement a state and operands
that meet its hypotheses.
-/

namespace Sys2Proof.Tests
set_option Elab.async false
open Sys2Proof.Machine

/-! ### States -/

/-- A zone without daylight time, TAI − UTC 37 s. -/
def zoneU : Zone :=
  { id := 1#32, tai := 37, taiAfter := 37, leap := 0, std := 0, dst := 0, start := (0, 0, 0, 0), end_ := (0, 0, 0, 0), bytes := [] }

/-- Ten million seconds of every base, TB2 valid, a zone loaded. -/
def timeU : TimeUnit :=
  let t := 10000000 * 10 ^ 21
  { tb2 := t, tb4 := t, tb5 := t, tb6 := t, tb7 := t, stat := [(2, { valid := true })], zone := some zoneU }

/-- A core device in full service, not paired, with four descriptors of ring 0 fetched. -/
def up : State :=
  { State.reset with
    dev := { phase := .running, core := true, mboxReady := true, devReady := true, replayed := true, deviceId := 1#32, bootStep := 13 }
    host := { State.reset.host with rings := [(0, { outstanding := 4 })] }
    tim := timeU }

/-- Sessions 1 OPERATOR, 2 SECURITY and 3 MAINTENANCE. -/
def sess (id role : Nat) : Session :=
  { id := BitVec.ofNat 32 id, role, clientNonce := [], opened := plain 0#32 0 [], highest := none, records := [], nextNonce := 1#64,
    notAfter := 2 ^ 40, expiry := 0, expiryTb7 := none, lastUse := 0, useOrder := 0 }

/-- The device with its sessions open. -/
def upS : State := { up with host := { up.host with sessions := [sess 1 1, sess 2 2, sess 3 3] } }

/-- A descriptor of session `id` with inline bytes padded to 40, and a payload. -/
def desc (id : Nat) (inline payload : Bytes) : Desc :=
  { ring := 0, flags := 0#16, tag := 1#32, session := BitVec.ofNat 32 id, plen := BitVec.ofNat 32 payload.length, paddr := 0#64,
    inline := inline ++ zeros (40 - inline.length), payload }

/-! ### The block as a whole, power and start -/

/-- The clause is a plain case of the phase. -/
def inPhase (p : Phase) : State := { up with dev := { up.dev with phase := p } }

/-- A start that finds everything in order, and one whose link between the dies fails. -/
def bootGood : BootIn :=
  { dieLink := true, holly := true, slotA := true, slotB := false, record := true, ildin := true, vault := (true, true),
    loader := [1#8], image := ([2#8], zeros 2576), outage := none, took := 300 }

theorem test_witness_EmptyQueueCounts : up.pending = [] ∧ up.host.waiting = [] ∧ up.dev.phase = .running := by decide

theorem test_witness_UnpoweredStandsStill :
    Unpowered { inPhase .off with pending := [.noticePop, .resetNAssert] }
      ∧ ∃ t, step { inPhase .off with pending := [.noticePop, .resetNAssert] } = .next t := by
  refine ⟨⟨rfl, ?_⟩, _, rfl⟩
  intro f; simp

theorem test_witness_ResetHoldsTheBlock :
    HeldInReset { State.reset with pending := [.noticePop, .tokenTake] }
      ∧ ∃ t, step { State.reset with pending := [.noticePop, .tokenTake] } = .next t := by
  refine ⟨⟨rfl, ?_⟩, _, rfl⟩
  simp [endsReset]

theorem test_witness_PowerEventsTurnThePhase :
    (inPhase .running).dev.phase = .running ∧ (inPhase .flushing).dev.phase = .flushing ∧ (inPhase .flushing).dev.deferredReset = false
      ∧ (let s := { inPhase .flushing with dev := { (inPhase .flushing).dev with deferredReset := true } }
         s.dev.phase = .flushing ∧ s.dev.deferredReset = true) := by decide

theorem test_witness_StartsRunTheSequence :
    (inPhase .inReset).dev.phase = .inReset
      ∧ (let s := { inPhase .inReset with dev := { (inPhase .inReset).dev with bootDue := some 5 } }
         s.dev.phase = .inReset ∧ s.dev.bootDue = some 5)
      ∧ (inPhase .flushed).dev.phase = .flushed
      ∧ (inPhase .thermalHold).dev.phase = .thermalHold ∧ (199 : Int) < (inPhase .thermalHold).dev.fit.tmax - 20
      ∧ (let s := { inPhase .running with tim := { timeU with tb6 := 2 * 10 ^ 21 } }
         s.dev.phase = .running ∧ 2 * nsPerS ≤ tb6 s)
      ∧ (let s := { inPhase .running with dev := { (inPhase .running).dev with waitTb3 := true } }
         s.dev.phase = .running ∧ s.dev.waitTb3 = true ∧ tb3Valid s = true) := by decide

theorem test_witness_StartsRunTheSequence_boots :
    State.reset.dev.phase = .inReset ∧ bootGood.dieLink = true ∧ bootGood.holly = true ∧ bootGood.ildin = true
      ∧ chooseSlot bootGood (requestSetPoint (endTrial (decide (State.reset.dev.cause = 6))
          (restart false (some true) bootGood State.reset.dev.cause State.reset))) = some (false, false) := by decide +kernel

/-- From 750 mV to a fused 812 mV in three requests, and back down in steps (R421). -/
theorem test_set_point : avsSteps 750 812 = [775, 800, 812] ∧ avsSteps 812 812 = [812] ∧ avsSteps 750 700 = [725, 700] := by decide

theorem test_witness_FailedStartRecovers :
    State.reset.dev.phase = .inReset ∧ { bootGood with dieLink := false }.dieLink = false
      ∧ (let b := { bootGood with holly := false }; b.dieLink = true ∧ b.holly = false)
      ∧ (let b := { bootGood with slotA := false }; b.dieLink = true ∧ b.holly = true ∧ b.slotA = false ∧ b.slotB = false) := by decide

theorem test_witness_JunctionThresholds :
    (inPhase .running).dev.phase = .running ∧ (inPhase .running).dev.thermalHold = false
      ∧ (inPhase .running).dev.fit.tmax - 10 < 211 ∧ (199 : Int) < (inPhase .running).dev.fit.tmax - 20
      ∧ (inPhase .running).dev.fit.tmax + 20 < 241 := by decide

theorem test_witness_HostIslandReset :
    (inPhase .running).dev.phase ≠ .off ∧ Instr.perstNAssert ∈ [Instr.functionLevelReset, .perstNAssert, .pcieLinkDown] := by decide

/-! ### Rings, results, notices, registers -/

/-- The device with ring 3 given. -/
def upRing (r : Ring) : State := { up with host := { up.host with rings := [(3, r)] } }

/-- An export record of ring 3, sequence 7, of 100 B. -/
def recU : Rec :=
  { seq := 7, ring := 3, type := 1, flags := 0#8, slot := 0, shard := none, epoch := 0, asn := 0, stamp := 0, eui := 0#64, local_ := 0#16,
    payload := zeros 100 }

theorem test_witness_RingBasesStandWhileSubmitting :
    (let s := upRing { ringCtrl := 1#32, cqCtrl := 0x16#32 }
     s.dev.phase = .running ∧ (ring s 3).submits = true
       ∧ bits 0x16#32 0 4 ≤ 6 ∧ bits 0x16#32 0 4 = bits (ring s 3).cqCtrl 0 4
       ∧ bits 0x15#32 0 4 ≠ bits (ring s 3).cqCtrl 0 4 ∧ 6 < bits 0x17#32 0 4)
      ∧ (ring (upRing {}) 3).submits = false ∧ bits 0x16#32 0 4 ≤ 6 := by decide

theorem test_witness_RingAndResultRegistersHold :
    (let s := upRing { ringCtrl := 2#32 }
     s.dev.phase = .running ∧ (1#32 : Word).getLsbD 0 = true ∧ (ring s 3).ringCtrl.getLsbD 1 = true ∧ (ring s 3).erCtrl.getLsbD 0 = false) := by
  decide

theorem test_witness_ExportRingFlows :
    (let s := upRing { erLastSeq := 9#64, erCursor := 5#64, low := [(0x30, 9#32)] }
     let c := ((0#32 : Word) ++ Tbl.getD (ring s 3).low 0x30 0#32 : DWord)
     s.dev.phase = .running ∧ (ring s 3).erCursor.toNat ≤ c.toNat ∧ c.toNat ≤ (ring s 3).erLastSeq.toNat
       ∧ (∀ k ∈ s.met.shards, k.2.moving = none))
      ∧ (let s := upRing { erLastSeq := 9#64, erCursor := 5#64, low := [(0x30, 10#32)] }
         (ring s 3).erLastSeq.toNat < ((0#32 : Word) ++ Tbl.getD (ring s 3).low 0x30 0#32 : DWord).toNat)
      ∧ (let s := upRing { erLastSeq := 9#64, erCursor := 5#64, low := [(0x30, 4#32)] }
         ((0#32 : Word) ++ Tbl.getD (ring s 3).low 0x30 0#32 : DWord).toNat < (ring s 3).erCursor.toNat)
      ∧ (let s := { upRing { ringCtrl := 2#32, erCtrl := 1#32, erSize := 0x10000#32, erCredit := 192 } with met := { records := [recU] } }
         s.dev.phase = .running ∧ (ring s 3).exports = true ∧ nextExport s 3 = some recU
           ∧ recLength recU < (ring s 3).erSize.toNat - (ring s 3).erProducer.toNat ∧ recLength recU ≤ (ring s 3).erCredit)
      ∧ (let r : Ring := { ringCtrl := 2#32, erCtrl := 1#32, erSize := 0x10000#32, erCredit := 64 }
         recLength recU ≤ r.erSize.toNat - r.erProducer.toNat ∧ r.erCredit < recLength recU)
      ∧ (let s := { upRing { ringCtrl := 2#32, erCtrl := 1#32, erSize := 0x10000#32, erProducer := 0xFFC0#32, erCredit := 192 } with met := { records := [recU] } }
         let left := (ring s 3).erSize.toNat - (ring s 3).erProducer.toNat
         (ring s 3).exports = true ∧ nextExport s 3 = some recU ∧ left < recLength recU ∧ 0 < left ∧ left ≤ (ring s 3).erCredit) := by
  decide

/-- A notice of a priority and sequence. -/
def noteU (prio seq : Nat) : Notice := { code := 0x0201, prio, seq, stamp := 0, source := 0, data := zeros 8 }

/-- The device with notices queued. -/
def upNotes (q : List Notice) : State := { up with host := { up.host with notices := q } }

theorem test_witness_PrivetOrder :
    (let s := upNotes [noteU 2 0, noteU 1 1, noteU 1 2]
     s.dev.phase = .running ∧ popNotice s.host.notices = some (noteU 1 1, [noteU 2 0, noteU 1 2]) ∧ s.host.stalled = [])
      ∧ ([noteU 2 0] : List Notice).length < 16384 := by decide

theorem test_witness_PrivetOrder_full :
    16384 ≤ (List.replicate 16384 (noteU 3 0)).length
      ∧ ∀ m ∈ List.replicate 16384 (noteU 3 0) ++ [noteU 0 1], m.prio ≤ 3 := by
  refine ⟨by rw [List.length_replicate], ?_⟩
  intro m h
  rcases List.mem_append.1 h with h | h
  · rw [List.eq_of_mem_replicate h]; decide
  · rw [List.mem_singleton.1 h]; decide

theorem test_witness_EmptyPopStalls :
    popNotice (upNotes []).host.notices = none ∧ (upNotes []).host.stalled = []
      ∧ (let s := { up with host := { up.host with stalled := [(tb6 up - 2000000, none)] } }
         s.dev.phase = .running ∧ ∃ t r rest, s.host.stalled = (t, r) :: rest ∧ t + s.host.stallLimit.toNat * 1000 ≤ tb6 s) := by
  refine ⟨by decide, by decide, by decide, _, _, _, rfl, by decide⟩

theorem test_witness_InterruptsAreDelivered :
    up.dev.phase = .running ∧ up.host.pba = 0#64
      ∧ (let s := { up with host := { up.host with msixEnable := true, pba := 8#64 } }
         s.host.msixEnable = true ∧ s.host.msixMask = false ∧ s.host.pba.getLsbD 3 = true)
      ∧ (let s := upRing { cqDeadline := some (tb6 up) }
         (ring s 3).cqDeadline = some (tb6 s) ∧ tb6 s ≤ tb6 s) := by decide

theorem test_witness_RegisterWritesTakeOrIgnore :
    up.dev.phase = .running ∧ (0x7FFFF < 0x80000 ∧ 0x7FFFF % 4 ≠ 0) ∧ (0x1000 < 0x80000 ∧ 7#4 ≠ 15#4)
      ∧ 0xFF000 ≤ 0xFF000 ∧ (0x50000 ≤ 0x5FFFF ∧ 0x5FFFF < 0x60000) ∧ 0xFFF < 0x1000
      ∧ (20000#32 : Word).toNat ≤ 20000 ∧ 20000 < (20001#32 : Word).toNat
      ∧ (1 ≤ (500#32 : Word).toNat ∧ (500#32 : Word).toNat ≤ 500) ∧ ¬ (1 ≤ (501#32 : Word).toNat ∧ (501#32 : Word).toNat ≤ 500)
      ∧ (1024 ≤ (1024#32 : Word).toNat ∧ (1024#32 : Word).toNat ≤ 65535)
      ∧ ¬ (1024 ≤ (1023#32 : Word).toNat ∧ (1023#32 : Word).toNat ≤ 65535) := by decide

theorem test_witness_MemoryWritesStoreTheirBytes :
    up.dev.phase = .running ∧ 2 ^ 28 - 4 + 4 ≤ 2 ^ 28 ∧ MemoriesCanonical up ∧ 0x84000 ≤ 0x847FC ∧ 0x847FC < 0x84800 :=
  ⟨rfl, by decide, ⟨rfl, rfl⟩, by decide, by decide⟩

theorem test_witness_CountersClearOnRead :
    up.dev.phase = .running ∧ rcStat (chan up 255).act.macType 0x80 = true
      ∧ 0x20080 % 256 = 0x80 ∧ (chan { up with lane := { chans := [(255, { act := { blank := 0x10#32 } })] } } 255).act.blankOn = false := by decide

/-! ### Host commands -/

/-- The checks of `Goes` for a command that is not signed-only, as one Boolean. -/
def goesB (x : CmdDef) (d : Desc) (s : State) : Bool :=
  let t := noted d s
  let r := x.role t
  s.dev.phase == .running && s.dev.mboxReady && (!s.host.quiet && fetched d s) && !mustWait x d s
    && (match session s d.session with | some y => !belowWindow y d.tag && (recorded y d.tag).isNone | none => true)
    && admitted r d t && r != .signed && payloadFits d && payloadSound t d && x.lenOk t d d.plen.toNat
    && (x.repeated t (ctxOf t r d)).isNone && (checkRest x (spent x d t) (ctxOf t r d)).isNone

theorem goes_of {x : CmdDef} {d : Desc} {s : State} (h : goesB x d s = true) : Goes x d s := by
  simp only [goesB, Bool.and_eq_true, beq_iff_eq, Bool.not_eq_true', bne_iff_ne, ne_eq, Option.isNone_iff_eq_none] at h
  obtain ⟨⟨⟨⟨⟨⟨⟨⟨⟨⟨⟨h1, h2⟩, h2q⟩, h3⟩, h4⟩, h5⟩, h6⟩, h7⟩, h7s⟩, h8⟩, h9⟩, h10⟩ := h
  refine ⟨⟨h1, h2, h2q⟩, h3, ?_, h5, ⟨d.plen.toNat, ?_, h7, h7s, h8, fun e => absurd e h6⟩, h9, h10⟩
  · intro y hy
    rw [hy] at h4
    simp only [Bool.and_eq_true, Bool.not_eq_true', Option.isNone_iff_eq_none] at h4
    exact ⟨h4.1, Or.inl h4.2⟩
  · simp [bodyLength, h6]

/-- The checks of `Goes` for a signed-only command with a body of `n` bytes, but for its signature. -/
def goesS (x : CmdDef) (d : Desc) (s : State) (n : Nat) : Bool :=
  let t := noted d s
  s.dev.phase == .running && s.dev.mboxReady && (!s.host.quiet && fetched d s) && !mustWait x d s
    && (match session s d.session with | some y => !belowWindow y d.tag && (recorded y d.tag).isNone | none => true)
    && admitted (x.role t) d t && x.role t == .signed && (bodyLength .signed d == some n && payloadFits d && payloadSound t d)
    && (x.lenOk t d n && ofLe (slice (payloadOf t d) n 8) == expectedNonce d t)
    && (x.repeated t (ctxOf t .signed d)).isNone && (checkRest x (spent x d t) (ctxOf t .signed d)).isNone

/-- Its signature verifies. -/
def sealOk (x : CmdDef) (d : Desc) (s : State) (n : Nat) : Prop :=
  let p := payloadOf (noted d s) d
  verifyUnder (noted d s) 2 (signedMessage x.opcode d (p.take n) (slice p n 8)) (slice p (n + 8) 1280) = true

theorem goes_signed {x : CmdDef} {d : Desc} {s : State} (n : Nat) (h : goesS x d s n = true) (v : sealOk x d s n) : Goes x d s := by
  simp only [goesS, Bool.and_eq_true, beq_iff_eq, Bool.not_eq_true', Option.isNone_iff_eq_none] at h
  obtain ⟨⟨⟨⟨⟨⟨⟨⟨⟨⟨h1, h2⟩, h2q⟩, h3⟩, h4⟩, h5⟩, h6⟩, ⟨h7, h7'⟩, h7s⟩, h8, h8'⟩, h9⟩, h10⟩ := h
  refine ⟨⟨h1, h2, h2q⟩, h3, ?_, h5, ⟨n, by rw [h6]; exact h7, h7', h7s, h8, fun _ => ⟨v, h8'⟩⟩, by rw [h6]; exact h9, by rw [h6]; exact h10⟩
  intro y hy
  rw [hy] at h4
  simp only [Bool.and_eq_true, Bool.not_eq_true', Option.isNone_iff_eq_none] at h4
  exact ⟨h4.1, Or.inl h4.2⟩

/-- A signed-only descriptor: its body, nonce 1 and 1,280 B for the signature. -/
def signedDesc (body : Bytes) : Desc := desc 2 [] (body ++ le 8 1 ++ zeros 1280)

/-- A key of a use and an algorithm. -/
def keyU (use alg : Nat) : Key := { use, alg, origin := 1, factory := false, label := 0, key := zeros 32, pub := [], created := 0 }

/-- A plan with calendar months closing on day 1 at 00:00. -/
def planU : Plan := { d := 2, sliding := false, s := 1, rule := 0, day := 1, minute := 0, n := 0, grace := 24, shift := 60, anchor := 0 }

/-- A group of one member, slot 5, on three phases. -/
def groupU : Group :=
  { flags := 1#16, reference := 0, phases := 3, members := [(5, 0, true)], a := 0, b := 0, k := 0, h := 0, p := 900, ring := [], evaluated := 0,
    result := 0, sPos := 0, sNeg := 0, alarmPos := false, alarmNeg := false, onset := 0, late := false, attributed := 0 }

/-- A campaign that runs, of image 0. -/
def campU : Campaign :=
  { calendar := false, image := 0, rounds := 0, block := 128, interval := 60, activation := none, content := 0, slots := [], ended := false,
    roundsDone := [], origin := (1#32, 1#32, 1#32), desc := [] }

/-- A determinant of slot 5, a ledger entry, a command waiting for its meter. -/
def detU : Determinant :=
  { slot := 5, period := 2, start := 0, end_ := 0, e := [], totals := [], maxima := [], flags := 0#16, medium := 0, eui := 0#64, firstAsn := 0,
    lastAsn := 0, adjust := [], hashed := false }
def entryU : Entry :=
  { number := 1, period := 1, start := 0, end_ := 0, sealedAt := 0, leaves := 0, adjusts := 0, root := 0#256, bytes := [], leafBytes := [] }
def dlU : DlCmd :=
  { index := 1, origin := (1#32, 1#32, 9#32), ring := 0, slot := 5, opcode := 0x0F01, request := [], expiry := 10 ^ 19, ready := false, sent := false,
    adopted := false, desc := [] }

/-- A core device with something of everything: slot 5 active in shard 0, which is held; shard 2 incoming, shard 3 frozen. -/
def rich : State :=
  { upS with
    met := { slots := [(5, { state := .active, eui := 5#64, title := 5#64 })],
             shards := [(0, { state := .held }), (2, { state := .incoming, parts := List.range 16 }), (3, { state := .frozen }), (4, { state := .held })] }
    tar := { plans := [(0, { plan := planU, sealed_ := [(1, 0, 0)], passive := some { id := 1#32, initial := 0, activation := 0, cover := 0, entries := [], bytes := [] } })]
             marks := [{ index := 1, due := 0, created := 0, plans := 1#64, kind := 1, tariff := 0, flags := 0#16, period := 1 }], index := 1,
             store := [detU] }
    led := { entries := [entryU], last := 1 }
    lt := { groups := [(1, { groupU with flags := 4#16 })] }
    hr := [(1, {})]
    vlt := { State.reset.vlt with
             keys := [(0, { keyU 6 4 with pub := zeros 97 }), (1, keyU 8 5), (2, keyU 7 5), (3, keyU 7 5), (16, keyU 5 3), (20, keyU 5 8), (21, keyU 3 2)]
             challenge := some (zeros 32, tb6 up) }
    dl := { cmds := [dlU], images := [(0, { length := 4096, blocks := [], usable := true }), (1, { length := 4096, blocks := [], usable := false })],
            campaigns := [(0, campU)] } }

/-- A field device with a Bramble connection of slot 5 on network 1. -/
def connU : Conn :=
  { slot := 5, net := 1, aw := 0x12345678#32, state := .connected, params := { interval := 1000, timeout := 4000, phy := 0, map := 7#256 }, ppm := 0, n0 := 0,
    a0 := 0, open_ := false, stored := 0, superviseAt := 0, win := none, lastCopy := none, txSeq := 0#16, lc := some 1, update := none, terminating := none,
    down := [], sentNow := false, restore := none, resp := none }
def richF : State :=
  { rich with dev := { rich.dev with core := false }, br := { conns := [(5, connU)] } }

/-- The channel of richF's network: Bramble, network 1, plan 1, sending and receiving. -/
def brCfgU : ChanCfg := { bind := 0x10#32, mac := 0x32#32, brNet := 0x0A000001#32 }
def richB : State := { richF with lane := { chans := [(1, { act := brCfgU, shadow := brCfgU })], ports := [(0, { state := .up })] } }

/-- A Bramble record: interval 1,000 ms, timeout 4,000 ms, mode 0, three indices. -/
def brRecU : Bytes := le 4 1000 ++ le 4 4000 ++ le 4 0 ++ le 32 7

/-- A descriptor of the OPERATOR session, and one of the SECURITY session. -/
def opDesc (args : Bytes) (p : Bytes := []) : Desc := desc 1 args p
def secDesc (args : Bytes) (p : Bytes := []) : Desc := desc 2 args p

/-- DEVICE and the sessions: commands that pass every check. -/
def goes_device : List (CmdDef × Desc × State) :=
  [(sessionOpenDef, desc 0 [1#8] [], rich),
   (sessionCloseDef, opDesc [], rich),
   (sessionStatusDef, desc 0 [2#8] [], rich),
   (maintChallengeDef, desc 0 [] [], rich),
   (maintUnlockDef, desc 3 [] [], rich),
   (deviceIdSetDef, opDesc [7#8], { rich with dev := { rich.dev with deviceId := 0#32} }),
   (shareSetDef, opDesc [2#8], rich),
   (shareSetDef, opDesc [25#8], rich),
   (telemetryReadDef, desc 0 [] [], rich),
   (countersReadDef, desc 0 [] [], rich),
   (softResetDef, secDesc [], rich),
   (ingestDef, opDesc [1#8] (let r := le 1 3 ++ le 1 0 ++ le 2 64 ++ zeros 56; r ++ le 4 (crc32c r).toNat), rich),
   (sessionListDef, desc 0 [] [], rich)]

theorem test_goes_device : ∀ x ∈ goes_device, Goes x.1 x.2.1 x.2.2 :=
  fun x h => goes_of (List.all_eq_true.1 (show (goes_device.all fun x => goesB x.1 x.2.1 x.2.2) = true by decide +kernel) x h)

/-- Meters and shards: commands that pass every check. -/
def goes_meters : List (CmdDef × Desc × State) :=
  [(meterRemoveDef, opDesc [5#8], { rich with dl := {}, lt := {} }),
   (meterUpdateDef, opDesc (le 4 5 ++ [1#8, 3#8]), rich),
   (slotReadDef, desc 0 (le 4 5 ++ le 2 0 ++ le 2 64) [], rich),
   (commissioningSetDef, opDesc (le 4 5 ++ le 6 10000100), rich),
   (layoutLoadDef, opDesc [2#8] (le 1 0 ++ le 1 0 ++ le 2 0 ++ le 4 900), rich),
   (ruleSetLoadDef, opDesc [2#8] (le 1 1 ++ zeros 15), rich),
   (shardCreateDef, opDesc [1#8], rich),
   (shardDeleteDef, opDesc [4#8], rich),
   (shardModeSetDef, opDesc [4#8, 0#8, 1#8], richB),
   (shardRingSetDef, opDesc [4#8, 15#8], rich),
   (shardStatusDef, desc 0 [4#8] [], rich),
   (directoryLookupDef, desc 0 (le 4 0 ++ le 8 5) [], rich)]

theorem test_goes_meters : ∀ x ∈ goes_meters, Goes x.1 x.2.1 x.2.2 :=
  fun x h => goes_of (List.all_eq_true.1 (show (goes_meters.all fun x => goesB x.1 x.2.1 x.2.2) = true by decide +kernel) x h)

/-- Ports and links: commands that pass every check. -/
def goes_links : List (CmdDef × Desc × State) :=
  [(portConfigDef, opDesc [] (zeros 20 ++ le 2 16 ++ zeros 10), richF),
   (portStatusDef, desc 0 [15#8] [], richF),
   (brambleDefaultsDef, opDesc [1#8] brRecU, richB),
   (brambleOverrideDef, opDesc [5#8] brRecU, richB),
   (connectionUpdateDef, opDesc [5#8] brRecU, richB),
   (connectionTerminateDef, opDesc [5#8], richB),
   (routeReadDef, desc 0 [1#8] [], richB)]

theorem test_goes_links : ∀ x ∈ goes_links, Goes x.1 x.2.1 x.2.2 :=
  fun x h => goes_of (List.all_eq_true.1 (show (goes_links.all fun x => goesB x.1 x.2.1 x.2.2) = true by decide +kernel) x h)

/-- Schedule and box ledger: commands that pass every check. -/
def goes_schedule : List (CmdDef × Desc × State) :=
  [(planLoadDef, opDesc [] (le 1 1 ++ [2#8, 0#8, 1#8, 0#8, 1#8] ++ zeros 4 ++ le 2 24 ++ le 2 60 ++ zeros 18), rich),
   (scheduleStatusDef, desc 0 [63#8] [], rich),
   (determinantReadDef, desc 0 (le 4 5 ++ le 4 2) [], rich),
   (marksReadDef, desc 0 (le 8 1 ++ le 2 1024) [], rich),
   (ledgerKeyCreateDef, secDesc [], upS),
   (ledgerProofDef, desc 0 (le 4 1) [], rich),
   (ledgerEntryReadDef, desc 0 (le 8 1) [], rich),
   (ledgerStatusDef, desc 0 [] [], rich),
   (ledgerRingSetDef, opDesc [15#8], rich)]

theorem test_goes_schedule : ∀ x ∈ goes_schedule, Goes x.1 x.2.1 x.2.2 :=
  fun x h => goes_of (List.all_eq_true.1 (show (goes_schedule.all fun x => goesB x.1 x.2.1 x.2.2) = true by decide +kernel) x h)

/-- Loss, theft and time: commands that pass every check. -/
def goes_loss : List (CmdDef × Desc × State) :=
  [(groupLoadDef, opDesc [2#8] (le 2 2 ++ le 2 0 ++ le 4 0 ++ [3#8, 0#8] ++ le 2 1 ++ zeros 12 ++ le 4 900 ++ zeros 4 ++ le 4 5 ++ zeros 4), { rich with lt := {} }),
   (groupRemoveDef, opDesc [1#8], rich),
   (ltParamsLoadDef, opDesc [] (le 4 16200 ++ le 4 1000 ++ le 2 20 ++ le 2 200 ++ [0#8, 10#8, 32#8, 160#8, 96#8, 0#8] ++ le 2 10 ++ le 2 200 ++ le 2 400 ++ le 2 29491 ++ le 2 3277 ++ le 2 3 ++ le 2 360 ++ zeros 32), rich),
   (partialSumDef, opDesc (le 2 1 ++ le 2 0 ++ le 6 (900 * 11112 + 37)), rich),
   (detectorResetDef, secDesc [1#8], rich),
   (tamperMapLoadDef, opDesc [] [], rich),
   (tamperClearDef, secDesc (le 4 5 ++ [1#8]), rich),
   (groupStatusDef, desc 0 [1#8] [], rich),
   (zoneLoadDef, secDesc [] (zeros 18 ++ [1#8, 1#8, 1#8, 0#8, 0#8, 0#8, 2#8, 1#8, 1#8, 0#8, 0#8, 0#8, 0#8, 0#8]), rich),
   (timeStepDef, secDesc (le 4 0 ++ le 8 1000), rich),
   (zoneReadDef, desc 0 [] [], rich)]

theorem test_goes_loss : ∀ x ∈ goes_loss, Goes x.1 x.2.1 x.2.2 :=
  fun x h => goes_of (List.all_eq_true.1 (show (goes_loss.all fun x => goesB x.1 x.2.1 x.2.2) = true by decide +kernel) x h)

/-- The vault: commands that pass every check. -/
def goes_vault : List (CmdDef × Desc × State) :=
  [(attestDef, desc 0 [] [], rich),
   (keyAttestDef, desc 0 [20#8] [], rich),
   (certificateReadDef, desc 0 [3#8] [], rich),
   (publicKeyReadDef, desc 0 [0#8] [], rich),
   (keyListDef, desc 0 [] [], rich),
   (keyGenerateDef, secDesc [30#8], rich),
   (keyDeleteDef, secDesc [20#8], rich),
   (generationStageDef, opDesc [5#8], rich),
   (generationStagePlanDef, opDesc [0#8], rich),
   (measureExtendDef, opDesc [7#8] [1#8], rich),
   (broadcastGenerationSetDef, opDesc [0#8, 0#8, 5#8], rich)]

theorem test_goes_vault : ∀ x ∈ goes_vault, Goes x.1 x.2.1 x.2.2 :=
  fun x h => goes_of (List.all_eq_true.1 (show (goes_vault.all fun x => goesB x.1 x.2.1 x.2.2) = true by decide +kernel) x h)

/-- Storage, Yew, firmware: commands that pass every check. -/
def goes_storage : List (CmdDef × Desc × State) :=
  [(healthReadDef, desc 0 [] [], rich),
   (formatDef, secDesc [], { rich with dev := { rich.dev with held := [3]} }),
   (unreadableListDef, desc 0 [] [], rich),
   (yewFreezeDef, opDesc [], rich),
   (yewUnfreezeDef, opDesc [], rich),
   (yewHoldSetDef, secDesc (le 2 10958), rich),
   (imageBeginDef, opDesc (le 4 33554432), rich),
   (imageBlockDef, opDesc (le 4 0 ++ le 4 (crc32c (zeros 8)).toNat) (zeros 8), { rich with fw := {b := {state := .loading, length := 8} } }),
   (imageStatusDef, desc 0 [] [], rich),
   (confirmDef, opDesc [], { rich with fw := {b := {state := .trial}, runningB := true, activeB := true, trialAt := tb6 up} }),
   (imageAbortDef, opDesc [], { rich with fw := {b := {state := .loading, length := 8} } })]

theorem test_goes_storage : ∀ x ∈ goes_storage, Goes x.1 x.2.1 x.2.2 :=
  fun x h => goes_of (List.all_eq_true.1 (show (goes_storage.all fun x => goesB x.1 x.2.1 x.2.2) = true by decide +kernel) x h)

/-- Pair, migration, power, display: commands that pass every check. -/
def goes_pair : List (CmdDef × Desc × State) :=
  [(pairDissolveDef, secDesc [], { rich with pair := {record := some {id := 1#32, partner := 2#32, witness := 3#32, first := true, keys := (40,41,42,43), bytes := []} } }),
   (pairStatusDef, desc 0 [] [], rich),
   (witnessTableLoadDef, secDesc [20#8] [], rich),
   (migratePrepareDef, opDesc [1#8], rich),
   (migrateFreezeDef, opDesc [4#8], rich),
   (migrateSnapshotDef, opDesc [3#8], rich),
   (migrateReleaseDef, opDesc [3#8], rich),
   (migrateAbortDef, opDesc [2#8], rich),
   (drainWindowSetDef, opDesc [60#8], rich),
   (holdupBudgetSetDef, opDesc (le 2 20), rich),
   (holdupStatusDef, desc 0 [] [], rich),
   (displayRecoverDef, opDesc [1#8], { rich with lau := {ctrl := 1#32} }),
   (displayBookResetDef, secDesc [1#8], rich)]

theorem test_goes_pair : ∀ x ∈ goes_pair, Goes x.1 x.2.1 x.2.2 :=
  fun x h => goes_of (List.all_eq_true.1 (show (goes_pair.all fun x => goesB x.1 x.2.1 x.2.2) = true by decide +kernel) x h)

/-- Downlink: commands that pass every check. -/
def goes_downlink : List (CmdDef × Desc × State) :=
  [(meterGetDef, opDesc (le 4 5 ++ zeros 10 ++ le 4 60), rich),
   (meterSetDef, opDesc (le 4 5 ++ zeros 10 ++ le 4 60) [1#8], rich),
   (meterActionDef, opDesc (le 4 5 ++ zeros 10 ++ le 4 172800), rich),
   (meterClockSetDef, opDesc (le 4 5 ++ le 4 1), rich),
   (keyTransferDef, opDesc (le 4 5 ++ le 4 1), { rich with met := {slots := [(5, {state := .active, staged := some 2})], shards := rich.met.shards} }),
   (meterImageBeginDef, opDesc (le 4 7 ++ le 4 4096), rich),
   (meterImageBlockDef, opDesc (le 4 2 ++ le 4 0 ++ le 4 (crc32c (zeros 8)).toNat) (zeros 8), { rich with dl := {images := [(2, {length := 8, blocks := [], usable := false})]} }),
   (campaignStartDef, opDesc ([0#8, 4#8] ++ le 2 128 ++ le 4 30) (le 4 5), rich),
   (campaignStatusDef, desc 0 [] [], rich),
   (campaignActivateDef, opDesc [], rich),
   (campaignAbortDef, opDesc [], rich),
   (downlinkCancelDef, opDesc [9#8], rich),
   (downlinkFetchDef, desc 0 [] [], rich),
   (downlinkAdoptedReadDef, desc 0 [] [], rich)]

theorem test_goes_downlink : ∀ x ∈ goes_downlink, Goes x.1 x.2.1 x.2.2 :=
  fun x h => goes_of (List.all_eq_true.1 (show (goes_downlink.all fun x => goesB x.1 x.2.1 x.2.2) = true by decide +kernel) x h)

/-- Signed-only commands that pass every check but the signature, with the length of their bodies. -/
def goes_signed_list : List (CmdDef × Desc × State × Nat) :=
  [(switchListLoadDef, signedDesc (le 4 1 ++ zeros 4 ++ le 6 10000080 ++ le 6 10000140 ++ zeros 12), rich, 32),
   (calendarLoadDef, signedDesc (le 4 1 ++ [0#8, 1#8, 1#8, 1#8] ++ le 2 0 ++ le 6 10000080 ++ [1#8, 1#8, 0#8] ++ zeros 77 ++ [1#8] ++ zeros 4223),
     rich, 4320),
   (passiveDiscardDef, signedDesc (zeros 4), rich, 4), (ledgerKeyRotateDef, signedDesc [], rich, 0), (yewClearDef, signedDesc [], rich, 0),
   (activateDef, signedDesc [], { rich with fw := { b := { state := .verified } } }, 0),
   (migrateCommitDef, signedDesc (le 4 2), rich, 4),
   (calendarPushDef, signedDesc (le 4 256), { rich with tar := { plans := [(0, { plan := planU, active := some { id := 1#32, initial := 0, activation := 0, cover := 0, entries := [], bytes := [] } })] } }, 4)]

theorem test_goes_signed : ∀ x ∈ goes_signed_list, sealOk x.1 x.2.1 x.2.2.1 x.2.2.2 → Goes x.1 x.2.1 x.2.2.1 :=
  fun x h => goes_signed x.2.2.2 (List.all_eq_true.1
    (show (goes_signed_list.all fun x => goesS x.1 x.2.1 x.2.2.1 x.2.2.2) = true by decide +kernel) x h)

/-- A command passes when all but its resource check pass, and that passes. -/
theorem goes_res {x : CmdDef} {d : Desc} {s : State}
    (h : goesB { x with res := fun _ _ => none } d s = true)
    (r : x.res (spent x d (noted d s)) (ctxOf (noted d s) (x.role (noted d s)) d) = none) : Goes x d s := by
  refine goes_of (Eq.trans ?_ h)
  have e : spent { x with res := fun _ _ => none } d (noted d s) = spent x d (noted d s) := rfl
  simp only [goesB, checkRest, checkRes, checkState, checkArgs, mustWait, needsReady, usesFalcon, e, r]

/-- The same for the argument check. -/
theorem goes_args {x : CmdDef} {d : Desc} {s : State}
    (h : goesB { x with args := fun _ _ => none } d s = true)
    (r : x.args (spent x d (noted d s)) (ctxOf (noted d s) (x.role (noted d s)) d) = none) : Goes x d s := by
  refine goes_of (Eq.trans ?_ h)
  have e : spent { x with args := fun _ _ => none } d (noted d s) = spent x d (noted d s) := rfl
  simp only [goesB, checkRest, checkRes, checkState, checkArgs, mustWait, needsReady, usesFalcon, e, r]

theorem goes_state {x : CmdDef} {d : Desc} {s : State}
    (h : goesB { x with state := fun _ _ => none } d s = true)
    (r : x.state (spent x d (noted d s)) (ctxOf (noted d s) (x.role (noted d s)) d) = none) : Goes x d s := by
  refine goes_of (Eq.trans ?_ h)
  have e : spent { x with state := fun _ _ => none } d (noted d s) = spent x d (noted d s) := rfl
  simp only [goesB, checkRest, checkRes, checkState, checkArgs, mustWait, needsReady, usesFalcon, e, r]

theorem orFail_pass {c : Bool} {st : Nat} (h : c = true) : orFail c st = none := by rw [h]; rfl

theorem test_goes_meterEnter : Goes meterEnterDef (opDesc (le 4 6 ++ le 8 6 ++ le 8 6)) rich :=
  goes_res (by decide +kernel) (orFail_pass (Laws.enterNames_of_few _ _ _ _ (by decide)))

theorem test_goes_ledgerRetentionSet (h : Config.ledgerHolds (rawCapacity rich) 62 = true) : Goes ledgerRetentionSetDef (opDesc (le 2 62)) rich :=
  goes_res (by decide +kernel) (orFail_pass h)

theorem test_goes_storageParamsLoad (h : Config.logHolds 62 (rawCapacity rich) = true) :
    Goes storageParamsLoadDef (opDesc [] (le 2 62 ++ le 2 40 ++ le 2 80 ++ le 2 300 ++ le 2 100 ++ le 2 3000 ++ le 4 30000 ++ le 8 0x40000000 ++ zeros 8)) rich :=
  goes_res (by decide +kernel) (orFail_pass h)

theorem test_goes_pairConfigure (d : Desc) (e : d = secDesc [20#8] (le 4 1 ++ le 4 2 ++ zeros 232))
    (h : pairConfigureDef.args (noted d rich) (ctxOf (noted d rich) .secur d) = none) : Goes pairConfigureDef d rich :=
  goes_args (by rw [e]; decide +kernel) h

theorem test_goes_imageVerify (f : Firmware) (h : imageVerifyDef.state (noted (opDesc []) { rich with fw := f }) (ctxOf (noted (opDesc []) { rich with fw := f }) .oper (opDesc [])) = none) :
    Goes imageVerifyDef (opDesc []) { rich with fw := f } := by
  refine goes_state (Eq.trans (b := goesB { imageVerifyDef with state := fun _ _ => none } (opDesc []) rich) rfl (by decide +kernel)) h

theorem test_goes_meterImageVerify
    (h : imageGood { rich with dl := { images := [(1, { length := 1500, blocks := [(0, zeros 1500)], usable := false })] } }
      { length := 1500, blocks := [(0, zeros 1500)], usable := false } = true) :
    Goes meterImageVerifyDef (opDesc [1#8])
      { rich with dl := { images := [(1, { length := 1500, blocks := [(0, zeros 1500)], usable := false })] } } :=
  goes_state (by decide +kernel) (orFail_pass h)

/-- The same for a signed-only command's argument check. -/
theorem goes_signed_args {x : CmdDef} {d : Desc} {s : State} (n : Nat)
    (h : goesS { x with args := fun _ _ => none } d s n = true) (v : sealOk x d s n)
    (r : x.args (spent x d (noted d s)) (ctxOf (noted d s) .signed d) = none) : Goes x d s := by
  refine goes_signed n (Eq.trans ?_ h) v
  have e : spent { x with args := fun _ _ => none } d (noted d s) = spent x d (noted d s) := rfl
  simp only [goesS, checkRest, checkRes, checkState, checkArgs, mustWait, needsReady, usesFalcon, e, r]

theorem test_goes_transportEstablish (d : Desc) (e : d = signedDesc (le 2 20 ++ le 2 30 ++ zeros 97)) (v : sealOk transportEstablishDef d rich 101)
    (h : transportEstablishDef.args (spent transportEstablishDef d (noted d rich)) (ctxOf (noted d rich) .signed d) = none) :
    Goes transportEstablishDef d rich := by
  subst e; exact goes_signed_args 101 (by decide +kernel) v h

theorem test_goes_enrol (d : Desc) (e : d = signedDesc (zeros 3073)) :
    (sealOk authorityEnrolDef d rich 3073
        → authorityEnrolDef.args (spent authorityEnrolDef d (noted d rich)) (ctxOf (noted d rich) .signed d) = none → Goes authorityEnrolDef d rich)
      ∧ (sealOk cosignEnrolDef d rich 3073
        → cosignEnrolDef.args (spent cosignEnrolDef d (noted d rich)) (ctxOf (noted d rich) .signed d) = none → Goes cosignEnrolDef d rich) := by
  subst e
  exact ⟨fun v h => goes_signed_args 3073 (by decide +kernel) v h, fun v h => goes_signed_args 3073 (by decide +kernel) v h⟩

theorem test_goes_keyImport (d : Desc) (e : d = signedDesc (le 2 0x10 ++ le 2 1 ++ zeros 80)) (v : sealOk keyImportDef d rich 84)
    (h : keyImportDef.args (spent keyImportDef d (noted d rich)) (ctxOf (noted d rich) .signed d) = none) : Goes keyImportDef d rich := by
  subst e; exact goes_signed_args 84 (by decide +kernel) v h

/-- The same for arguments and state together. -/
theorem goes_args_state {x : CmdDef} {d : Desc} {s : State}
    (h : goesB { x with args := fun _ _ => none, state := fun _ _ => none } d s = true)
    (a : x.args (spent x d (noted d s)) (ctxOf (noted d s) (x.role (noted d s)) d) = none)
    (r : x.state (spent x d (noted d s)) (ctxOf (noted d s) (x.role (noted d s)) d) = none) : Goes x d s := by
  refine goes_of (Eq.trans ?_ h)
  have e : spent { x with args := fun _ _ => none, state := fun _ _ => none } d (noted d s) = spent x d (noted d s) := rfl
  simp only [goesB, checkRest, checkRes, checkState, checkArgs, mustWait, needsReady, usesFalcon, e, a, r]

theorem test_goes_migrateLoad (p : Bytes) (d : Desc) (e : d = { opDesc [2#8] with plen := 4261952#32, payload := p })
    (h : migrateLoadDef.args (noted d rich) (ctxOf (noted d rich) .oper d) = none)
    (g : migrateLoadDef.state (noted d rich) (ctxOf (noted d rich) .oper d) = none) : Goes migrateLoadDef d rich := by
  refine goes_args_state ?_ h g
  rw [e]
  exact Eq.trans (b := goesB { migrateLoadDef with args := fun _ _ => none, state := fun _ _ => none }
    { opDesc [2#8] with plen := 4261952#32, payload := [] } rich) rfl (by decide +kernel)

theorem test_witness_HostCommandsTakeEffect : hostDef (.shareSet (opDesc [2#8])) = some (shareSetDef, opDesc [2#8]) := rfl

theorem test_witness_WrongRoleIsIgnored :
    hostDef (.yewHoldSet (opDesc [30#8])) = some (yewHoldSetDef, opDesc [30#8]) ∧ Serving (opDesc [30#8]) rich ∧ mustWait yewHoldSetDef (opDesc [30#8]) rich = false
      ∧ FirstSeen yewHoldSetDef (opDesc [30#8]) rich
      ∧ admitted (yewHoldSetDef.role (noted (opDesc [30#8]) rich)) (opDesc [30#8]) (noted (opDesc [30#8]) rich) = false := by
  refine ⟨rfl, ⟨rfl, rfl, rfl, rfl⟩, by decide +kernel, ?_, by decide +kernel⟩
  intro y hy
  rw [show session rich (opDesc [30#8]).session = some (sess 1 1) from by decide +kernel, Option.some.injEq] at hy
  subst hy
  exact ⟨rfl, Or.inl rfl⟩

theorem test_witness_UndefinedOpcodeIsIgnored :
    Serving (opDesc []) rich ∧ ringWaits (opDesc []) rich = false
      ∧ (let w : Waiting := { ring := (opDesc []).ring.val, objects := [], cmd := .shareSet (opDesc [2#8]) }
         let s := { rich with host := { rich.host with waiting := [w] } }
         Serving (opDesc []) s ∧ ringWaits (opDesc []) s = true) := by
  refine ⟨⟨rfl, rfl, rfl, rfl⟩, by decide +kernel, ⟨rfl, rfl, rfl, rfl⟩, by decide +kernel⟩

/-- The device once session 1 has recorded tag 1 as complete. -/
def recdU : Session := { sess 1 1 with highest := some 1#32, records := [{ tag := 1#32, completion := some (plain 1#32 0 []) }] }
def upRec : State := { rich with host := { rich.host with sessions := [recdU] } }

theorem test_witness_RepeatedTagIsAnsweredAgain :
    hostDef (.shareSet (opDesc [2#8])) = some (shareSetDef, opDesc [2#8]) ∧ Serving (opDesc [2#8]) upRec ∧ mustWait shareSetDef (opDesc [2#8]) upRec = false
      ∧ session upRec (opDesc [2#8]).session = some recdU ∧ belowWindow recdU (opDesc [2#8]).tag = false
      ∧ recorded recdU (opDesc [2#8]).tag = some { tag := 1#32, completion := some (plain 1#32 0 []) } ∧ shareSetDef.role upRec ≠ .any := by
  refine ⟨rfl, ⟨rfl, rfl, rfl, rfl⟩, ?_, ?_, ?_, ?_, ?_⟩ <;> decide +kernel

/-- The device while a command of session 1 on the shares runs. -/
def upBusy : State :=
  { rich with host := { rich.host with running := [{ session := 1#32, tag := 9#32, rings := [(0, false)], objects := [(8, 0)] }] } }

theorem test_witness_WaitingCommandsKeepTheirPlace :
    hostDef (.shareSet (opDesc [2#8])) = some (shareSetDef, opDesc [2#8]) ∧ Serving (opDesc [2#8]) upBusy ∧ mustWait shareSetDef (opDesc [2#8]) upBusy = true :=
  ⟨rfl, ⟨rfl, rfl, rfl, rfl⟩, by decide +kernel⟩

theorem test_witness_FirmwareSlotsTurn :
    (let s := { rich with fw := { b := { state := .trial }, runningB := true, activeB := true, trialAt := tb6 up - 600 * nsPerS } }
     s.dev.phase = .running ∧ inTrial s = true ∧ s.fw.expired = false ∧ s.fw.trialAt + 600 * nsPerS ≤ tb6 s)
      ∧ (let s := { rich with vlt := { rich.vlt with swapDue := true } }
         s.vlt.swapDue = true ∧ s.pwr.owners = []) := by decide +kernel

/-! ### Channels and ports -/

/-- A channel of port 2, plan 1, a member of group 3. -/
def upChan : State :=
  { up with lane := { chans := [(7, { groupMask := 8#16 })], applyPending := [(tb6 up, List.range 256)] } }
def upPort (p : Port) : State := { up with lane := { ports := [(2, p)] } }
def launchU : Launch := { lc := 7, launch := 0, airtime := 1000, symbol := 100, frame := [1#8], isAck := false }

theorem test_witness_BroadcastReachesItsTargets :
    upChan.dev.phase = .running ∧ (chan upChan 7).groupMask.getLsbD 3 = true ∧ (chan upChan 8).groupMask.getLsbD 3 = false := by decide +kernel

theorem test_witness_ApplyTakesOrRefuses :
    (1#32 : Word).getLsbD 0 = true ∧ upChan.lane.applyPending = (tb6 up, List.range 256) :: [] ∧ owesAck upChan (List.range 256) = false
      ∧ (8 : Nat) ≠ 7 := by decide +kernel

theorem test_witness_PortStatesFollow :
    (let s := upPort { state := .training, format := 0#8 }; (port s 2).state = .training ∧ (port s 2).configured = true)
      ∧ (port (upPort { state := .aligned }) 2).state = .aligned ∧ (port (upPort { state := .up }) 2).state = .up
      ∧ (let s := upPort { state := .down, retrainAt := tb6 up }; (port s 2).state = .down ∧ (port s 2).retrainAt ≤ tb6 s) := by decide +kernel

theorem test_witness_CalibrationIsSwapped :
    (let s := upPort { state := .up, calibrated := tb6 up - 10 * nsPerS }
     (port s 2).state = .up ∧ (port s 2).calibrated + 10 * nsPerS ≤ tb6 s ∧ (port s 2).eraseUntil ≤ portNow s 2)
      ∧ (let s := upPort { state := .up, swapDue := true, swapMisses := 3 }; (port s 2).swapDue = true ∧ (port s 2).state = .up ∧ 3 ≤ (port s 2).swapMisses)
      ∧ (let s := upPort { state := .up, swapDue := true, calibrated := tb6 up - swapSearch }
         (port s 2).swapDue = true ∧ (port s 2).state = .up ∧ tb6 s ≤ (port s 2).calibrated + swapSearch)
      ∧ (let s := { up with lane := { microcodeDue := [2] } }; 2 ∈ s.lane.microcodeDue ∧ inProgress s 2 = [] ∧ (port s 2).queue = []) := by
  decide +kernel

theorem test_witness_LaunchesStartInOrder :
    let s := upPort { state := .up, queue := [launchU] }
    s.dev.phase = .running ∧ (port s 2).queue = launchU :: []
      ∧ laneStart s (chan s launchU.lc).act launchU.launch ≤ macNow s (chan s launchU.lc).act ∧ (inProgress s 2).length < 16 := by decide +kernel

/-! ### Hedgerow -/

/-- Channel 3 on port 2: Hedgerow, network 1, plan 5, receiving and sending. -/
def hrCfgU : ChanCfg := { bind := 0x52#32, mac := 0x31#32, hrNet := 0x00080001#32 }

/-- A field device in network 1 with neighbour 9, three seconds into a superframe. -/
def hrUp (h : HrNet) : State :=
  { up with
    dev := { up.dev with core := false }
    tim := { timeU with tb4 := timeU.tb4 + 3 * 10 ^ 21 }
    lane := { ports := [(2, { state := .up })], chans := [(3, { act := hrCfgU, shadow := hrCfgU })] }
    met := { shards := [(0, { state := .held })] }
    hr := [(1, h)] }

/-- A Hedgerow frame of network 1 from neighbour 9 to the device, its checks right. -/
def hrBytesU (fc seq end_ level : Nat) (payload : Bytes) : Bytes :=
  let h := le 2 fc ++ le 2 1 ++ le 2 seq ++ le 2 9 ++ le 2 0 ++ le 2 end_ ++ le 2 payload.length ++ le 1 level ++ zeros 3
  let f := h ++ le 2 (crc16 h).toNat ++ payload
  f ++ le 4 (crc32c f).toNat

def hrRxU (bytes : Bytes) : HrRx :=
  { lc := 3, bytes, blanked := 0, rssi := 0, snr := List.replicate 24 40, span := (10 ^ 16, 10 ^ 16 + 61000000), sfd := 10 ^ 16 }

/-- A frame sent to neighbour 9 with sequence 4. -/
def hrTxU (type : Nat) (sent : Bool) : HrTx := { dest := 9, type, seq := 4#16, endAddr := 9, payload := zeros 4, sent, lc := some 3 }

theorem test_witness_HedgerowDataIsTakenOrRefused :
    let r := hrSeen (hrUp {}) (hrRxU (hrBytesU 0x41 4 9 0 (zeros 8)))
    hrReaches htData r (hrUp {}) ∧ hrWhole r (hrUp {}) ∧ hrNew r (hrUp {}) ∧ (hrUp {}).dev.phase = .running
      ∧ drained (hrUp {}) (linkAddress 0 r.bytes / 4096) = false ∧ mayTake (intakeSize r.bytes) (hrUp {}) = true := by
  simp only [hrReaches, hrWhole, hrNew]; decide +kernel

theorem test_witness_HedgerowDataIsRefused :
    let s := { hrUp {} with dev := { (hrUp {}).dev with refusedShared := true } }
    let r := hrSeen s (hrRxU (hrBytesU 0x41 4 9 0 (zeros 8)))
    hrReaches htData r s ∧ hrWhole r s ∧ hrNew r s ∧ drained s (linkAddress 0 r.bytes / 4096) = false
      ∧ mayTake (intakeSize r.bytes) s = false := by
  simp only [hrReaches, hrWhole, hrNew]; decide +kernel

theorem test_witness_HedgerowFramesAct_answers :
    (let s := hrUp { tx := [hrTxU 1 true] }
     let r := hrSeen s (hrRxU (hrBytesU 0x42 4 9 0 []))
     let u := onLink r (fun y => { y.heard r.lc (meanSnr (chan s r.lc).act.plan r) with fails := failsLeft (chan s r.lc).act y })
       (countStat r.lc stRxDetect 1 s)
     hrWhole r s ∧ hrReaches htAck r s ∧ sentTx u (hfNet r.bytes) (hfSource r.bytes) (hfSeq r.bytes) = some (hrTxU 1 true))
      ∧ (let s := hrUp { tx := [hrTxU 1 true] }
         let r := hrSeen s (hrRxU (hrBytesU 0x43 4 9 0 []))
         let u := onLink r (fun y => { y.heard r.lc (meanSnr (chan s r.lc).act.plan r) with fails := failsLeft (chan s r.lc).act y })
           (countStat r.lc stRxDetect 1 s)
         hrWhole r s ∧ hrReaches htNack r s
           ∧ sentTx u (hfNet r.bytes) (hfSource r.bytes) (hfSeq r.bytes) = some (hrTxU 1 true))
      ∧ (let r := hrSeen (hrUp {}) (hrRxU (hrBytesU 0x40 4 9 0 (zeros 32)))
         let said := nsOf (field (hrPayload r.bytes) 4 12) + hfLevel r.bytes * bslOf (hrUp {}) (hfNet r.bytes)
         hrWhole r (hrUp {}) ∧ hrReaches htBeacon r (hrUp {})
           ∧ bslOf (hrUp {}) (hfNet r.bytes) < (said - r.span.1) + (r.span.1 - said)) := by
  simp only [hrReaches, hrWhole]; decide +kernel

theorem test_witness_HedgerowFramesAct_entries :
    (let s := hrUp { neigh := [(9, {})] }
     let r := hrSeen s (hrRxU (hrBytesU 0x44 4 9 0 (zeros 12)))
     hrWhole r s ∧ hrReaches htToneMap r s ∧ hrNew r s ∧ (neigh s (hfNet r.bytes) (hfSource r.bytes)).isSome = true ∧ hfWants r.bytes = false)
      ∧ (let s := { hrUp { neigh := [(9, {})] } with tim := { timeU with tb4 := 10 ^ 28 + 61 * 10 ^ 18 } }
         let r := hrSeen s (hrRxU (hrBytesU 0x54 4 9 0 (zeros 12)))
         let c := (chan s r.lc).act
         hrWhole r s ∧ hrReaches htToneMap r s ∧ hrNew r s ∧ (neigh s (hfNet r.bytes) (hfSource r.bytes)).isSome = true
           ∧ hfWants r.bytes = true ∧ hfBit r.bytes 9 = false ∧ canSend s r.lc = true ∧ earliestLaunch s c ≤ r.span.2 + ackGap
           ∧ (port s c.port).queue.length < 32 ∧ tb4 s ≤ r.span.2 + takeDeadline)
      ∧ (let s := hrUp { neigh := [(9, {})] }
         let r := hrSeen s (hrRxU (hrBytesU 0x47 4 9 0 (zeros 12)))
         hrWhole r s ∧ hrReaches htReport r s ∧ hrNew r s ∧ hfWants r.bytes = false ∧ hfEnd r.bytes = hfSource r.bytes
           ∧ (neigh s (hfNet r.bytes) (hfSource r.bytes)).isSome = true)
      ∧ (let s := hrUp {}
         let r := hrSeen s (hrRxU (hrBytesU 0x45 4 9 0 (zeros 24)))
         hrWhole r s ∧ hrReaches htJoinReq r s ∧ maySend s = true ∧ hfWants r.bytes = false ∧ joinSlot s (hrPayload r.bytes) = none) := by
  simp only [hrReaches, hrWhole, hrNew]; decide +kernel

theorem test_witness_HedgerowTimersAct_beacon :
    let s := { hrUp {} with dev := up.dev }
    let chans := (hrChans s 1).filter fun lc => canSend s lc
    let soonest := chans.foldl (fun m lc => max m (earliestLaunch s (chan s lc).act)) (tb4 s)
    let instant := beaconAt (hrCfg s 1) (max ((({} : HrNet).lastBeacon) + 1) soonest)
    s.dev.phase = .running ∧ Tbl.get s.hr 1 = some {} ∧ ({} : HrNet).next = none ∧ maySend s = true ∧ hrChans s 1 ≠ []
      ∧ instant ≤ tb4 s + max 1 (hrCfg s 1).period * nsPerS := by decide +kernel

theorem test_witness_HedgerowTimersAct_sends :
    (let s := hrUp { tx := [hrTxU 5 false] }
     let x := hrTxU 5 false
     let lc := txChan s 1 x
     let start := earliestLaunch s (chan s lc).act
     nextTx s 1 = some x ∧ maySend s = true ∧ x.assessed + 1 < (hrCfg s 1).maxCsma ∧ x.bcast = false
       ∧ capFits s 1 (chan s lc).act.plan start (txBytes s 1 (chan s lc).act x).2 = true)
      ∧ (let s := hrUp { tx := [hrTxU 1 true] }
         overdue s 1 9 = some (hrTxU 1 true) ∧ (hrTxU 1 true).sent = true ∧ (hrTxU 1 true).type ≠ htToneMap)
      ∧ (let s := hrUp { tx := [hrTxU htToneMap false] }
         overdue s 1 9 = some (hrTxU htToneMap false) ∧ (hrTxU htToneMap false).sent = false) := by
  decide +kernel

/-- A backoff of at most 2^BE - 1 units has ended, whatever its draw, when 2^BE units have passed. -/
theorem backoff_ended (c : ChanCfg) (plan cap now : Nat) (t : HrTx)
    (h : max cap t.since + 2 ^ max t.be c.minBe * backoffUnit plan ≤ now) : assessedAt c plan cap t ≤ now :=
  Nat.le_trans (Nat.add_le_add_left (Nat.mul_le_mul_right _ (Nat.mod_lt _ (Nat.pow_pos (by decide)))) _) h

theorem test_witness_HedgerowTimersAct_assessed :
    let s := hrUp { tx := [hrTxU 5 false] }
    inCap s 1 (tb4 s) (tb4 s) = true
      ∧ assessedAt (hrCfg s 1) (chan s (txChan s 1 (hrTxU 5 false))).act.plan (capOf s 1 (tb4 s)).1 (hrTxU 5 false) ≤ tb4 s :=
  ⟨by decide +kernel, backoff_ended _ _ _ _ _ (by decide +kernel)⟩

theorem test_witness_HedgerowTimersAct_ages :
    (let x : Neigh := { tx := some {} }
     let s := hrUp { neigh := [(9, x)] }
     neigh s 1 9 = some x ∧ x.tx = some {} ∧ mapOld s (hrCfg s 1) {} = true)
      ∧ (let s := hrUp { changed := true }
         (hrNet s 1).changed = true ∧ maySend s = true ∧ (hrNet s 1).next = none
           ∧ (hrNet s 1).recomputed + (hrCfg s 1).routeInterval * nsPerS ≤ tb6 s
           ∧ (newRoutes (hrNet s 1) (hrCfg s 1).maxLevel (hrCfg s 1).hysteresis).all
               (fun p => decide (routeNow (hrNet s 1) p.1 = p.2)) = true) := by decide +kernel

/-- The six writes and launches of TheseCommandsComplete, each clause at a value of its own. -/
theorem test_witness_TheseCommandsComplete :
    (targets upChan 0x20500 = [] ∧ targets upChan 0x20300 = [7] ∧ 0x20300 % 256 < 0x80 ∧ 0x20300 % 4 = 0
        ∧ 0x80 ≤ 0x20380 % 256 ∧ 0x20301 % 4 ≠ 0)
      ∧ (let s := { up with tim := { timeU with domA := { cfg := 0x101#32, want := 0x101#32, state := .listening } } }
         let t := { up with tim := { timeU with domA := { cfg := 0x101#32, want := 0x101#32, state := .locked } } }
         let clash (b : Bool) (v : Word) := cfgClash (v &&& 0xFF07#32) (dom s (!b)).want
         clash true 0x101#32 = true ∧ clash false 0x201#32 = false ∧ (dom s false).state = .listening
           ∧ (dom s true).state = .disabled ∧ cfgClash (0x201#32 &&& 0xFF07#32) (dom t true).want = false
           ∧ (dom t false).state ≠ .disabled ∧ (dom t false).state ≠ .listening)
      ∧ (let s := hrUp { changed := true, neigh := [(9, { level := 2 })] }
         let h := hrNet s 1
         h.changed = true ∧ maySend s = true ∧ h.next = none ∧ h.recomputed + (hrCfg s 1).routeInterval * nsPerS ≤ tb6 s
           ∧ ∃ p ∈ newRoutes h (hrCfg s 1).maxLevel (hrCfg s 1).hysteresis, routeNow h p.1 ≠ p.2)
      ∧ (hrNet (hrUp {}) 1).changed = false
      ∧ (let s := upPort { state := .up, queue := [{ launchU with launch := 2 * 10 ^ 16 }] }
         (port s 1).queue = [] ∧ (port s 2).queue = { launchU with launch := 2 * 10 ^ 16 } :: []
           ∧ macNow s (chan s launchU.lc).act < laneStart s (chan s launchU.lc).act (2 * 10 ^ 16)) := by
  decide +kernel

/-- A slot with both names zero, as a JOIN_REQ of zeros asks for it. -/
def joinUp (h : List (Nat × HrNet)) : State :=
  { hrUp {} with met := { slots := [(5, { state := .active })], shards := [(0, { state := .held })] }, hr := h }

theorem test_witness_TheseCommandsComplete_joins :
    (let s := joinUp [(1, {})]
     let r := hrSeen s (hrRxU (hrBytesU 0x45 4 9 0 (zeros 24)))
     let u := measure r false (countStat r.lc stRxDetect 1 s)
     hrWhole r s ∧ hrReaches htJoinReq r s ∧ maySend s = true ∧ hfWants r.bytes = false ∧ joinSlot s (hrPayload r.bytes) = some 5
       ∧ (neigh u 1 5).isNone = true ∧ neighboursFull u = false) := by
  simp only [hrReaches, hrWhole]; decide +kernel

/-- The table is full where another network holds 65,536 neighbours. -/
theorem full_of_length (s : State) (l : List (Nat × Neigh)) (hl : l.length = 65536) :
    neighboursFull { s with hr := [(1, {}), (2, { neigh := l })] } = true := by
  simp [neighboursFull, neighboursInUse, hl]

theorem test_witness_TheseCommandsComplete_full :
    neighboursFull (joinUp [(1, {}), (2, { neigh := List.replicate 65536 (0, {}) })]) = true :=
  full_of_length (joinUp []) _ List.length_replicate

/-! ### Bramble -/

/-- Channel 1 on port 0: Bramble, network 1, plan 1, centre 0, receiving and sending, rendezvous on 0. -/
def brCfgV : ChanCfg := { bind := 0x10#32, mac := 0x32#32, brNet := 0x0A000001#32, brRdv := 0#32 }

/-- A field device in Bramble network 1 with a connection of slot 5, whose map holds index 0 alone. -/
def connV : Conn :=
  { slot := 5, net := 1, aw := 0x12345678#32, state := .connected, params := { interval := 1000, timeout := 4000, phy := 0, map := 1#256 }, ppm := 0, n0 := 0,
    a0 := 10 ^ 16, open_ := false, stored := 0, superviseAt := 10 ^ 16, win := none, lastCopy := none, txSeq := 4#16, lc := some 1, update := none,
    terminating := none, down := [], sentNow := false, restore := none, resp := none }
def brUp (c : Conn) : State :=
  { up with
    dev := { up.dev with core := false }
    lane := { ports := [(0, { state := .up })], chans := [(1, { act := brCfgV, shadow := brCfgV })] }
    met := { slots := [(5, { state := .active, eui := 5#64, title := 5#64 })], shards := [(0, { state := .held })] }
    br := { conns := [(5, c)] } }

/-- A Bramble frame of network 1 under an access word, its checks right. -/
def brBytesU (aw fc seq counter : Nat) (payload : Bytes) : Bytes :=
  let h := le 4 aw ++ le 2 fc ++ le 2 1 ++ le 2 seq ++ le 2 5 ++ le 4 counter ++ le 2 payload.length
  let f := h ++ le 2 (crc16 h).toNat ++ payload
  f ++ le 4 (crc32c f).toNat

def brRxU (index : Nat) (bytes : Bytes) : BrRx :=
  { lc := 1, index, bytes, blanked := 0, rssi := 0, span := (10 ^ 16, 10 ^ 16 + 1000000), sfd := 10 ^ 16 }

theorem test_witness_BrambleDataIsTaken :
    let c := { connV with open_ := true }
    let s := brUp c
    let r := brSeen s (brRxU 0 (brBytesU 0x12345678 1 4 0 (zeros 8)))
    s.dev.phase = .running ∧ brReaches r s ∧ bfType r.bytes = btData ∧ connByWord s (bfWord r.bytes) = some (5, c)
      ∧ Tbl.get s.br.conns 5 = some c ∧ c.update = none ∧ c.state = .connected
      ∧ hopFits (chan s r.lc).act c false (bfCounter r.bytes) r.index = true ∧ counterFits (chan s r.lc).act c false (bfCounter r.bytes) r.span.1 = true
      ∧ classify c.win (bfSeq r.bytes) = .new ∧ drained s (linkAddress 1 r.bytes / 4096) = false
      ∧ mayTake (intakeSize r.bytes) s = true ∧ bfWants r.bytes = false := by
  simp only [brReaches]; decide +kernel

theorem test_witness_BrambleFramesAct_request :
    (let s := brUp connV
     let r := brSeen s (brRxU 0 (brBytesU 0xD3A15C27 4 4 0 (zeros 24)))
     brReaches r s ∧ bfType r.bytes = btConnectReq ∧ bfWord r.bytes = rdvWord ∧ r.index ∈ (chan s r.lc).act.rdv ∧ maySend s = true
       ∧ joinSlot s (brPayload r.bytes) = none)
      ∧ (let s := brUp connV
         let r := brSeen s (brRxU 0 (brBytesU 0xD3A15C27 4 4 0 (le 8 5 ++ le 8 5 ++ zeros 8)))
         brReaches r s ∧ bfType r.bytes = btConnectReq ∧ bfWord r.bytes = rdvWord ∧ r.index ∈ (chan s r.lc).act.rdv
           ∧ joinSlot s (brPayload r.bytes) = some 5 ∧ (conn s 5).isSome = true ∧ accepting s = true ∧ s.vlt.trngFailed = false) := by
  simp only [brReaches]; decide +kernel

theorem test_witness_BrambleFramesAct_answers :
    (let c := { connV with sentNow := true, down := [(1, [1#8], 1)] }
     let s := brUp c
     let r := brSeen s (brRxU 0 (brBytesU 0x12345678 2 4 0 []))
     let u := brIntactState r s
     brReaches r s ∧ bfType r.bytes = btAck ∧ connByWord s (bfWord r.bytes) = some (5, c) ∧ c.sentNow = true ∧ c.txSeq = bfSeq r.bytes
       ∧ c.event = bfCounter r.bytes ∧ ∃ c1, conn (downAcked 5 u) 5 = some c1
       ∧ downDue (chan (downAcked 5 u) r.lc).act c1 (r.span.2 + brGap) = none)
      ∧ (let c := { connV with sentNow := true }
         let s := brUp c
         let r := brSeen s (brRxU 0 (brBytesU 0x12345678 3 4 0 []))
         brReaches r s ∧ bfType r.bytes = btNack ∧ connByWord s (bfWord r.bytes) = some (5, c) ∧ c.sentNow = true ∧ c.txSeq = bfSeq r.bytes) := by
  simp only [brReaches]
  refine ⟨⟨by decide +kernel, by decide +kernel, by decide +kernel, by decide +kernel, by decide +kernel, by decide +kernel,
    { connV with txSeq := 5#16 }, by decide +kernel, by decide +kernel⟩, by decide +kernel⟩

theorem test_witness_BrambleFramesAct_lost :
    let l : Word × Nat × Nat × Nat × Nat := (0x87654321#32, 6, tb6 up + 1, 1, 0)
    let s := { brUp connV with br := { lost := [l] } }
    let r := brSeen s (brRxU 0 (brBytesU 0x87654321 1 4 0 (zeros 8)))
    brReaches r s ∧ bfType r.bytes = btData ∧ bfWord r.bytes ≠ rdvWord ∧ connByWord s (bfWord r.bytes) = none
      ∧ lostByWord s (bfWord r.bytes) = some l := by
  simp only [brReaches]; decide +kernel

/-- An update of the connection whose instant has passed. -/
def updU : BrUpdate := { params := connV.params, instant := 0, acked := false, both := false, isMap := true, ready := true, attempts := 1 }

theorem test_witness_BrambleTimersAct_connections :
    (let c := { connV with state := .offered }; conn (brUp c) 5 = some c ∧ supervisedTo (brUp c) c ≤ tb6 (brUp c) ∧ c.state = .offered)
      ∧ (conn (brUp connV) 5 = some connV ∧ supervisedTo (brUp connV) connV ≤ tb6 (brUp connV) ∧ connV.state = .connected ∧ Tbl.wf (brUp connV).br.conns = true)
      ∧ (let c := { connV with update := some updU }
         conn (brUp c) 5 = some c ∧ c.update = some updU ∧ 0 < updU.attempts ∧ updU.acked = false ∧ updU.both = false
           ∧ anchorOf c false updU.instant ≤ (tb5 (brUp c) : Int))
      ∧ (let c := { connV with terminating := some (0, some 0), a0 := 10 ^ 16 - 750000000 }
         conn (brUp c) 5 = some c ∧ c.terminating = some (0, some 0) ∧ 3 ≤ evDiff c.n0 0 + ((tb5 (brUp c) : Int) - c.a0) / max 1 c.params.ns) := by
  decide +kernel

theorem test_witness_BrambleTimersAct_network :
    (brUp connV).br.qualityAt + 60 * nsPerS ≤ tb6 (brUp connV)
      ∧ (let s := { brUp connV with br := { removed := [(1, 0, tb6 up)] } }
         (s.br.removed.any fun x => x.1 == 1 && x.2.1 == 0 && decide (x.2.2 ≤ tb6 s)) = true)
      ∧ (let s := { brUp connV with pwr := { doms := [(4, { watch := true })] } }
         0 < 4 ∧ (Tbl.getD s.pwr.doms (4 + 0) {}).watch = true ∧ inBurst s 0 = true ∧ 0 ∉ s.lane.watchBurst)
      ∧ inBurst { brUp connV with tim := { timeU with tb5 := timeU.tb5 + 900 * 10 ^ 18 } } 0 = false
      ∧ (let s := brUp connV
         let lcs := brCfgV.rdv.filterMap fun i => (netChans s 2 1).find? fun lc => (chan s lc).act.centre == i && canSend s lc
         let second := ceilDiv (lcs.foldl (fun m lc => max m (earliestLaunch s (chan s lc).act)) (tb5 s)) nsPerS
         brNet s 1 = some brCfgV ∧ maySend s = true ∧ Tbl.getD s.br.rdvSecond 1 0 < second ∧ second * nsPerS ≤ tb5 s + nsPerS) := by
  decide +kernel

/-! ### Background, schedule, ledger, loss -/

/-- A field device with slot 5 of layout 1 and rule set 1, one interval kept, the next missing. -/
def ivU (end_ : Nat) : Interval :=
  { end_, flags := 0#16, e := [0, 0, 0, 0], v := [], asn := 1, status := 0, method := 0, rules := 0#16, capture := 900, inDemand := true }
def seenU (end_ : Nat) : EndSeen := { end_, capture := 900, measured := true, half := false }
def gapU : State :=
  { up with
    dev := { up.dev with core := false }
    met := { slots := [(5, { state := .active, layout := 1, ruleSet := 1, ring := [ivU 9901800, ivU 9900000],
                                   valid := { ends := [seenU 9901800, seenU 9900000] } })], shards := [(0, { state := .held })],
             layouts := [(1, { isList := false, capture := 900, cols := [] })], ruleSets := [(1, [{ type := 11, qty := 0, n := 1, a := 0, b := 0 }])] } }
def layU : Layout := { isList := false, capture := 900, cols := [] }

theorem test_witness_BackgroundWorkActs_estimates :
    gapU.tim.zone = some zoneU ∧ tb3Valid gapU = true ∧ estimateRules gapU 5 ≠ []
      ∧ Tbl.get gapU.met.layouts (slot gapU 5).layout = some layU ∧ (slot gapU 5).state ≠ .empty ∧ layU.isList = false ∧ 900 ≤ layU.capture
      ∧ (shard gapU (shardOf 5)).state = .held ∧ exportsOpened gapU 5 = false ∧ gapU.lt.groups = [] ∧ ownerRuns gapU 5 = true
      ∧ firstRun layU.capture (missingEnds zoneU (slot gapU 5) layU.capture (estimateWait (estimateRules gapU 5)) (tb2s gapU)) ≠ [] := by
  decide +kernel

def intakeU : Intake := { seq := 1, stamp := 0, frame := zeros 32, origin := 2, lc := 0xFF, port := 0xFF, rssi := 0, transparent := false }

theorem test_witness_BackgroundWorkActs_frames :
    (let s := { up with met := { slots := [(5, { state := .commissioning, commEnd := tb2s up })] } }
     (slot s 5).state = .commissioning ∧ (slot s 5).commEnd ≤ tb2s s)
      ∧ (shardExists up 255 = true ∧ 15 < 16 ∧ engineUp up 15 = true)
      ∧ (let s := { up with prot := { intake := [intakeU] } }; opens s = true ∧ s.prot.intake = intakeU :: [] ∧ deliverable s intakeU = true) := by decide +kernel

def listU (activation cover : Nat) : SwitchList := { id := 1#32, initial := 0, activation, cover, entries := [], bytes := [] }

/-- The device with plan 0 in the given state. -/
def planUp (p : PlanState) : State :=
  { up with tar := { plans := [(0, p)] }, met := { slots := [(5, { state := .active })], shards := [(0, { state := .held })] } }

/-- A frame of a slot whose quad sleeps is not deliverable. -/
theorem test_witness_BackgroundWorkActs_crossing :
    (let e := { intakeU with origin := 0, transparent := true }
     let s := { up with met := { shards := [(0, { state := .held, owner := some 4 })] }, pwr := { doms := [(1, { state := 1 })] },
                        prot := { intake := [e] } }
     opens s = true ∧ s.prot.intake = [e] ∧ deliverable s e = false) := by decide +kernel

theorem test_witness_ScheduleEventsAct :
    (let s := planUp { plan := planU, issued := [9990000, 9990000, 9990000] }
     s.dev.phase = .running ∧ s.tim.zone = some zoneU ∧ tb3Valid s = true ∧ s.dev.waitTb3 = false
       ∧ ∃ t, nextInstant zoneU (startPlans s) = some t ∧ t ≤ tb2s s)
      ∧ (let s := planUp { plan := planU, passive := some (listU 9999960 10000020) }
         ∃ ps, planAt s 0 = some ps ∧ ps.passive = some (listU 9999960 10000020) ∧ (listU 9999960 10000020).activation ≤ tb2s s)
      ∧ (let c : Calendar := { id := 1#32, activation := 9999960, bytes := [] }
         let s := planUp { plan := planU, nextCalendar := some c }
         ∃ ps, planAt s 0 = some ps ∧ ps.nextCalendar = some c ∧ c.activation ≤ tb2s s)
      ∧ (let s := planUp { plan := planU, active := some (listU 9990000 9999960) }
         ∃ ps t, planAt s 0 = some ps ∧ fallbackInstant ps = some t ∧ t ≤ tb2s s)
      ∧ (let s := planUp { plan := planU }; inUse s 5 = true ∧ (shard s (shardOf 5)).state = .held
         ∧ ownerRuns s 5 = true) := by
  refine ⟨⟨by decide, by decide, by decide, by decide, 9990037, by decide +kernel, by decide +kernel⟩, ⟨_, rfl, by decide, by decide +kernel⟩,
    ⟨_, rfl, by decide, by decide +kernel⟩, ⟨_, _, rfl, rfl, by decide +kernel⟩, by decide +kernel⟩

/-- A sealing of period 1. -/
def sealU (committed : Bool) : Sealing := { period := 1, span := (0, 0), cutoff := none, waitEnd := 0, committed }

theorem test_witness_SealingMovesOn :
    (let s := { rich with led := { sealings := [sealU false] } }
     s.dev.phase = .running ∧ s.led.sealings = sealU false :: [] ∧ (∀ x ∈ s.led.sealings, x.committed = false) ∧ sealingReady s (sealU false) = true ∧ s.dev.core = true)
      ∧ (let s := { rich with led := { sealings := [sealU true] } }
         s.led.sealings = [sealU true] ∧ (sealU true).committed = true ∧ (sealU true).waitEnd ≤ tb7 s)
      ∧ (let p : PlanState := { plan := planU, closing := [(1, 0, 0, 0)] }
         let s := { up with dev := { up.dev with core := false }, tar := { plans := [(0, p)] }, tim := { timeU with zone := none } }
         s.tim.zone = none ∧ s.dev.waitTb3 = false ∧ (planAt s 0).bind graceEnd = some (0 + p.plan.grace * nsHour)
           ∧ 0 + p.plan.grace * nsHour ≤ tb7 s) := by decide +kernel

/-- The last interval of a group, and the group in alarm. -/
def accU (end_ : Nat) : Accum :=
  { end_, measured := [], estimated := [], reference := [], disturbed := false, foreign := (none, none), residual := none, revised := false, revisedAt := none }

theorem test_witness_LossRunsAct :
    (let s := { up with lt := { groups := [(1, { groupU with alarmPos := true })], params := { minute := 0 } } }
     s.dev.phase = .running ∧ s.tim.zone = some zoneU ∧ group s 1 = some { groupU with alarmPos := true }
       ∧ dailyDue s zoneU ({ groupU with alarmPos := true } : Group).attributed = true ∧ ownerRuns s (groupSlot { groupU with alarmPos := true }) = true
       ∧ dailyDue s zoneU s.lt.topoDay = true ∧ ∀ g ∈ s.lt.groups, ∀ m ∈ g.2.members, ownerRuns s m.1 = true)
      ∧ (let g := { groupU with flags := 9#16, ring := [accU 9900000] }
         let s := { up with lt := { groups := [(1, g)] } }
         group s 1 = some g ∧ gEnabled g = true ∧ gContributor g = true ∧ nextEvaluation zoneU g = some 9900000 ∧ tb3Valid s = true ∧ ownerRuns s (groupSlot g) = true
           ∧ 9900000 + s.lt.params.balWait ≤ tb2s s) := by decide +kernel

/-! ### Pair -/

/-- A paired device: partner 2, witness 3, receiving keys 41 and 43; and the link to its partner. -/
def pairU : PairRec := { id := 7#32, partner := 2#32, witness := 3#32, first := true, keys := (40, 41, 42, 43), bytes := [] }
def pairUp (p : Pair) : State :=
  { rich with
    pair := { p with record := some pairU }
    vlt := { rich.vlt with keys := rich.vlt.keys ++ [(40, keyU 1 3), (41, keyU 2 3), (42, keyU 1 3), (43, keyU 2 3)] } }

/-- A Zoryen message of a type and sequence 5 from `peer` to device 1, as it goes before its 12 B tag. -/
def zBytesU (type peer term : Nat) (body : Bytes) : Bytes :=
  le 1 1 ++ le 1 type ++ le 2 body.length ++ le 4 peer ++ le 4 1 ++ le 4 term ++ le 8 5 ++ le 4 7 ++ body ++ zeros 12

/-- A message whose tag verifies parses to its header and body. -/
theorem zParse_of {s : State} {b : Bytes} {l : Link} (h : zLink s b = some l) (f : field b 0 1 = 1)
    (a : Tbl.getD s.pair.accepted l.peer.toNat 0 < field b 16 8) (t : zTagOk s l b = true) :
    zParse s b = some { type := field b 1 1, sender := l.peer, term := field b 12 4, seq := field b 16 8, body := slice b 28 (field b 2 2), link := l } := by
  simp only [zParse, h, f, t, a, and_self, if_true]

/-- The message as `zParse` gives it. -/
def zMsgU (type peer term : Nat) (body : Bytes) : ZMsg :=
  { type, sender := BitVec.ofNat 32 peer, term, seq := 5, body,
    link := { pair := 7#32, peer := BitVec.ofNat 32 peer, send := if peer = 2 then 40 else 42, recv := if peer = 2 then 41 else 43, term := 0, macs := (zeros 6, zeros 6), witness := none } }

/-- The messages, with the state each arrives in. -/
def zCases : List (State × Nat × Nat × Nat × Bytes) :=
  [(pairUp { state := .paired }, zHeartbeat, 2, 0, zeros 1 ++ [1#8] ++ zeros 30), (pairUp {}, zGrant, 3, 0, le 4 4 ++ le 4 1), (pairUp { mirrorIn := 9 }, zMirror, 2, 0, le 8 9 ++ zeros 12),
   (pairUp {}, zMirror, 2, 0, le 8 1 ++ le 1 1 ++ zeros 3 ++ le 4 4 ++ le 4 0 ++ zeros 4), (pairUp {}, zAck, 2, 0, le 8 1), (pairUp {}, zCutoff, 2, 0, zeros 4),
   (pairUp {}, zRoot, 2, 0, le 4 9 ++ zeros 40), (pairUp {}, zShardRoots, 2, 0, le 4 1), (pairUp {}, zLeafHashes, 2, 0, le 4 1 ++ zeros 8),
   (pairUp {}, zResyncReq, 2, 0, zeros 36), (pairUp {}, zResyncData, 2, 0, zeros 12)]

theorem test_witness_ZoryenFramesAct_parse :
    ∀ c ∈ zCases, ∀ l, zLink c.1 (zBytesU c.2.1 c.2.2.1 c.2.2.2.1 c.2.2.2.2) = some l →
      zTagOk c.1 l (zBytesU c.2.1 c.2.2.1 c.2.2.2.1 c.2.2.2.2) = true →
      zParse c.1 (zBytesU c.2.1 c.2.2.1 c.2.2.2.1 c.2.2.2.2) = some (zMsgU c.2.1 c.2.2.1 c.2.2.2.1 c.2.2.2.2) := by
  have h : (zCases.all fun c =>
      let b := zBytesU c.2.1 c.2.2.1 c.2.2.2.1 c.2.2.2.2
      let m := zMsgU c.2.1 c.2.2.1 c.2.2.2.1 c.2.2.2.2
      zLink c.1 b == some m.link && field b 0 1 == 1 && decide (Tbl.getD c.1.pair.accepted m.link.peer.toNat 0 < field b 16 8)
        && ({ type := field b 1 1, sender := m.link.peer, term := field b 12 4, seq := field b 16 8, body := slice b 28 (field b 2 2), link := m.link } : ZMsg)
          == m) = true := by decide +kernel
  intro c hc l hl ht
  have k := List.all_eq_true.1 h c hc
  simp only [Bool.and_eq_true, beq_iff_eq, decide_eq_true_eq] at k
  obtain ⟨⟨⟨k1, k2⟩, k3⟩, k4⟩ := k
  rw [hl, Option.some.injEq] at k1
  subst k1
  rw [zParse_of hl k2 k3 ht, k4]

theorem test_witness_ZoryenFramesAct_discard : zParse (pairUp {}) [] = none ∧ (pairUp {}).dev.phase = .running := by decide +kernel

theorem test_witness_ZoryenFramesAct_pair :
    (let m := zMsgU zHeartbeat 2 0 (zeros 1 ++ [1#8] ++ zeros 30)
     let u := zKnown m (pairUp { state := .paired })
     fromPartner u m = true ∧ u.pair.state = .paired ∧ field m.body 1 1 = 1)
      ∧ (let m := zMsgU zGrant 3 0 (le 4 4 ++ le 4 1)
         let u := zKnown m (pairUp {})
         fromWitness u m = true ∧ u.pair.term ≤ field m.body 0 4 ∧ u.pair.holder = false ∧ field m.body 4 4 = u.dev.deviceId.toNat)
      ∧ (let m := zMsgU zMirror 2 0 (le 8 9 ++ zeros 12)
         let u := zKnown m (pairUp { mirrorIn := 9 })
         fromPartner u m = true ∧ field m.body 0 8 ≤ u.pair.mirrorIn)
      ∧ (let m := zMsgU zMirror 2 0 (le 8 1 ++ le 1 1 ++ zeros 3 ++ le 4 4 ++ le 4 0 ++ zeros 4)
         let u := zKnown m (pairUp {})
         fromPartner u m = true ∧ field m.body 0 8 = u.pair.mirrorIn + 1)
      ∧ (let m := zMsgU zMirror 2 0 (le 8 3 ++ zeros 12)
         let u := zKnown m (pairUp { mirrorIn := 1 })
         fromPartner u m = true ∧ u.pair.mirrorIn + 1 < field m.body 0 8)
      ∧ (let x : MirrorItem := { seq := 1, kind := 6, item := [], used := false, command := none }
         let m := zMsgU zAck 2 0 (le 8 1)
         let u := zKnown m (pairUp { mirror := [x] })
         fromPartner u m = true ∧ (u.pair.mirror.find? fun x => x.seq == field m.body 0 8) = some x)
      ∧ (let m := zMsgU zResyncReq 2 0 (zeros 36)
         let u := zKnown m (pairUp { state := .paired })
         fromPartner u m = true ∧ (shard u (field m.body 0 1)).state = .held ∧ u.pair.state = .paired)
      ∧ (let m := zMsgU zResyncData 2 0 (zeros 12)
         let u := zKnown m (pairUp { state := .resync })
         fromPartner u m = true ∧ (shard u (field m.body 0 1)).state = .held ∧ u.pair.state = .resync
           ∧ arrived (withPiece u.pair.resync (field m.body 0 1) (field m.body 1 1) partSize (field m.body 4 4) (m.body.drop 8)) = false) := by
  decide +kernel

/-- A number is read back from its bytes. -/
theorem ofLe_le (n x : Nat) : ofLe (le n x) = x % 256 ^ n := by
  induction n generalizing x with
  | zero => simp [le, ofLe, Nat.mod_one]
  | succ n ih =>
    rw [le, ofLe, ih, BitVec.toNat_ofNat, show (2 : Nat) ^ 8 = 256 from rfl, Nat.pow_succ', Nat.mod_mul]

theorem le_length (n x : Nat) : (le n x).length = n := by
  induction n generalizing x with
  | zero => rfl
  | succ n ih => rw [le, List.length_cons, ih]

/-- The hash of a shard's counters is of the slots alone. -/
theorem vectorHash_met {s t : State} (h : s.met = t.met) (k : Nat) : vectorHash s k = vectorHash t k := by
  simp only [vectorHash, slot, h]

theorem test_witness_ZoryenFramesAct_agrees :
    let m := zMsgU zResyncReq 2 0 (zeros 4 ++ le 32 (vectorHash (pairUp { state := .paired }) 0).toNat)
    BitVec.ofNat 256 (field m.body 4 32) = vectorHash (zKnown m (pairUp { state := .paired })) 0 := by
  intro m
  have h : field m.body 4 32 = (vectorHash (pairUp { state := .paired }) 0).toNat := by
    show ofLe (((le 32 (vectorHash (pairUp { state := .paired }) 0).toNat).take 32)
      ++ List.replicate (32 - ((le 32 (vectorHash (pairUp { state := .paired }) 0).toNat).take 32).length) 0#8) = _
    rw [List.take_of_length_le (by rw [le_length]), le_length, Nat.sub_self, List.replicate_zero, List.append_nil, ofLe_le]
    exact Nat.mod_eq_of_lt (BitVec.isLt _)
  rw [h, BitVec.ofNat_toNat, BitVec.setWidth_eq]
  exact vectorHash_met rfl 0

theorem test_witness_ZoryenFramesAct_ledger :
    (let m := zMsgU zCutoff 2 0 (zeros 4)
     let u := zKnown m (pairUp {})
     fromPartner u m = true ∧ u.led.sealings = [])
      ∧ (let m := zMsgU zRoot 2 0 (le 4 9 ++ zeros 40)
         let u := zKnown m (pairUp {})
         fromPartner u m = true ∧ (u.led.sealings.find? fun g => g.period == field m.body 0 4) = none ∧ entryOf u (field m.body 0 4) = none)
      ∧ (let m := zMsgU zRoot 2 0 (le 4 1 ++ zeros 40)
         let u := zKnown m { pairUp {} with led := { sealings := [sealU true] } }
         fromPartner u m = true ∧ (u.led.sealings.find? fun g => g.period == field m.body 0 4) = some (sealU true) ∧ (sealU true).committed = true)
      ∧ (let m := zMsgU zShardRoots 2 0 (le 4 1)
         let u := zKnown m (pairUp {})
         fromPartner u m = true ∧ entryOf u (field m.body 0 4) = some entryU)
      ∧ (let m := zMsgU zLeafHashes 2 0 (le 4 1 ++ zeros 8)
         let u := zKnown m (pairUp {})
         fromPartner u m = true ∧ entryOf u (field m.body 0 4) = some entryU) := by
  decide +kernel

/-- A witnessed pair whose holder has fallen silent. -/
def witU : Witnessed :=
  { id := 9#32, devs := (5#32, 6#32), term := 1, holder := some 5#32, heard := (0, tb6 up), slots := ((30, 31), (32, 33)), bytes := [] }

theorem test_witness_PairTimersAct :
    (let s := pairUp { state := .paired, partnerHeard := some (tb6 up - 20 * nsMs) }
     s.dev.phase = .running ∧ (s.pair.state = .paired ∨ s.pair.state = .resync) ∧ ∃ x, s.pair.partnerHeard = some x ∧ x + 20 * nsMs ≤ tb6 s)
      ∧ (let s := pairUp {}
         s.pair.record.isSome = true ∧ s.pair.witnessSilent = false ∧ 20 * nsMs ≤ tb6 s ∧ s.pair.witnessHeard = none)
      ∧ (let s := pairUp { grant := some 4 }; s.pair.grant = some 4 ∧ s.pair.holderHeard = none)
      ∧ (let s := { pairUp { holdUntil := some (tb6 up) } with dl := {} }
         s.pair.holdUntil = some (tb6 up) ∧ tb6 up ≤ tb6 s ∧ (dlResume (s.onPair fun p => { p with holdUntil := none })).dl.campaigns = [])
      ∧ (let s := pairUp { holder := true, namedAt := tb6 up - 10 * nsMs }
         s.pair.holder = true ∧ s.pair.fenced = false ∧ s.pair.namedAt + 10 * nsMs ≤ tb6 s)
      ∧ (let s := { up with pair := { witnessed := [witU] } }
         s.pair.witnessed = [witU] ∧ grantee s witU = some 6#32 ∧ witU.holder.isSome = true ∧ witU.term ≠ 2 ^ 32 - 1)
      ∧ (links (pairUp {}) ≠ [] ∧ (pairUp {}).pair.beat + nsMs ≤ tb6 (pairUp {}))
      ∧ (let s := { up with met := { shards := [(3, { state := .draining, drainEnd := tb7 up })] } }
         (shard s 3).state = .draining ∧ (shard s 3).drainEnd ≤ tb7 s)
      ∧ (let r := le 1 3 ++ le 1 0 ++ le 2 64 ++ zeros 56
         let x := r ++ le 4 (crc32c r).toNat
         ingestRecords 1 x = some [x] ∧ up.dev.core = true ∧ mayTake (intakeSize x) up = true) := by
  refine ⟨⟨by decide +kernel, by decide +kernel, _, rfl, by decide +kernel⟩, ?_⟩
  decide +kernel

/-! ### Time and PTP -/

/-- The device with a domain A and an ETH-A given. -/
def timUp (d : Domain) (e : EthPort) : State := { up with tim := { timeU with domA := d, ethA := e } }

/-- A master, and a PTP message of domain 0 from it. -/
def annU : Announce := { prio1 := 0, cls := 0, acc := 0, var := 0, prio2 := 0, gm := 0#64, steps := 0, source := 0#64, portNo := 0 }
def ptpU (type flag2 : Nat) (rest : Bytes) : PtpRx :=
  { port := 0, ingress := 0, bytes := [BitVec.ofNat 8 type, 2#8, 0#8, 44#8, 0#8, 0#8, BitVec.ofNat 8 flag2] ++ zeros 27 ++ rest }

theorem test_witness_TimeRegistersAct :
    (let s := timUp { cfg := 0x101#32, want := 0x101#32, state := .locked } {}
     s.dev.phase = .running ∧ cfgClash (0x101#32 &&& 0xFF07#32) (dom s (!true)).want = true
       ∧ cfgClash (0x103#32 &&& 0xFF07#32) (dom s (!false)).want = false ∧ (dom s false).state ≠ .disabled ∧ (dom s false).state ≠ .listening)
      ∧ (let z := { zoneU with leap := 10000000 }
         let s := { up with tim := { timeU with zone := some z } }
         s.tim.zone = some z ∧ tb2Valid s = true ∧ s.tim.leapDone = false ∧ z.leap ≠ 0 ∧ z.leap ≤ tb2s s)
      ∧ (let s := { up with tim := { timeU with uncert := 1000001 } }
         tb2Valid s = true ∧ s.tim.holdLimit.toNat * 1000 < uncertainty s)
      ∧ up.tim.tb4 = up.tim.tb2 ∧ up.tim.tb5 = up.tim.tb2 := by decide +kernel

theorem test_witness_PtpMessagesAct_sync :
    (let r := ptpU 0 0 []
     pmType r.bytes = ptSync ∧ (msgOk r 44 && rateOk r.bytes) = false)
      ∧ (let r := ptpU 0 0 (zeros 10)
         let s := timUp { cfg := 1#32, want := 1#32, state := .listening, master := some annU } { up := true }
         domOf s r.port r.bytes = some false ∧ fromMaster (dom s false) r.bytes = true ∧ pmType r.bytes = ptSync
           ∧ (msgOk r 44 && rateOk r.bytes) = true ∧ (dom s false).want = (dom s false).cfg ∧ pmTwoStep r.bytes = false)
      ∧ (let s := timUp { cfg := 1#32, want := 3#32, state := .locked, master := some annU } { up := true }
         let r := ptpU 0 0 (zeros 10)
         domOf s r.port r.bytes = some false ∧ fromMaster (dom s false) r.bytes = true ∧ (dom s false).want ≠ (dom s false).cfg)
      ∧ (let r := ptpU 0 2 (zeros 10)
         pmType r.bytes = ptSync ∧ (msgOk r 44 && rateOk r.bytes) = true ∧ pmTwoStep r.bytes = true)
      ∧ (let r := ptpU 8 0 (zeros 10)
         let s := timUp { cfg := 1#32, state := .listening, master := some annU, twoStep := some (0, 0, 0) } { up := true }
         domOf s r.port r.bytes = some false ∧ fromMaster (dom s false) r.bytes = true ∧ pmType r.bytes = ptFollowUp ∧ msgOk r 44 = true
           ∧ (dom s false).twoStep = some (pmSeq r.bytes, 0, 0))
      ∧ (let r := ptpU 11 0 (zeros 30)
         let s := timUp { cfg := 1#32, state := .listening } { up := true }
         pmType r.bytes = ptAnnounce ∧ (msgOk r 64 && rateOk r.bytes) = true ∧ (announceOf r.bytes).steps < 255
           ∧ (dom s false).state ≠ .disabled ∧ domNumber (dom s false) = pmDomain r.bytes)
      ∧ (let r := ptpU 2 0 (zeros 20)
         let s := timUp {} { up := true, ptp := 1#32 }
         let e := ethPort s 0
         pmType r.bytes = ptPdelayReq ∧ msgOk r 54 = true ∧ profileFits s r true = true ∧ e.up = true ∧ e.twoStep = false) := by decide +kernel

/-- An answer names the port that asked: the device's own identity follows the timestamp. -/
def ansU (type flag2 : Nat) : PtpRx := ptpU type flag2 (zeros 10 ++ ownIdentity up 0)

set_option maxRecDepth 4000 in
theorem test_witness_PtpMessagesAct_answers :
    (let r := ansU 9 0
     let s := timUp { cfg := 1#32, state := .listening, master := some annU, delayReq := some (0, 0) } { up := true }
     domOf s r.port r.bytes = some false ∧ fromMaster (dom s false) r.bytes = true ∧ pmType r.bytes = ptDelayResp ∧ msgOk r 54 = true
       ∧ rateOk r.bytes = true ∧ profileFits s r false = true ∧ (dom s false).delayReq = some (pmSeq r.bytes, 0) ∧ slice r.bytes 44 10 = ownIdentity s r.port)
      ∧ (let r := ansU 3 2
         let s := timUp {} { ptp := 1#32, pdelay := some (0, 0) }
         pmType r.bytes = ptPdelayResp ∧ msgOk r 54 = true ∧ profileFits s r true = true ∧ (ethPort s 0).pdelay = some (pmSeq r.bytes, 0)
           ∧ slice r.bytes 44 10 = ownIdentity s r.port ∧ pmTwoStep r.bytes = true)
      ∧ (let r := ansU 10 0
         let s := timUp {} { ptp := 1#32, pdelay := some (0, 0), pdelayTwo := some (0, 0, 0, 0) }
         pmType r.bytes = ptPdelayRespFollowUp ∧ msgOk r 54 = true ∧ profileFits s r true = true
           ∧ (ethPort s 0).pdelay = some (pmSeq r.bytes, 0) ∧ (ethPort s 0).pdelayTwo = some (pmSeq r.bytes, 0, 0, 0)
           ∧ slice r.bytes 44 10 = ownIdentity s r.port) := by
  refine ⟨⟨rfl, rfl, rfl, rfl, rfl, rfl, rfl, rfl⟩, ⟨rfl, rfl, rfl, rfl, rfl, rfl⟩, ⟨rfl, rfl, rfl, rfl, rfl, rfl⟩⟩

theorem test_witness_PtpTimersAct :
    (let s := timUp { cfg := 1#32, state := .listening, master := some annU } { up := true }
     (dom s false).state ≠ .disabled ∧ (dom s false).master.isSome = true ∧ (ethPort s (portInUse (dom s false))).up = true
       ∧ (ethPort s (portInUse (dom s false))).p2p = false)
      ∧ (let f : Foreign := { port := 0, a := annU, at_ := 0, interval := 10 ^ 9, two := true }
         let s := timUp { cfg := 1#32, state := .listening, foreign := [f] } {}
         (dom s false).state ≠ .disabled ∧ (dom s false).announced (portInUse (dom s false)) + 3 * announceInterval (dom s false) (portInUse (dom s false)) ≤ tb6 s
           ∧ (dom s false).alt = false)
      ∧ (let f : Foreign := { port := 0, a := annU, at_ := tb6 up, interval := 10 ^ 9, two := true }
         let s := timUp { cfg := 1#32, state := .listening, alt := true, foreign := [f], primarySince := some (tb6 up - 60 * nsPerS), lastAnnounce := (tb6 up, 0) } { up := true }
         let d := dom s false
         d.alt = true ∧ (ethPort s (primaryPort d)).up = true ∧ d.primarySince = some (tb6 up - 60 * nsPerS)
           ∧ tb6 up - 60 * nsPerS + 60 * nsPerS ≤ tb6 s ∧ tb6 s < d.announced (primaryPort d) + 3 * announceInterval d (primaryPort d))
      ∧ (let s := timUp { state := .locked } {}; (dom s false).state = .locked ∧ (dom s false).lastSync + max (3 * (dom s false).syncInt) (3 * nsPerS) ≤ tb6 s)
      ∧ (let s := timUp { state := .holdover } {}
         (dom s false).state = .holdover ∧ (dom s false).master = none ∧ (dom s false).noMasterSince + 600 * nsPerS ≤ tb6 s)
      ∧ (let s := timUp {} { up := true, ptp := 1#32 }
         0 < 2 ∧ (ethPort s 0).up = true ∧ (ethPort s 0).p2p = true ∧ (dom s false).state = .disabled ∧ (dom s true).state = .disabled) := by decide +kernel

/-! ### Vault, Coppice, Yew -/

theorem test_witness_VaultEventsAct (sig : Bytes) :
    (up.dev.phase = .running ∧ up.vlt.trngFailed = false ∧ up.vlt.remasked + 60 * nsPerS ≤ tb6 up)
      ∧ (let s := { up with vlt := { up.vlt with trngFailed := true, trngPasses := 15 } }
         s.vlt.trngFailed = true ∧ s.vlt.trngTested + nsPerS ≤ tb6 s ∧ s.vlt.trngPasses = 15)
      ∧ (let s := { up with vlt := { up.vlt with trngPasses := 14 } }; s.vlt.trngPasses < 15)
      ∧ (let y := { sess 2 2 with expiryTb7 := some (tb7 up) }
         let s := { up with host := { up.host with sessions := [y] } }
         y ∈ s.host.sessions ∧ expired s y = true)
      ∧ (let s := { up with vlt := { up.vlt with challenge := some (zeros 32, tb6 up - 60 * nsPerS) } }
         s.vlt.challenge = some (zeros 32, tb6 up - 60 * nsPerS) ∧ liveChallenge s = none)
      ∧ (Config.falconVerify (zeros 32) (ascii "KHMAINT" ++ zeros 32 ++ le 8 rich.dev.fit.serial.toNat) sig = true →
          liveChallenge rich = some (zeros 32) ∧ verifyUnder rich 3 (ascii "KHMAINT" ++ zeros 32 ++ le 8 rich.dev.fit.serial.toNat) sig = true) := by
  refine ⟨?_, ?_, ?_, ?_, ?_, fun h => ⟨?_, h⟩⟩ <;> decide +kernel

/-- The device with block 4 given. -/
def blkUp (b : Block) : State := { up with cop := { blocks := [(4, b)] } }

theorem test_witness_BlocksTurn :
    (let s := { up with cop := { free := [100, 4196, 8292, 12388] } }
     nandUsed s = true ∧ (streamPage s.dev.fit { stream := 4, lsns := [] } s.cop).isSome = true
       ∧ (streamPage s.dev.fit { stream := 9, lsns := [0] } s.cop).isSome = true ∧ streamPage s.dev.fit { stream := 8, lsns := [] } s.cop = none
       ∧ (s.cop.failPage s.dev.fit 4).isSome = true)
      ∧ (block (blkUp { state := .erasing }) 4).state = .erasing
      ∧ (let v : VerifyIn := { block := 4, sectors := [{ idx := 0, errors := 40 }] }
         let s := blkUp { state := .closed }
         (block s v.block).state = .closed ∧ readable s v.block = true ∧ anyLost v = false ∧ worn v s.cop.params.verify = false)
      ∧ (let v : VerifyIn := { block := 4, sectors := [{ idx := 0, errors := 81 }] }
         anyLost v = false ∧ worn v (blkUp {}).cop.params.verify = true)
      ∧ (let v : VerifyIn := { block := 4, sectors := [{ idx := 0, errors := 81 }] }
         let s := blkUp { state := .verified }
         (block s v.block).state = .verified ∧ readable s v.block = true ∧ badLsns (countDecodes v s) v = [] ∧ worn v s.cop.params.refresh = true
           ∧ s.cop.free.length < freeTarget s ∧ gcVictim s = some 4 ∧ s.cop.holdsCheckpoint s.dev.fit 4 = false)
      ∧ (let s := { up with cop := { blocks := [(4, { state := .verified })], segs := [(0, 4 * 4096)] } }
         gcVictim s = some 4 ∧ s.cop.holdsCheckpoint s.dev.fit 4 = true) := by decide +kernel

theorem test_witness_StorageTimersAct :
    nandUsed up = true ∧ up.cop.tailAt + nsPerS ≤ tb6 up ∧ up.cop.ringFull up.dev.fit = false ∧ up.cop.checkpointAt + nsHour ≤ tb6 up
      ∧ up.cop.checkpointed up.dev.fit = none
      ∧ (let s := { up with cop := { free := [100, 101, 4196, 4197, 8292, 8293, 12388, 12389] } }
         (s.cop.checkpointed s.dev.fit).isSome = true ∧ s.lau.segs = [])
      ∧ 3 < diesFitted up ∧ up.cop.timeouts = [] ∧ up.cop.dramErrors = [] ∧ up.cop.snapshotAt + nsMin ≤ tb6 up ∧ tb2Valid up = true
      ∧ (let s := { up with cop := { rebuilding := [1] } }
         1 ∈ s.cop.rebuilding ∧ ∀ b ∈ blocksIn s 1 [.open_, .closed], validIn s b = []) := by decide +kernel

/-- Yew with one record, 3,653 days old when `appended` is zero. -/
def yrU : YewRec := { seq := 1, ev := { stamp := 0#96, tb7 := false, code := 0, kind := 0, source := 0, data := [] }, staged := false, chain := 0#64, appended := 0 }
def yewUp (y : Yew) : State := { up with yew := { y with records := [yrU], newest := 1 } }

theorem test_witness_YewActs :
    (let s := yewUp { frozen := true, frozenAt := tb6 up - 60 * nsPerS }
     yewStaging s = true ∧ s.yew.staged.length < 4096 ∧ s.yew.frozen = true ∧ s.yew.hard = false ∧ s.yew.frozenAt + 60 * nsPerS ≤ tb6 s)
      ∧ (let s := yewUp { cursorLow := 2#32 }
         let c := ((0#32 : Word) ++ s.yew.cursorLow : DWord).toNat
         yewOldest s ≤ c ∧ c ≤ s.yew.newest + 1)
      ∧ ((0#32 : Word) ++ (yewUp { cursorLow := 0#32 }).yew.cursorLow : DWord).toNat < yewOldest (yewUp { cursorLow := 0#32 })
      ∧ (yewUp { cursorLow := 3#32 }).yew.newest + 1 < ((0#32 : Word) ++ (yewUp { cursorLow := 3#32 }).yew.cursorLow : DWord).toNat
      ∧ (let s := yewUp { ready := true }
         s.yew.ctrl.getLsbD 0 = true ∧ s.yew.ready = true ∧ lastShown s = some 1)
      ∧ (let s := { yewUp { hold := 30 } with tim := { timeU with tb7 := 30 * nsDay * nsUnit } }
         1 ≤ yewBlock s ∧ withinHold s (s.yew.records.drop (s.yew.records.length - 1)) = []) := by decide +kernel

/-- Yew's places are full when it holds as many records. -/
theorem yewFull_of_length (n : Nat) (l : List YewRec) (h : l.length = n) :
    0 ≤ yewBlock { up with yew := { newest := n, records := l } } ∧ n ≤ { up with yew := { newest := n, records := l } }.yew.records.length - 0
      ∧ yewStaging { up with yew := { newest := n, records := l } } = false := ⟨Nat.zero_le _, Nat.le_of_eq h.symm, rfl⟩

theorem test_witness_YewActs_full :
    ∃ s : State, s.dev.phase = .running ∧ 0 ≤ yewBlock s ∧ yewPlaces ≤ s.yew.records.length - 0 ∧ yewStaging s = false :=
  ⟨_, rfl, yewFull_of_length yewPlaces (List.replicate yewPlaces yrU) List.length_replicate⟩

/-! ### Downlink, power, Hawthorn, Laurel -/

theorem test_witness_TimedWorkRuns :
    (let x := { dlU with expiry := tb7 up }
     let s := { rich with dl := { cmds := [x] } }
     dlCmd s 1 = some x ∧ x.expiry ≠ 0 ∧ x.expiry ≤ tb7 s ∧ holdsToken s = true)
      ∧ maySend rich = true ∧ campaign rich 0 = some campU ∧ campU.ended = false ∧ rich.dev.late.getLsbD 31 = !true ∧ 31 < 32 := by decide +kernel

/-- The device with a power domain given. -/
def domUp (d : Nat) (x : Dom) : State := { up with pwr := { doms := [(d, x)] } }

theorem test_witness_PowerDomainsTurn :
    (let s := domUp 9 { limit := 4#32 }
     isDomain 9 = true ∧ domIdle s 9 = true ∧ (nextState s 9).isSome = true ∧ (∀ st, nextState s 9 = some st → refusersOf s 9 st (([] : List Nat).contains 3) = [])
       ∧ (pdom s 9).entering = none)
      ∧ (let s := domUp 9 { state := 1 }; isDomain 9 = true ∧ (pdom s 9).state ≠ 0 ∧ (pdom s 9).wakeFails = 0)
      ∧ (20 < [21].getD 0 0 ∧ 5 ≤ [20].getD 0 0 ∧ [20].getD 0 0 ≤ 20 ∧ [4].getD 0 0 < 5 ∧ (pdom up 0).low + 1 < 10)
      ∧ (isDomain 12 = true ∧ (limitAsked up 12 0x11#32).2.1 ≠ 0 ∧ ceilingOk up 12 (limitAsked up 12 0x11#32).2.1 = false)
      ∧ (isDomain 12 = true ∧ limitFits 12 7#32 = false)
      ∧ (isDomain 12 = true ∧ isQuad 12 = false ∧ limitFits 12 1#32 = true ∧ (limitAsked up 12 1#32).2.1 = 0 ∧ (pdom up 12).ceiling = 0) := by decide +kernel

def grantU (who : Nat) : Grant := { who, age := 0#32, length := 64, locked := false, at_ := 0, wants := [0] }

theorem test_witness_HawthornArbitrates :
    (let q : HwReq := { who := 3, wants := [0, 1, 2, 3], length := 64, locked := false }
     requester q.who = true ∧ wantsOk q.wants = true ∧ cutOff up q.who = false ∧ q.locked = false ∧ q.wants = 0 :: [1, 2, 3]
       ∧ Tbl.get up.pwr.owners 0 = none ∧ (pdom up (domainOfRes 0)).state = 0 ∧ (pdom up (domainOfRes 0)).entering = none)
      ∧ (let s := { up with pwr := { owners := [(0, grantU 3)] } }
         Tbl.get s.pwr.owners 0 = some (grantU 3) ∧ (grantU 3).who < 32 ∧ overBound s (grantU 3) = true)
      ∧ (let s := { up with pwr := { disabled := 8#32, cutHistory := [(3, tb6 up - nsMs)] } }
         cutOff s 3 = true ∧ 3 < 32 ∧ 3 ∉ s.pwr.dead ∧ readmitDue s 3 = true) := by decide +kernel

def lauUp (l : Laurel) : State := { up with lau := { l with ctrl := 1#32 } }
def driveU (codes : List Nat) : Drive := { seg := 0, codes, target := 0, recovery := false }

theorem test_witness_LaurelActs :
    ((0#32 : Word).getLsbD 0 = false ∧ lauEnabled up = false)
      ∧ (let s := lauUp { running := some [driveU [1, 2]] }
         (1#32 : Word).getLsbD 0 = true ∧ lauEnabled s = true ∧ s.lau.running = some [driveU [1, 2]]
           ∧ ((nextFrame [driveU [1, 2]]).all fun d => d.codes == []) = false)
      ∧ (let s := lauUp { pumpAt := some 0 }
         lauEnabled s = true ∧ s.lau.running = none ∧ displayRuns s = true ∧ s.lau.pumpAt.isSome = true)
      ∧ (let s := lauUp { pumpAt := some (tb6 up - 20 * nsMs) }
         s.lau.pumpAt = some (tb6 up - 20 * nsMs) ∧ s.lau.pumpOk = false ∧ tb6 up - 20 * nsMs + 20 * nsMs ≤ tb6 s)
      ∧ (let s := { up with dev := { up.dev with devReady := false } }; stripActive s = true) := by decide +kernel

/-! ### Worked examples of the manual -/

/-- A device with so many dies, one on each channel up to 8. -/
def diesU (n budget : Nat) : State :=
  { up with dev := { up.dev with fit := { onChan := List.replicate (min n 8) (n / min n 8) } }, prot := { budget } }

/-- Table Ceiling examples (02, R38). -/
theorem test_ceiling_examples :
    ceiling (diesU 32 20) = 16777216 ∧ ceiling (diesU 16 20) = 10240000 ∧ ceiling (diesU 4 20) = 2560000 ∧ ceiling (diesU 4 50) = 6397952
      ∧ ceiling (diesU 1 20) = 638976 := by decide +kernel

/-- Table DRAM required, examples (01, R22), in MiB. -/
theorem test_dram_required :
    dramRequired (diesU 32 20) = 20736 ∧ dramRequired (diesU 4 20) = 18944
      ∧ dramRequired { diesU 4 20 with dev := { (diesU 4 20).dev with core := false } } = 2048 := by decide +kernel

/-- Example: a meter drifted far beyond its window (06, R129, R130). -/
theorem test_hop_and_window :
    hop 1 (BitVec.allOnes 256) 0x6B2D4E19#32 0xC3A#32 = 110
      ∧ widening { brNet := 0x0A000000#32 } { connU with params := { interval := 3600000, timeout := 10800000, phy := 0, map := 0#256 }, ppm := 20, n0 := 3129 }
          false 3130 = 18932000 := by decide +kernel

/-- Example: opening one reading (07): the clock and its TAI. -/
theorem test_clock_of_a_reading :
    daysOf 2026 3 14 = 20526 ∧ daysOf 2026 3 14 * 86400 + 33300 + 37 = 0x69B52739 ∧ legalS zoneU 0x69B52739 = 1773479700 := by decide +kernel

/-- Rounding half to even, as the examples of 07 and 08 round. -/
theorem test_half_even : halfEven 23185 10 = 2318 ∧ halfEven (101 * 150) 300 = 50 ∧ halfEven (146 * 3600) 450 = 1168 := by decide +kernel

/-- Example: an update interrupted by a power cut (18): band 3 with VBP 10 units, codes 7 and 1 of one frame. -/
theorem test_display_charge :
    (let s := { up with lau := { vbp := 10, segs := [(17, { book := 180 })] } }
     (Tbl.getD (chargeFrame { seg := 17, codes := [7], target := 1, recovery := false } s).lau.segs 17 {}).book = 180 - 610
       ∧ (Tbl.getD (chargeFrame { seg := 17, codes := [1], target := 1, recovery := false } s).lau.segs 17 {}).book = 180 + 590) := by decide +kernel

/-- The check words of CRC-32C and CRC-16 over "123456789", the tests of their catalogues. -/
theorem test_crc : crc32c (ascii "123456789") = 0xE3069283#32 ∧ crc16 (ascii "123456789") = 0x29B1#16 := by decide +kernel

/-- Reset: DEV_STATUS shows Held in reset alone. -/
theorem test_reset_status : devStatus State.reset = 0x80#32 := by decide +kernel

theorem test_no_word_spells_a_command : decodeTableWord 32 0 = none := rfl

/-- What a function of the next state is, when a step answers one. -/
def after {α : Type} (o : Host.Outcome State Fault Refusal) (f : State → α) : Option α := match o with | .next t => some (f t) | _ => none

/-- A pop on a queue of two answers the entry of priority 0 first. -/
theorem test_pop_order :
    after (exec .noticePop (upNotes [noteU 2 0, noteU 0 1])) (fun t => t.host.notices) = some [noteU 2 0] := by decide +kernel

/-- Example: binding a port (04): BIND of LC64 by a direct write, MAC through group block 0. -/
theorem test_bind_and_broadcast :
    let s := { up with dev := { up.dev with core := false }, lane := { chans := [(64, { groupMask := 0x8001#16 })] } }
    after (exec (.registerWrite false 0x14000 15#4 0x4010#32) s) (fun t => (chan t 64).shadow.bind) = some 0x4010#32
      ∧ after (exec (.broadcastWrite 0x20004 0x32#32) s) (fun t => (chan t 64).shadow.mac) = some 0x32#32
      ∧ after (exec (.broadcastWrite 0x20104 0x31#32) s) (fun t => (chan t 64).shadow.mac) = some 0#32 := by decide +kernel

/-- The result of HOLDUP_BUDGET_SET holds C (R40). -/
theorem test_budget_bounds :
    goesB holdupBudgetSetDef (opDesc (le 2 200)) rich = true ∧ goesB holdupBudgetSetDef (opDesc (le 2 201)) rich = false
      ∧ goesB holdupBudgetSetDef (opDesc (le 2 4)) rich = false ∧ goesB drainWindowSetDef (opDesc [1#8]) rich = true
      ∧ goesB drainWindowSetDef (opDesc [61#8]) rich = false ∧ goesB shareSetDef (opDesc [1#8]) rich = false
      ∧ goesB shareSetDef (opDesc [26#8]) rich = false ∧ goesB yewHoldSetDef (secDesc [30#8]) rich = true
      ∧ goesB yewHoldSetDef (secDesc [29#8]) rich = false := by decide +kernel

/-- A step takes the front of the queue. -/
theorem test_step_front :
    after (step { up with pending := [.functionLevelReset, .noticePop] }) (fun t => t.pending) = some [.noticePop] := by decide +kernel

/-! ### Well-formedness: one ill-formed command for each check -/

theorem test_wf_accepts :
    wellFormed (.shareSet (opDesc [2#8])) = true ∧ wellFormed (.powerOn {}) = true ∧ wellFormed (.internalReset bootGood) = true
      ∧ wellFormed (.registerWrite true (2 ^ 28 - 4) 15#4 0#32) = true ∧ wellFormed (.rcRead { off := 2 ^ 22 - 4 }) = true := by decide +kernel

theorem test_wf_refuses_operands :
    wellFormed (.shareSet { opDesc [] with inline := zeros 39 }) = false
      ∧ wellFormed (.shareSet { opDesc [] with plen := 1#32 }) = false
      ∧ wellFormed (.internalReset { bootGood with image := ([2#8], []) }) = false ∧ wellFormed (.powerOn { onChan := List.replicate 9 1 }) = false
      ∧ wellFormed (.powerOn { onChan := [5] }) = false ∧ wellFormed (.powerOn { tmax := 221 }) = false := by decide +kernel

theorem test_wf_refuses_numbers :
    wellFormed (.sqTail 16 0#32) = false ∧ wellFormed (.cqHead 16 0#32) = false ∧ wellFormed (.cqEnable 16 0#32) = false
      ∧ wellFormed (.submissionEnable 16 0#32) = false ∧ wellFormed (.exportEnable 16 false 0#32) = false ∧ wellFormed (.erCredit 16 0#32) = false
      ∧ wellFormed (.erCursor 16 true 0#32) = false ∧ wellFormed (.rcRead { off := 2 ^ 22 }) = false ∧ wellFormed (.broadcastWrite (2 ^ 22) 0#32) = false
      ∧ wellFormed (.applyWrite (2 ^ 22) 0#32) = false ∧ wellFormed (.interruptCoalesceTimeout 64) = false ∧ wellFormed (.tbLatchRead 8) = false
      ∧ wellFormed (.pwrLimit 14 0#32) = false ∧ wellFormed (.registerWrite true (2 ^ 28) 15#4 0#32) = false
      ∧ wellFormed (.registerWrite false (2 ^ 22) 15#4 0#32) = false := by decide +kernel

theorem test_wf_refuses_links :
    wellFormed (.hrBeaconTx 65536) = false ∧ wellFormed (.hrCsmaAttempt 65536 true) = false ∧ wellFormed (.hrAckWaitTimeout 65536 0) = false
      ∧ wellFormed (.hrAckWaitTimeout 0 65536) = false ∧ wellFormed (.toneMapAgeExpiry 65536 0) = false ∧ wellFormed (.toneMapAgeExpiry 0 65536) = false
      ∧ wellFormed (.routeRecompute 65536) = false ∧ wellFormed (.timedLaunch 16) = false ∧ wellFormed (.brRendezvousTx 65536) = false
      ∧ wellFormed (.brSupervisionTimeout 1048576) = false ∧ wellFormed (.brUpdateInstantPassed 1048576) = false
      ∧ wellFormed (.brChannelRestore 65536 0) = false ∧ wellFormed (.watchBurstStart 16) = false ∧ wellFormed (.watchBurstEnd 16) = false
      ∧ wellFormed (.brTerminateTimeout 1048576) = false := by decide +kernel

theorem test_wf_refuses_blocks :
    wellFormed (.portLaneLock { port := 16 }) = false ∧ wellFormed (.portLockLost 16) = false ∧ wellFormed (.portRetrain 16) = false
      ∧ wellFormed (.portCalibration 16 { image := 0, eye := 0, floors := [] }) = false ∧ wellFormed (.calibrationSwap 16 true) = false
      ∧ wellFormed (.exportRecordWrite 16) = false ∧ wellFormed (.shardOwnerReassign 256 0) = false ∧ wellFormed (.shardOwnerReassign 0 16) = false
      ∧ wellFormed (.commissioningEnd 1048576) = false ∧ wellFormed (.gapEstimate 1048576) = false ∧ wellFormed (.listActivation 64) = false
      ∧ wellFormed (.calendarActivation 64) = false ∧ wellFormed (.calendarFallback 64) = false ∧ wellFormed (.backgroundActivityLate 9 true) = false
      ∧ wellFormed (.sealMarkCreate 64) = false ∧ wellFormed (.balanceEvaluate 65536) = false ∧ wellFormed (.dailyAttribution 65536) = false := by
  decide +kernel

theorem test_wf_refuses_units :
    wellFormed (.ptpPdelayReqTx 2) = false ∧ wellFormed (.ethLinkDown 2) = false ∧ wellFormed (.ethLinkUp 2) = false
      ∧ wellFormed (.drainWindowEnd 256) = false ∧ wellFormed (.laneMicrocodeSwap 16) = false ∧ wellFormed (.multicastRound 256) = false
      ∧ wellFormed (.campaignActivationInstant 256) = false ∧ wellFormed (.nandReadyTimeout 32) = false ∧ wellFormed (.dieRebuilt 32) = false
      ∧ wellFormed (.domainEntry 14 []) = false ∧ wellFormed (.domainWake 14) = false ∧ wellFormed (.wakeFault 14) = false
      ∧ wellFormed (.hawthornRelease 32) = false ∧ wellFormed (.arbiterCutoff 32) = false ∧ wellFormed (.arbiterReadmit 64) = false
      ∧ wellFormed (.slewEnd 8) = false := by decide +kernel

end Sys2Proof.Tests
end

section
/-!
SUPPORT. Privet's order (R76): what a scan of the queue by priority finds, what a pop and an arrival make of it, and the statement
about both.
-/

namespace Sys2Proof.Proofs
open Sys2Proof.Machine

/-! ### A scan of the queue by priority -/

/-- Of priorities listed in the order `r`, a scan for the first that is present answers the oldest notice of its priority, and no
notice of a listed priority comes before it in that order. -/
theorem prioScan_eq_some {r : Nat → Nat → Prop} {ps : List Nat} {q : List Notice} {v : Notice} (hr : ps.Pairwise r)
    (h : ps.findSome? (fun p => q.find? fun m => m.prio == p) = some v) :
    v.prio ∈ ps ∧ q.find? (fun m => m.prio == v.prio) = some v
      ∧ ∀ m ∈ q, m.prio ∈ ps → m.prio = v.prio ∨ r v.prio m.prio := by
  obtain ⟨before, p, later, rfl, hp, hnone⟩ := List.findSome?_eq_some_iff.1 h
  obtain rfl : v.prio = p := by simpa using List.find?_some hp
  refine ⟨by simp, hp, fun m hm hmp => ?_⟩
  rcases List.mem_append.1 hmp with hb | hl
  · exact absurd (List.find?_eq_none.1 (hnone _ hb) m hm) (by simp)
  · obtain ⟨-, hrest, -⟩ := List.pairwise_append.1 hr
    exact (List.mem_cons.1 hl).imp_right (List.rel_of_pairwise_cons hrest)

/-- A scan finds a notice where one of a listed priority is present. -/
theorem exists_prioScan_eq_some {ps : List Nat} {q : List Notice} {m : Notice} (hm : m ∈ q) (hp : m.prio ∈ ps) :
    ∃ v, ps.findSome? (fun p => q.find? fun m => m.prio == p) = some v := by
  refine Option.isSome_iff_exists.1 (List.findSome?_isSome_iff.2 ⟨m.prio, hp, ?_⟩)
  exact List.find?_isSome.2 ⟨m, hm, by simp⟩

/-! ### A pop (R76, R77) -/

/-- A pop answers the oldest notice of the highest priority present, priority 0 the highest, and leaves the queue without it. -/
theorem popNotice_eq_some {q : List Notice} {n : Notice} {rest : List Notice} (h : popNotice q = some (n, rest)) :
    rest = q.erase n ∧ (∀ m ∈ q, n.prio ≤ m.prio) ∧ q.find? (fun m => m.prio == n.prio) = some n := by
  unfold popNotice at h
  split at h
  next v hv =>
    obtain ⟨rfl, rfl⟩ : v = n ∧ q.erase v = rest := by simpa using h
    obtain ⟨hlt, hfind, hfirst⟩ := prioScan_eq_some List.pairwise_lt_range hv
    refine ⟨rfl, fun m hm => ?_, hfind⟩
    by_cases hm4 : m.prio ∈ List.range 4
    · exact (hfirst m hm hm4).elim (fun e => e.ge) Nat.le_of_lt
    · rw [List.mem_range] at hlt hm4
      omega
  next => cases h

theorem length_slice (bs : Bytes) (off n : Nat) : (slice bs off n).length = n := by
  simp only [slice, List.length_append, List.length_take, List.length_replicate]
  omega

/-- A notice entry is 32 bytes long (table Notice entry). -/
theorem length_noticeBytes (n : Notice) : (noticeBytes n).length = 32 := by
  simp [noticeBytes, le, length_slice]

/-- A read of all of NOTICE_POP answers the whole entry. -/
theorem popBytes_none (n : Notice) : popBytes none (noticeBytes n) = noticeBytes n := by
  have hlen := length_noticeBytes n
  simp [popBytes, slice, List.take_of_length_le, hlen]

/-- A read of NOTICE_POP that finds a notice takes it off the queue, latches its entry and answers the bytes asked for. -/
theorem settle_popRead {s : State} {n : Notice} {rest : List Notice} (r : Option (BitVec 4))
    (h : popNotice s.host.notices = some (n, rest)) :
    (settle s (popRead r s)).host.notices = rest ∧ (settle s (popRead r s)).host.latch = noticeBytes n
      ∧ .read (popBytes r (noticeBytes n)) ∈ (settle s (popRead r s)).host.out := by
  have hpop : popRead r s
      = emit (.read (popBytes r (noticeBytes n))) (s.onHost fun x => { x with notices := rest, latch := noticeBytes n }) := by
    simp only [popRead, h]
  rw [hpop]
  exact ⟨by simp, by simp, Laws.settle_out_mem _ _ (by simp)⟩

theorem exec_noticePop {s : State} (h : s.dev.phase = .running) :
    exec .noticePop s = .next (settle s (popRead none s)) :=
  Laws.whileRunning_runs _ h

/-- RC_READ of bytes of word 0 of NOTICE_POP is a pop (R59, R77). -/
theorem exec_rcRead_noticePop {s : State} {be : BitVec 4} (h : s.dev.phase = .running) (hbe : be ≠ 0#4) :
    exec (.rcRead { off := 0x30000, be := be }) s = .next (settle s (popRead (some be) s)) := by
  have hread : regRead { off := 0x30000, be := be } s = popRead (some be) s := by simp [regRead, h, hbe]
  rw [← hread]
  exact Laws.whileReachable_runs _ h

/-! ### An arrival (R76) -/

theorem admitNotice_of_room {q : List Notice} {n : Notice} (h : q.length < 16384) : admitNotice q n = (q ++ [n], none) :=
  if_pos h

/-- At a full queue the oldest notice of the lowest priority, 3 the lowest, is lost among the queued ones and the arriving one. -/
theorem admitNotice_of_full {q : List Notice} {n : Notice} (hfull : 16384 ≤ q.length) (hp : ∀ m ∈ q ++ [n], m.prio ≤ 3) :
    ∃ v, (q ++ [n]).find? (fun m => m.prio == v.prio) = some v ∧ (∀ m ∈ q ++ [n], m.prio ≤ v.prio)
      ∧ admitNotice q n = ((q ++ [n]).erase v, some v.prio) := by
  have listed : ∀ m ∈ q ++ [n], m.prio ∈ [3, 2, 1, 0] := by
    intro m hm
    have := hp m hm
    simp only [List.mem_cons, List.not_mem_nil]
    omega
  have hn : n ∈ q ++ [n] := by simp
  obtain ⟨v, hv⟩ := exists_prioScan_eq_some hn (listed n hn)
  obtain ⟨-, hfind, hfirst⟩ := prioScan_eq_some (r := (· > ·)) (by decide) hv
  refine ⟨v, hfind, fun m hm => (hfirst m hm (listed m hm)).elim (fun e => e.le) Nat.le_of_lt, ?_⟩
  rw [admitNotice, if_neg (Nat.not_lt.2 hfull), hv]

/-- A vector fired or not, Privet's queue and its counts of lost notices stay. -/
theorem ite_signal_queue (c : Prop) [Decidable c] (v : Nat) (s : State) :
    (if c then signal v s else s).host.notices = s.host.notices ∧ (if c then signal v s else s).host.lost = s.host.lost := by
  split
  · exact ⟨Laws.signal_host_notices v s, Laws.signal_host_lost v s⟩
  · exact ⟨rfl, rfl⟩

/-- A notice posted while no read stalls enters the queue, and the priority it pushes out, if any, is counted. -/
theorem post_of_not_stalled {s : State} (code prio source : Nat) (data : Bytes) (hs : s.host.stalled = []) :
    let n : Notice := { code, prio, seq := s.host.noticeSeq % 2 ^ 32, stamp := s.tim.tb2, source, data := slice data 0 8 }
    (post code prio source data s).host.notices = (admitNotice s.host.notices n).1
      ∧ (post code prio source data s).host.lost
          = match (admitNotice s.host.notices n).2 with | some p => bump s.host.lost p | none => s.host.lost := by
  simp only [post, hs]
  exact ite_signal_queue _ _ _

/-! ### The statement -/

/-- Settles O17: pops and arrivals both scan the queue by priority, from the highest down and from the lowest up. -/
theorem privetOrder : Obligations.PrivetOrder := by
  refine ⟨fun s n rest hrun hpop => ?_, fun _ _ => admitNotice_of_room, fun _ _ => admitNotice_of_full,
    fun _ => post_of_not_stalled⟩
  obtain ⟨hrest, hfirst, hfind⟩ := popNotice_eq_some hpop
  refine ⟨List.mem_of_find?_eq_some hfind, hrest, hfirst, hfind, ⟨_, exec_noticePop hrun, ?_⟩,
    fun be hbe => ⟨_, exec_rcRead_noticePop hrun hbe, settle_popRead (some be) hpop⟩⟩
  simpa only [popBytes_none] using settle_popRead none hpop

end Sys2Proof.Proofs
end

section
/-!
SUPPORT. Commands that are answered with IGNORED (R66, R389, R390): the check order's first two steps, what a completion leaves
unchanged, and the statements about both.
-/

namespace Sys2Proof.Proofs
open Sys2Proof.Machine

/-! ### The first two steps of the check order (R48, R66) -/

/-- A descriptor whose tag its session has not recorded, or whose command is never recorded, is judged once its tag is noted. -/
theorem startCmd_of_firstSeen {x : CmdDef} {d : Desc} {s : State} (hseen : FirstSeen x d s) :
    startCmd x d s = judge x d (noted d s) := by
  cases hy : session s d.session with
  | none => simp [startCmd, noted, hy]
  | some y =>
    obtain ⟨hwindow, hnew⟩ := hseen y hy
    cases hr : recorded y d.tag with
    | none => simp [startCmd, noted, hy, hwindow, hr]
    | some r =>
      have hany : x.role s = .any := by simpa [hr] using hnew
      simp [startCmd, noted, hy, hwindow, hr, hany]

/-- Step 2: a command its session may not issue is answered with IGNORED, which its session records where the command is one that is
recorded. -/
theorem judge_of_not_admitted {x : CmdDef} {d : Desc} {s : State} (hrole : admitted (x.role s) d s = false) :
    judge x d s
      = answer (x.role s != .any && (session s d.session).isSome) d (plain d.tag stIgnored []) s := by
  simp [judge, hrole]

/-! ### What a completion leaves unchanged -/

/-- From `s` to `t` nothing changes but the HOST group. -/
def OnlyHostChanges (s t : State) : Prop := t = { s with host := t.host }

theorem OnlyHostChanges.refl (s : State) : OnlyHostChanges s s := rfl

theorem OnlyHostChanges.trans {s t u : State} (hst : OnlyHostChanges s t) (htu : OnlyHostChanges t u) : OnlyHostChanges s u := by
  rw [OnlyHostChanges] at hst htu ⊢
  rw [htu, hst]

theorem OnlyHostChanges.ite {c : Prop} [Decidable c] {s t u : State} (ht : OnlyHostChanges s t) (hu : OnlyHostChanges s u) :
    OnlyHostChanges s (if c then t else u) := by
  split
  · exact ht
  · exact hu

theorem onlyHostChanges_emit (o : Out) (s : State) : OnlyHostChanges s (emit o s) := rfl

theorem onlyHostChanges_modRing (n : Nat) (f : Ring → Ring) (s : State) : OnlyHostChanges s (modRing n f s) := rfl

theorem onlyHostChanges_seeTag (id tag : Word) (s : State) : OnlyHostChanges s (seeTag id tag s) := rfl

theorem onlyHostChanges_record (id tag : Word) (c : Option Completion) (s : State) : OnlyHostChanges s (record id tag c s) := rfl

theorem onlyHostChanges_signal (v : Nat) (s : State) : OnlyHostChanges s (signal v s) := by
  obtain ⟨out, pba, h⟩ := Laws.signal_shape v s
  rw [h]
  rfl

theorem onlyHostChanges_cqInterrupt (n : Nat) (s : State) : OnlyHostChanges s (cqInterrupt n s) :=
  .ite (.refl s) (.ite ((onlyHostChanges_modRing ..).trans (onlyHostChanges_signal ..)) (onlyHostChanges_modRing ..))

theorem onlyHostChanges_fetch (n : Nat) (s : State) : OnlyHostChanges s (fetch n s) :=
  .ite (onlyHostChanges_modRing ..) (.refl s)

theorem onlyHostChanges_writeEntry (n : Nat) (c : Completion) (noIrq : Bool) (s : State) :
    OnlyHostChanges s (writeEntry n c noIrq s) := by
  refine .trans (.ite ?_ (.trans ?_ (onlyHostChanges_cqInterrupt ..))) (onlyHostChanges_fetch ..) <;>
    exact (onlyHostChanges_emit ..).trans (onlyHostChanges_modRing ..)

theorem onlyHostChanges_complete (n : Nat) (c : Completion) (noIrq : Bool) (s : State) :
    OnlyHostChanges s (complete n c noIrq s) :=
  .ite (onlyHostChanges_writeEntry ..) (onlyHostChanges_modRing ..)

theorem onlyHostChanges_reply (n : Nat) (c : Completion) (noIrq : Bool) (s : State) :
    OnlyHostChanges s (reply n c noIrq s) :=
  .ite (.refl s) (onlyHostChanges_complete ..)

theorem onlyHostChanges_answer (recordIt : Bool) (d : Desc) (c : Completion) (s : State) :
    OnlyHostChanges s (answer recordIt d c s) :=
  .trans (.ite (onlyHostChanges_record ..) (.refl s)) (onlyHostChanges_reply ..)

theorem onlyHostChanges_noted (d : Desc) (s : State) : OnlyHostChanges s (noted d s) :=
  .ite (onlyHostChanges_seeTag ..) (.refl s)

/-! ### A command its session may not issue (R390) -/

/-- Settles O24: step 2 of the check order answers it, and an answer touches the HOST group alone. -/
theorem wrongRoleIsIgnored : Obligations.WrongRoleIsIgnored := by
  intro c x d s hdef hserving hgo hseen hrole
  obtain ⟨hrun, hmbox, -, hfetched⟩ := hserving
  have hexec := Laws.exec_host s hdef
  rw [Laws.runCmd_starts hrun hmbox hfetched hgo, startCmd_of_firstSeen hseen, judge_of_not_admitted hrole] at hexec
  refine ⟨_, hexec, rfl, ?_⟩
  rw [(onlyHostChanges_noted d s).trans (onlyHostChanges_answer ..)]
  simp

/-! ### An undefined opcode (R62, R389) -/

/-- A command the HOST island still knows is answered by writing its completion (R57). -/
theorem reply_of_not_quiet {n : Nat} {c : Completion} {noIrq : Bool} {s : State} (hquiet : s.host.quiet = false) :
    reply n c noIrq s = complete n c noIrq s := by
  simp [reply, hquiet]

/-- While the device serves its rings, a descriptor of an undefined opcode waits for its ring alone (in
the queue of commands that wait, assumption log 9), and is then answered. -/
theorem exec_descriptorUndefinedOpcode {d : Desc} {s : State} (op : Nat) (hserving : Serving d s) :
    exec (.descriptorUndefinedOpcode d op) s
      = if ringWaits d s then
          .next (s.onHost fun h => { h with waiting := h.waiting ++
            [{ ring := d.ring.val, objects := [], cmd := .descriptorUndefinedOpcode d op, quiet := false }] })
        else .next (settle s (complete d.ring.val (plain d.tag stIgnored []) (Desc.noIrq d) s)) := by
  obtain ⟨hrun, hmbox, hquiet, hfetched⟩ := hserving
  simp [exec, execDescriptorUndefinedOpcode, hrun, hmbox, hfetched, hquiet, reply_of_not_quiet hquiet]

/-- Settles O25: once served, its ring is all that an undefined opcode depends on. -/
theorem undefinedOpcodeIsIgnored : Obligations.UndefinedOpcodeIsIgnored := by
  intro d op s hserving
  rw [exec_descriptorUndefinedOpcode op hserving]
  exact ⟨fun hfree => by simp [hfree], fun hwaits => by simp [hwaits]⟩

end Sys2Proof.Proofs
end

section
/-!
SUPPORT. The block as a whole: how each command reaches its meaning, and what follows of it for a block that has no supplies or is held
in reset (R374, R423).
-/

namespace Sys2Proof.Proofs
open Sys2Proof.Machine

/-! ### How a command reaches its meaning -/

/-- The events that act whatever the phase: supplies, resets, temperature and the endpoint's own resets. -/
def actsAlways (c : Instr) : Option (State → State) :=
  match c with
  | .powerOn f => some (powerOn f)
  | .resetNAssert => some resetAssert
  | .resetNRelease r b => some (resetRelease r b)
  | .internalReset b => some (internalReset b)
  | .pfailNAssert => some pfailAssert
  | .flushComplete => some flushComplete
  | .pfailGlitchRestart b => some (glitchRestart b)
  | .railOutOfRange n => some (railOut n)
  | .thermalWarn t => some (thermalWarn t)
  | .thermalWarnRelease t => some (thermalRelease t)
  | .thermalTrip t => some (thermalTrip t)
  | .thermalTripRestart t b => some (tripRestart t b)
  | .watchdogExpiry b => some (watchdog b)
  | .functionLevelReset => some endpointReset
  | .perstNAssert => some endpointReset
  | .pcieLinkDown => some endpointReset
  | _ => none

/-- The ways in which a command's meaning is guarded by the device's phase. -/
inductive Guarded (c : Instr) : (State → Host.Outcome State Fault Refusal) → Prop
  | always (f : State → State) (h : actsAlways c = some f) : Guarded c (always f)
  | running (f : State → State) : Guarded c (whileRunning f)
  | reachable (f : State → State) : Guarded c (whileReachable f)
  | powered (f : State → State) : Guarded c (poweredUp f)
  | host (x : CmdDef) (i : Instr) (d : Desc) : Guarded c (runCmd x i d)
  | softReset (d : Desc) : Guarded c (execSoftReset d)
  | undefinedOpcode (d : Desc) (op : Nat) : Guarded c (execDescriptorUndefinedOpcode d op)

/-- Every command is guarded in one of these ways. -/
theorem exec_guarded (c : Instr) : Guarded c (exec c) := by
  cases c <;>
    first
    | exact .running _
    | exact .host _ _ _
    | exact .reachable _
    | exact .always _ rfl
    | exact .powered _
    | exact .softReset _
    | exact .undefinedOpcode _ _

/-! ### Every step answers -/

theorem whileReachable_answers (f : State → State) (s : State) : ∃ t, whileReachable f s = .next t := by
  unfold whileReachable
  split <;> exact ⟨_, rfl⟩

theorem poweredUp_answers (f : State → State) (s : State) : ∃ t, poweredUp f s = .next t := by
  unfold poweredUp
  split <;> exact ⟨_, rfl⟩

theorem execSoftReset_answers (d : Desc) (s : State) : ∃ t, execSoftReset d s = .next t := by
  obtain ⟨t, h⟩ := Laws.runCmd_answers softResetDef (.softReset d) d s
  exact ⟨softRestart t, by simp [execSoftReset, h]⟩

theorem execDescriptorUndefinedOpcode_answers (d : Desc) (op : Nat) (s : State) :
    ∃ t, execDescriptorUndefinedOpcode d op s = .next t := by
  unfold execDescriptorUndefinedOpcode
  split
  · split
    · exact ⟨_, rfl⟩
    · split <;> exact ⟨_, rfl⟩
  · split <;> exact ⟨_, rfl⟩
  · exact ⟨_, rfl⟩

theorem exec_answers (c : Instr) (s : State) : ∃ t, exec c s = .next t := by
  have hguarded := exec_guarded c
  generalize exec c = g at hguarded ⊢
  cases hguarded with
  | always f _ => exact ⟨_, rfl⟩
  | running f => exact ⟨_, rfl⟩
  | reachable f => exact whileReachable_answers f s
  | powered f => exact poweredUp_answers f s
  | host x i d => exact Laws.runCmd_answers x i d s
  | softReset d => exact execSoftReset_answers d s
  | undefinedOpcode d op => exact execDescriptorUndefinedOpcode_answers d op s

theorem retry_answers (l : List Waiting) (s : State) : ∃ t, retry l s = .next t := by
  induction l generalizing s with
  | nil => exact ⟨s, rfl⟩
  | cons w l ih =>
    obtain ⟨t, h⟩ := exec_answers w.cmd (s.onHost fun x => { x with quiet := w.quiet })
    simp only [retry, h]
    exact ih _

theorem idle_answers (s : State) : ∃ t, idle s = .next t := by
  unfold idle
  split
  · exact retry_answers _ _
  · exact ⟨_, rfl⟩

/-- Settles O3: a command answers whatever guards its meaning, and so does each command tried again on an empty queue. -/
theorem everyStepAnswers : Obligations.EveryStepAnswers := by
  intro s
  unfold Runs step
  split
  · exact idle_answers s
  · exact exec_answers _ _

/-- Settles O1. -/
theorem stepRunsFront : Obligations.StepRunsFront := fun _ _ => rfl

/-! ### A block that is off or held in reset (R374, R423) -/

/-- The block has no supplies, or its reset net is driven. -/
def Asleep (s : State) : Prop := s.dev.phase = .off ∨ s.dev.phase = .inReset

/-- Asleep, a command that does not act always changes nothing. -/
theorem exec_asleep {c : Instr} {s : State} (hs : Asleep s) (hc : actsAlways c = none) : exec c s = .next s := by
  have hguarded := exec_guarded c
  generalize exec c = g at hguarded ⊢
  cases hguarded with
  | always f h => simp [hc] at h
  | running f => rcases hs with h | h <;> simp [whileRunning, h]
  | reachable f => rcases hs with h | h <;> simp [whileReachable, h]
  | powered f => rcases hs with h | h <;> simp [poweredUp, h]
  | host x i d => rcases hs with h | h <;> simp [runCmd, h]
  | softReset d => rcases hs with h | h <;> simp [execSoftReset, runCmd, softRestart, h]
  | undefinedOpcode d op => rcases hs with h | h <;> simp [execDescriptorUndefinedOpcode, h]

/-- A command that acts always answers what its meaning makes of the state. -/
theorem exec_of_actsAlways {c : Instr} {f : State → State} (s : State) (hc : actsAlways c = some f) :
    exec c s = .next (settle s (f s)) := by
  cases c <;> simp only [actsAlways, Option.some.injEq, reduceCtorEq] at hc <;> subst hc <;> rfl

theorem alive_of_asleep {s : State} (hs : Asleep s) : alive s = false := by
  rcases hs with h | h <;> simp [alive, h]

/-- On an empty queue an asleep block does not count. -/
theorem idle_asleep {s : State} (hs : Asleep s) : idle s = .next s := by
  have hrun : s.dev.phase ≠ .running := by rcases hs with h | h <;> simp [h]
  simp [idle, hrun, cycle, alive_of_asleep hs]

theorem keepImage_self (s : State) : keepImage s s = s := if_pos ⟨rfl, rfl⟩

theorem settle_self_asleep {s : State} (hs : Asleep s) : settle s s = s := by
  simp [settle, keepImage_self, alive_of_asleep hs]

/-! ### Without supplies (R423) -/

/-- Without supplies every event but POWER_ON finds nothing to act on. -/
theorem actsAlways_off {c : Instr} {f : State → State} {s : State} (hs : s.dev.phase = .off) (hc : actsAlways c = some f)
    (hp : ∀ g, c ≠ .powerOn g) : f s = s := by
  cases c <;> simp only [actsAlways, Option.some.injEq, reduceCtorEq] at hc <;> subst hc
  case powerOn g => exact absurd rfl (hp g)
  case internalReset b => cases hd : s.dev.bootDue <;> simp [internalReset, hs, hd]
  all_goals
    simp [resetAssert, resetRelease, pfailAssert, flushComplete, glitchRestart, railOut, thermalWarn, thermalRelease, thermalTrip,
      tripRestart, watchdog, endpointReset, guarded, hs]

theorem exec_off {c : Instr} {s : State} (hs : s.dev.phase = .off) (hp : ∀ g, c ≠ .powerOn g) : exec c s = .next s := by
  cases hc : actsAlways c with
  | none => exact exec_asleep (.inl hs) hc
  | some f => rw [exec_of_actsAlways s hc, actsAlways_off hs hc hp, settle_self_asleep (.inl hs)]

/-- Settles O4: without supplies the command at the front changes nothing, so the step takes it off the queue alone. -/
theorem unpoweredStandsStill : Obligations.UnpoweredStandsStill := by
  rintro s t ⟨hoff, hpending⟩ hstep
  have ht : t = { s with pending := s.pending.tail } := by
    cases hq : s.pending with
    | nil =>
      simp only [step, hq, idle_asleep (.inl hoff), Host.Outcome.next.injEq] at hstep
      rw [← hstep, List.tail_nil, ← hq]
    | cons c rest =>
      have hc : ∀ g, c ≠ .powerOn g := fun g h => hpending g (by simp [hq, h])
      simp only [step, hq, exec_off (s := { s with pending := rest }) hoff hc, Host.Outcome.next.injEq] at hstep
      exact hstep.symm
  subst ht
  exact ⟨⟨hoff, fun f h => hpending f (List.mem_of_mem_tail h)⟩, rfl⟩

/-! ### Held in reset (R374) -/

/-- The device is held in reset in both, with the same queue, and of the groups only the device's latches and the HOST island may
differ. -/
structure HeldAs (s t : State) : Prop where
  phase : t.dev.phase = .inReset
  pending : t.pending = s.pending
  groups : t = { s with dev := t.dev, host := t.host, prot := t.prot, past := t.past }
  prot : t.prot = s.prot

/-- What follows an effect while the device is held in reset notes at most what the NAND holds. -/
theorem HeldAs.settled {s t : State} (h : HeldAs s t) (a : State) : HeldAs s (settle a t) := by
  obtain ⟨past, hk⟩ := Laws.keepImage_shape a t
  obtain ⟨hphase, hpending, hgroups, hprot⟩ := h
  have hsettle : settle a t = { t with past := past } := by
    rw [settle, hk]
    exact if_neg (by simp [alive, hphase])
  rw [hsettle]
  exact ⟨hphase, hpending, by rw [hgroups], hprot⟩

theorem HeldAs.refl {s : State} (h : s.dev.phase = .inReset) : HeldAs s s := ⟨h, rfl, rfl, rfl⟩

/-- Of the events that act always and do not end the reset, RESET_N drops a reset that is due, the endpoint's own resets clear the
HOST island, and the others find nothing to act on. -/
theorem actsAlways_inReset {c : Instr} {f : State → State} {s : State} (hs : s.dev.phase = .inReset) (hc : actsAlways c = some f)
    (he : endsReset c = false) : HeldAs s (f s) := by
  cases c <;> simp only [actsAlways, endsReset, Option.some.injEq, reduceCtorEq, Bool.true_eq_false] at hc he <;> subst hc
  case resetNAssert =>
    simp only [resetAssert, hs]
    exact ⟨hs, rfl, rfl, rfl⟩
  case functionLevelReset | perstNAssert | pcieLinkDown =>
    simp only [endpointReset, hs, reduceCtorEq, if_false]
    exact ⟨hs, rfl, rfl, rfl⟩
  all_goals
    simp only [flushComplete, glitchRestart, thermalWarn, thermalRelease, tripRestart, watchdog, guarded, hs, reduceCtorEq, decide_false,
      Bool.false_and, Bool.false_eq_true, if_false]
    exact .refl hs

theorem exec_inReset {c : Instr} {s : State} (hs : s.dev.phase = .inReset) (he : endsReset c = false) :
    ∃ t, exec c s = .next t ∧ HeldAs s t := by
  cases hc : actsAlways c with
  | none => exact ⟨s, exec_asleep (.inr hs) hc, .refl hs⟩
  | some f => exact ⟨_, exec_of_actsAlways s hc, (actsAlways_inReset hs hc he).settled s⟩

/-- The step of a device held in reset takes the command off the front of its queue and leaves the device held. -/
theorem step_inReset {s t : State} (h : HeldInReset s) (hstep : step s = .next t) :
    HeldAs { s with pending := s.pending.tail } t := by
  obtain ⟨hreset, hpending⟩ := h
  cases hq : s.pending with
  | nil =>
    simp only [step, hq, idle_asleep (.inr hreset), Host.Outcome.next.injEq] at hstep
    rw [← hstep, List.tail_nil, ← hq]
    exact .refl hreset
  | cons c rest =>
    obtain ⟨u, hu, hheld⟩ := exec_inReset (c := c) (s := { s with pending := rest }) hreset (hpending c (by simp [hq]))
    simp only [step, hq, hu, Host.Outcome.next.injEq] at hstep
    rw [← hstep]
    exact hheld

/-- Settles O5: the commands left by `endsReset` keep `HeldAs`, and the queue only shortens. -/
theorem resetHoldsTheBlock : Obligations.ResetHoldsTheBlock := by
  intro s t h hstep
  obtain ⟨hphase, hqueue, hgroups, hprot⟩ := step_inReset h hstep
  refine ⟨⟨hphase, fun c hc => h.2 c ?_⟩, hprot, ?_⟩
  · rw [hqueue] at hc
    exact List.mem_of_mem_tail hc
  · rw [hgroups]
    simp

/-- Settles O6. -/
theorem resetMeetsTheInvariants : Obligations.ResetMeetsTheInvariants :=
  ⟨⟨rfl, fun _ h => absurd h List.not_mem_nil⟩, rfl, rfl⟩

/-! ### What follows an effect (R37, R39, R40, R53) -/

/-- Settles O8: an effect's image is kept, latches fall, and at most two vectors are signalled. -/
theorem settlingTouchesOnlyLatches : Obligations.SettlingTouchesOnlyLatches := by
  intro a b
  obtain ⟨past, hk⟩ := Laws.keepImage_shape a b
  by_cases halive : alive (keepImage a b) = true
  · obtain ⟨rs, rb, lo, hrelax, hrs, hrb, hlo⟩ := Laws.relax_shape (keepImage a b)
    have signals : ∀ (c : Prop) [Decidable c] (v : Nat) (x : State), ∃ out pba,
        (if c then x else signal v x) = { x with host := { x.host with out := out, pba := pba } } := by
      intro c _ v x
      split
      · exact ⟨x.host.out, x.host.pba, rfl⟩
      · exact Laws.signal_shape v x
    obtain ⟨out₁, pba₁, h₁⟩ := signals (devStatus a = devStatus (relax (keepImage a b))) 36 (relax (keepImage a b))
    obtain ⟨out₂, pba₂, h₂⟩ := signals (tbWords a = tbWords (relax (keepImage a b))) 37
      (if devStatus a = devStatus (relax (keepImage a b)) then relax (keepImage a b) else signal 36 (relax (keepImage a b)))
    refine ⟨rs, rb, lo, out₂, pba₂, ?_, ?_, ?_, ?_⟩
    · simp only [settle, if_pos halive]
      rw [h₂, h₁, hrelax, hk]
    all_goals rw [hk] at hrs hrb hlo
    · exact hrs
    · exact hrb
    · exact hlo
  · refine ⟨b.dev.refusedShared, b.dev.refusedBacklog, b.prot.lowering, b.host.out, b.host.pba, ?_, id, id, id⟩
    rw [settle, if_neg halive, hk]

end Sys2Proof.Proofs
end

section
/-!
SUPPORT. One cycle of the TIME clock (R225): what counts, and that what else a cycle does leaves TB6 and TB7.
-/

namespace Sys2Proof.Proofs
open Sys2Proof.Machine

/-! ### Folds -/

/-- What every step of a fold keeps, the fold keeps. -/
theorem foldl_keeps {α β γ : Type} (p : α → γ) {f : α → β → α} (h : ∀ a b, p (f a b) = p a) (l : List β) (a : α) :
    p (l.foldl f a) = p a := by
  induction l generalizing a with
  | nil => rfl
  | cons b l ih => rw [List.foldl_cons, ih, h]

/-! ### Power domains -/

/-- From `s` to `t` nothing changes but the power group. -/
def OnlyPwrChanges (s t : State) : Prop := t = { s with pwr := t.pwr }

theorem OnlyPwrChanges.refl (s : State) : OnlyPwrChanges s s := rfl

theorem OnlyPwrChanges.trans {s t u : State} (hst : OnlyPwrChanges s t) (htu : OnlyPwrChanges t u) : OnlyPwrChanges s u := by
  rw [OnlyPwrChanges] at hst htu ⊢
  rw [htu, hst]

theorem OnlyPwrChanges.foldl {β : Type} {f : State → β → State} (h : ∀ s b, OnlyPwrChanges s (f s b)) (l : List β) (s : State) :
    OnlyPwrChanges s (l.foldl f s) := by
  induction l generalizing s with
  | nil => exact .refl s
  | cons b l ih => exact (h s b).trans (ih _)

theorem onlyPwrChanges_modPdom (d : Nat) (f : Dom → Dom) (s : State) : OnlyPwrChanges s (modPdom d f s) := rfl

theorem onlyPwrChanges_settleIn (d st : Nat) (s : State) : OnlyPwrChanges s (settleIn d st s) := rfl

theorem onlyPwrChanges_finishEntry (d : Nat) (s : State) : OnlyPwrChanges s (finishEntry d s) := by
  unfold finishEntry
  split
  · exact (onlyPwrChanges_settleIn ..).trans (onlyPwrChanges_modPdom ..)
  · exact .refl s

theorem onlyPwrChanges_tryEntry (d st : Nat) (refresh : Bool) (s : State) : OnlyPwrChanges s (tryEntry d st refresh s) := by
  unfold tryEntry
  split
  · exact onlyPwrChanges_modPdom ..
  · exact .foldl (fun _ _ => onlyPwrChanges_modPdom ..) _ s

theorem onlyPwrChanges_holdDown (d : Nat) (s : State) : OnlyPwrChanges s (holdDown d s) := by
  unfold holdDown
  simp only
  split
  · exact onlyPwrChanges_tryEntry ..
  · exact .refl s

theorem onlyPwrChanges_finishEntries (s : State) : OnlyPwrChanges s (finishEntries s) := by
  refine .foldl (fun t d => ?_) _ s
  split
  · exact .refl t
  · exact (onlyPwrChanges_finishEntry d t).trans (onlyPwrChanges_holdDown ..)

/-! ### Status bits and hours -/

theorem closeHours_tim (s : State) : (closeHours s).tim = s.tim := by
  refine foldl_keeps State.tim (fun t k => ?_) _ s
  simp only [closeHour, hourSummary]
  split
  · rfl
  · split
    · simp
    · split
      · simp
      · split <;> simp

theorem refreshBits_tb6 (s : State) : (refreshBits s).tim.tb6 = s.tim.tb6 := rfl

theorem refreshBits_tb7 (s : State) : (refreshBits s).tim.tb7 = s.tim.tb7 := rfl

/-! ### The cycle -/

/-- A cycle of a device that runs counts 4 ns on TB6 and TB7 (R225). -/
theorem cycle_counts {s : State} (hrun : s.dev.phase = .running) :
    (cycle s).tim.tb6 = s.tim.tb6 + 4 * nsUnit ∧ (cycle s).tim.tb7 = s.tim.tb7 + 4 * nsUnit := by
  have halive : alive s = true := by simp [alive, hrun]
  have hpwr := onlyPwrChanges_finishEntries (s.onTim fun t => tick t s)
  have hcycle : cycle s = settle s (closeHours (refreshBits (finishEntries (s.onTim fun t => tick t s)))) := by
    have hphase : (finishEntries (s.onTim fun t => tick t s)).dev.phase = .running := by rw [hpwr]; exact hrun
    simp only [cycle, halive, hphase, if_true]
  generalize finishEntries (s.onTim fun t => tick t s) = u at hpwr hcycle
  rw [hcycle, Laws.settle_tim, closeHours_tim, refreshBits_tb6, refreshBits_tb7, hpwr]
  exact ⟨rfl, rfl⟩

/-- Settles O2: an empty queue with nothing waiting is one cycle. -/
theorem emptyQueueCounts : Obligations.EmptyQueueCounts := by
  intro s hqueue hwaiting hrun
  refine ⟨cycle (s.onHost fun h => { h with waiting := [] }), ?_, cycle_counts (s := s.onHost fun h => { h with waiting := [] }) hrun⟩
  simp only [step, hqueue, idle, hrun, hwaiting, if_true, retry]

end Sys2Proof.Proofs
end

section
/-!
SUPPORT. The way of a host command (R47, R48, R62, R66, R69): one that passes every check is performed, one whose tag is recorded is
answered again, one that must wait takes its place.
-/

namespace Sys2Proof.Proofs
open Sys2Proof.Machine

/-! ### A command that passes -/

/-- A command that passes steps 2 to 8 of the check order is performed. -/
theorem judge_of_passes {x : CmdDef} {d : Desc} {s : State} (h : Passes x d s) :
    judge x d s = perform x (ctxOf s (x.role s) d) (spent x d s) := by
  obtain ⟨hrole, ⟨n, hbody, hfits, hsound, hlen, hseal⟩, hnew, hrest⟩ := h
  by_cases hsigned : x.role s = .signed
  · obtain ⟨hverify, hnonce⟩ := hseal hsigned
    rw [hsigned] at hrole hbody hnew hrest
    rw [spent, if_pos hsigned] at hrest ⊢
    cases hsession : session s d.session <;>
      simp only [judge, hsigned, hrole, hbody, hfits, hsound, hlen, hnew, hverify, hnonce, expectedNonce, hsession, hrest, Bool.and_self,
        not_true_eq_false, ne_eq, and_false, if_false, if_true, BitVec.toNat_zero]
  · rw [spent, if_neg hsigned] at hrest ⊢
    simp [judge, hsigned, hrole, hbody, hfits, hsound, hlen, hnew, hrest]

/-- A served command that waits for nothing and passes is performed. -/
theorem runCmd_of_goes {x : CmdDef} {i : Instr} {d : Desc} {s : State} (h : Goes x d s) :
    runCmd x i d s = .next (settle s (performed x d s)) := by
  obtain ⟨⟨hrun, hmbox, -, hfetched⟩, hgo, hseen, hpasses⟩ := h
  rw [Laws.runCmd_starts hrun hmbox hfetched hgo, startCmd_of_firstSeen hseen, judge_of_passes hpasses, performed]

/-- Settles O23: a catalogue command runs as its definition says. -/
theorem hostCommandsTakeEffect : Obligations.HostCommandsTakeEffect := by
  intro c x d s hdef hgoes
  rw [Laws.exec_host s hdef, runCmd_of_goes hgoes]

/-! ### A tag that is recorded (R48) -/

/-- Settles O26: the tag's record is found before any check, and an answer touches the HOST group alone. -/
theorem repeatedTagIsAnsweredAgain : Obligations.RepeatedTagIsAnsweredAgain := by
  intro c x d s y r o hdef hserving hgo hsession hwindow hrecorded hcomplete hrole
  obtain ⟨hrun, hmbox, hquiet, hfetched⟩ := hserving
  have hquiet' : (seeTag d.session d.tag s).host.quiet = false := hquiet
  have hstart : startCmd x d s = complete d.ring.val (again s o) (Desc.noIrq d) (seeTag d.session d.tag s) := by
    simp [startCmd, hsession, hwindow, hrecorded, hcomplete, hrole, reply_of_not_quiet hquiet']
  refine ⟨_, (Laws.exec_host s hdef).trans (Laws.runCmd_starts hrun hmbox hfetched hgo), by rw [hstart], ?_⟩
  rw [hstart, (onlyHostChanges_seeTag d.session d.tag s).trans (onlyHostChanges_complete ..)]
  simp

/-! ### A command that waits (R62, R396) -/

/-- Settles O27. -/
theorem waitingCommandsKeepTheirPlace : Obligations.WaitingCommandsKeepTheirPlace := by
  intro c x d s hdef hserving hwait
  obtain ⟨hrun, hmbox, -, hfetched⟩ := hserving
  refine ⟨{ ring := d.ring.val, objects := x.objects s (ctxOf s (x.role s) d), cmd := c, quiet := s.host.quiet }, rfl, rfl, ?_⟩
  rw [Laws.exec_host s hdef]
  simp [runCmd, hrun, hmbox, hfetched, hwait]

end Sys2Proof.Proofs
end

section
/-!
SUPPORT. Power, reset and start-up (R41 to R45, R57, R374 to R387, R421, R423, R426, R428).
-/

namespace Sys2Proof.Proofs
open Sys2Proof.Machine

/-! ### What a power event leaves of the device -/

/-- A requester readmitted leaves the device's own registers (R364). -/
theorem readmit_dev (who : Nat) (s : State) : (readmit who s).dev = s.dev := by
  unfold readmit
  split
  · rw [Laws.yew_dev, Laws.onPwr_dev]
  · rfl

/-- The hold-up sequence of a device that runs (R41, R43). -/
theorem holdUp_dev (trip : Bool) (s : State) :
    (holdUp trip s).dev.phase = .flushing ∧ (holdUp trip s).dev.mboxReady = false ∧ (holdUp trip s).dev.devReady = false
      ∧ (holdUp trip s).dev.thermalTrip = trip := by
  simp only [holdUp, readmit_dev]
  exact ⟨rfl, rfl, rfl, rfl⟩

theorem loseSectors_intake (lost : List Sector) (s : State) : (loseSectors lost s).prot.intake = s.prot.intake := by
  unfold loseSectors
  split <;> rfl

theorem loseYew_prot (n : Nat) (s : State) : (loseYew n s).prot = s.prot := by
  unfold loseYew
  split <;> rfl

/-- Of the intake entries an interrupted flush leaves those that lie whole in the pages it programmed (R44). -/
theorem cutFlush_prot (pages : Nat) (s : State) :
    (cutFlush pages s).prot.sealOk = false
      ∧ (cutFlush pages s).prot.intake
        = if (flushPages s).headD 0 ≤ pages then s.prot.intake else wholeIn (4096 * pages) s.prot.intake := by
  refine ⟨rfl, ?_⟩
  have hfirst : ((flushPages s).take 1).sum = (flushPages s).headD 0 := by simp [flushPages]
  simp only [cutFlush, Laws.onCop_prot, Laws.onProt_prot, loseYew_prot, loseSectors_intake, hfirst]

theorem chargePart_dev (ns : Nat) (d : Drive) (s : State) : (chargePart ns d s).dev = s.dev := by
  unfold chargePart
  split
  · rfl
  · split <;> rfl

theorem stopDrive_dev (ds : List Drive) (s : State) : (stopDrive ds s).dev = s.dev := by
  rw [stopDrive, Laws.onLau_dev]
  exact foldl_keeps State.dev (fun _ _ => by rfl) ds s

/-- The display's drive stops without touching the device's own registers (R371). -/
theorem stopInFrame_dev (s : State) : (stopInFrame s).dev = s.dev := by
  unfold stopInFrame
  split
  · rfl
  · rw [stopDrive_dev, foldl_keeps State.dev (fun t d => chargePart_dev _ d t)]

/-- The flush that ends turns the phase: the reset that was deferred, the hold after a trip, or FLUSHED, with its seal (R43, R426, R428). -/
theorem flushComplete_ends {s : State} (h : s.dev.phase = .flushing) :
    (flushComplete s).dev.phase
        = (if s.dev.deferredReset then .inReset else if s.dev.thermalTrip then .thermalHold else .flushed)
      ∧ (flushComplete s).prot.sealOk = true ∧ (flushComplete s).prot.flushWritten = true := by
  simp only [flushComplete, h, Laws.onDev_dev, Laws.onCop_dev, Laws.onProt_dev, Laws.onLau_dev, stopInFrame_dev]
  refine ⟨?_, rfl, rfl⟩
  split <;> rfl

/-- Settles O9: each event's effect on the phase, which what follows the effect leaves. -/
theorem powerEventsTurnThePhase : Obligations.PowerEventsTurnThePhase := by
  refine ⟨fun s f => ⟨_, rfl, ?_⟩, fun s h => ⟨_, rfl, ?_⟩, fun s h => ⟨_, rfl, ?_⟩, fun s h => ⟨_, rfl, ?_⟩, fun s h hd => ⟨_, rfl, ?_⟩,
    fun s h hd => ⟨_, rfl, ?_⟩, fun s n h => ⟨_, rfl, ?_⟩⟩
  · simp [powerOn]
  · simp [resetAssert, h, enterReset]
  · simp [resetAssert, h]
  · simp [pfailAssert, h, holdUp_dev]
  · simp [flushComplete_ends h, hd]
  · simp [flushComplete_ends h, hd]
  · simp [railOut, h, cutFlush_prot]

/-! ### The domains of a start (R227, R232) -/

/-- From `s` to `t` nothing changes but the TIME group, no domain becomes LOCKED, and TB2 follows none. -/
structure OnlyTimeUnlocked (s t : State) : Prop where
  only : t = { s with tim := t.tim }
  unlocked : ∀ b, (dom t b).state ≠ .locked
  selected : t.tim.selected = none

/-- No domain is LOCKED, and TB2 follows none. -/
def Unlocked (s : State) : Prop := (∀ b, (dom s b).state ≠ .locked) ∧ s.tim.selected = none

theorem OnlyTimeUnlocked.refl {s : State} (h : Unlocked s) : OnlyTimeUnlocked s s := ⟨rfl, h.1, h.2⟩

theorem OnlyTimeUnlocked.then {s t u : State} (hst : OnlyTimeUnlocked s t) (htu : Unlocked t → OnlyTimeUnlocked t u) :
    OnlyTimeUnlocked s u := by
  obtain ⟨h, hb, hs⟩ := hst
  obtain ⟨hu, hb', hs'⟩ := htu ⟨hb, hs⟩
  exact ⟨by rw [hu, h], hb', hs'⟩

theorem dom_modDom (b c : Bool) (f : Domain → Domain) (s : State) :
    dom (modDom b f s) c = if b = c then f (dom s c) else dom s c := by
  cases b <;> cases c <;> rfl

/-- A domain that changes without becoming LOCKED. -/
theorem modDom_unlocked {b : Bool} {f : Domain → Domain} {s : State} (h : Unlocked s) (hf : (f (dom s b)).state ≠ .locked) :
    OnlyTimeUnlocked s (modDom b f s) := by
  obtain ⟨hb, hs⟩ := h
  refine ⟨rfl, fun c => ?_, ?_⟩
  · rw [dom_modDom]
    split
    · next e => rw [← e]; exact hf
    · exact hb c
  · cases b <;> exact hs

theorem lockedDoms_of_unlocked {s : State} (h : Unlocked s) : lockedDoms s = [] := by
  simp [lockedDoms, h.1]

/-- With no domain LOCKED and none followed, what TB2 follows stays. -/
theorem reselect_unlocked {s : State} (h : Unlocked s) : reselect s = refreshBits s := by
  have hfirst : firstStep s = s := by simp [firstStep, lockedDoms_of_unlocked h]
  have hsay : sayDisagree s = s := by simp [sayDisagree, h.1]
  simp [reselect, hfirst, lockedDoms_of_unlocked h, h.2, hsay]

theorem modStat_unlocked {n : Nat} {f : TbStat → TbStat} {s : State} (h : Unlocked s) : OnlyTimeUnlocked s (modStat n f s) :=
  ⟨rfl, h.1, h.2⟩

theorem onlyTime_reselect {s : State} (h : Unlocked s) : OnlyTimeUnlocked s (reselect s) := by
  rw [reselect_unlocked h]
  exact (modStat_unlocked h).then fun h => (modStat_unlocked h).then fun h => (modStat_unlocked h).then fun h =>
    (modStat_unlocked h).then modStat_unlocked

theorem noteFreq_unlocked {b : Bool} {s : State} (h : Unlocked s) : OnlyTimeUnlocked s (noteFreq b s) :=
  modDom_unlocked h (h.1 b)

/-- A domain that turns to a state other than LOCKED says nothing. -/
theorem onlyTime_setDomState {b : Bool} {new : DomState} {s : State} (h : Unlocked s) (hnew : new ≠ .locked) :
    OnlyTimeUnlocked s (setDomState b new s) := by
  simp only [setDomState]
  split
  · exact .refl h
  · rw [if_neg (h.1 b)]
    exact (noteFreq_unlocked h).then fun h => modDom_unlocked h hnew

theorem onlyTime_ite_setDomState {c : Prop} [Decidable c] {b : Bool} {new : DomState} {s t : State} (hnew : new ≠ .locked)
    (h : OnlyTimeUnlocked s t) : OnlyTimeUnlocked s (if c then setDomState b new t else t) := by
  split
  · exact h.then fun h => onlyTime_setDomState h hnew
  · exact h

theorem onlyTime_chooseMaster {b : Bool} {s : State} (h : Unlocked s) : OnlyTimeUnlocked s (chooseMaster b s) := by
  simp only [chooseMaster]
  split
  · exact .refl h
  · split
    all_goals
      apply onlyTime_ite_setDomState (by simp)
      exact modDom_unlocked h (h.1 b)

theorem onlyTime_turnPort {b alt : Bool} {s : State} (h : Unlocked s) : OnlyTimeUnlocked s (turnPort b alt s) :=
  ((modDom_unlocked h (by simpa [Domain.announce] using h.1 b)).then onlyTime_chooseMaster).then onlyTime_reselect

theorem onlyTime_startDomain {b : Bool} {s : State} (h : Unlocked s) : OnlyTimeUnlocked s (startDomain b s) := by
  have hlisten : ∀ {f : Domain → Domain}, (∀ d, (f d).state = d.state) →
      OnlyTimeUnlocked s (setDomState b .listening (modDom b f s)) := fun hf =>
    (modDom_unlocked h (by rw [hf]; exact h.1 b)).then fun h => onlyTime_setDomState h (by simp)
  simp only [startDomain]
  split
  · exact hlisten fun _ => by rfl
  · exact (hlisten fun _ => by rfl).then onlyTime_turnPort

theorem onlyTime_startDomains {s : State} (h : Unlocked s) : OnlyTimeUnlocked s (startDomains s) := by
  have go : ∀ {b : Bool} {t : State}, Unlocked t →
      OnlyTimeUnlocked t (if (dom t b).cfg.getLsbD 0 then startDomain b t else t) := by
    intro b t h
    split
    · exact onlyTime_startDomain h
    · exact .refl h
  exact ((go h).then go).then onlyTime_reselect

/-! ### The device's registers after a start that fails (R387) -/

/-- A state whose TIME group is the one a start makes has no domain LOCKED. -/
theorem unlocked_of_startTime {s : State} {outage : Option Nat} {took : Nat} {t : TimeUnit} (h : s.tim = startTime outage took t) :
    Unlocked s := by
  refine ⟨fun b => ?_, by rw [h]; rfl⟩
  cases b <;> simp [dom, h, startTime, freshDomain]

theorem startLaurel_dev (incomplete : Bool) (s : State) : (startLaurel incomplete s).dev = s.dev := by
  simp only [startLaurel]
  split <;> split <;> rfl

theorem startLaurel_tim (incomplete : Bool) (s : State) : (startLaurel incomplete s).tim = s.tim := by
  simp only [startLaurel]
  split <;> split <;> rfl

/-- The islands restarted, the device keeps its fitting and the set point requested, and takes the role sampled (R2, R421). -/
theorem restart_dev (role : Option Bool) (b : BootIn) (cause : Nat) (s : State) :
    (restart false role b cause s).dev.core = role.getD s.dev.core ∧ (restart false role b cause s).dev.avs = s.dev.avs
      ∧ (restart false role b cause s).dev.fit = s.dev.fit := by
  simp only [restart, Bool.false_eq_true, if_false]
  rw [(onlyTime_startDomains (unlocked_of_startTime (startLaurel_tim _ _))).only, startLaurel_dev]
  exact ⟨rfl, rfl, rfl⟩

theorem endTrial_dev (tries : Bool) (s : State) : (endTrial tries s).dev = s.dev := by
  simp only [endTrial]
  split
  · simp
  · rfl

/-- The set point stands once it has been requested; nothing else of the device's registers changes (R421). -/
theorem requestSetPoint_dev (s : State) : (requestSetPoint s).dev = { s.dev with avs := s.dev.fit.setPoint } := by
  have hemit : ∀ l : List Nat, (l.foldl (fun t mv => emit (.avs mv) t) s).dev = s.dev := fun l =>
    foldl_keeps State.dev (fun _ _ => by rfl) l s
  simp only [requestSetPoint, Laws.onDev_dev, hemit]

theorem chooseSlot_of_unreadable {b : BootIn} (hA : b.slotA = false) (hB : b.slotB = false) (s : State) : chooseSlot b s = none := by
  simp [chooseSlot, slotPasses, hA, hB]

/-- Settles O11. -/
theorem failedStartRecovers : Obligations.FailedStartRecovers := by
  intro s r b hreset
  have hexec : exec (.resetNRelease r b) s = .next (settle s (start (some r) b s.dev.cause s)) := by
    simp only [exec, execResetNRelease, always, resetRelease, hreset]
  obtain ⟨hcore, havs, hfit⟩ := restart_dev (some r) b s.dev.cause s
  refine ⟨fun hlink => ⟨_, hexec, ?_⟩, fun hlink hholly => ⟨_, hexec, ?_⟩, fun hlink hholly hA hB => ⟨_, hexec, ?_⟩⟩
  · simp [start, hlink, enterRecovery, hcore, havs]
  · simp [start, hlink, hholly, enterRecovery, hcore, havs]
  · simp [start, hlink, hholly, chooseSlot_of_unreadable hA hB, enterRecovery, requestSetPoint_dev, endTrial_dev, hcore, hfit]

/-! ### The start-up sequence (R375 to R387, R421) -/

/-- The set point after so many steps from one to another. -/
def avsAfter (from_ want i : Nat) : Nat := if from_ ≤ want then min want (from_ + 25 * i) else max want (from_ - 25 * i)

theorem avsAfter_zero (a w : Nat) : avsAfter a w 0 = a := by
  unfold avsAfter
  split <;> omega

/-- One step is 25 mV at most. -/
theorem avsAfter_succ (a w i : Nat) :
    avsAfter a w i ≤ avsAfter a w (i + 1) + 25 ∧ avsAfter a w (i + 1) ≤ avsAfter a w i + 25 := by
  unfold avsAfter
  split <;> omega

/-- How many set points are requested. -/
def avsCount (from_ want : Nat) : Nat := max 1 (ceilDiv (max from_ want - min from_ want) 25)

/-- The last set point requested is the one wanted. -/
theorem avsAfter_count (a w : Nat) : avsAfter a w (avsCount a w) = w := by
  unfold avsAfter avsCount ceilDiv
  split <;> omega

theorem avsSteps_eq (a w : Nat) : avsSteps a w = (List.range (avsCount a w)).map fun i => avsAfter a w (i + 1) := rfl

/-- The set points from the one that stands, next to those requested. -/
theorem avsSteps_pairs (a w : Nat) :
    (a :: avsSteps a w).zip (avsSteps a w) = (List.range (avsCount a w)).map fun i => (avsAfter a w i, avsAfter a w (i + 1)) := by
  refine List.ext_getElem (by simp [avsSteps_eq]) fun i h₁ h₂ => ?_
  cases i with
  | zero => simp [avsSteps_eq, avsAfter_zero]
  | succ i => simp [avsSteps_eq]

theorem avsSteps_getLast (a w : Nat) : (avsSteps a w).getLast? = some w := by
  obtain ⟨n, hn⟩ : ∃ n, avsCount a w = n + 1 := ⟨avsCount a w - 1, by unfold avsCount; omega⟩
  rw [avsSteps_eq, hn, List.range_succ, List.map_append]
  simp [← hn, avsAfter_count]

theorem foldl_emit_mem {α : Type} (f : α → Out) (l : List α) (s : State) {o : Out} (h : o ∈ s.host.out ∨ ∃ x ∈ l, f x = o) :
    o ∈ (l.foldl (fun t x => emit (f x) t) s).host.out := by
  induction l generalizing s with
  | nil => simpa using h
  | cons x l ih =>
    refine ih _ ?_
    rcases h with h | ⟨y, hy, rfl⟩
    · exact .inl (by simp [h])
    · rcases List.mem_cons.1 hy with rfl | hy
      · exact .inl (by simp)
      · exact .inr ⟨y, hy, rfl⟩

/-- The request of the set point stands in `avs` and is sent in its steps. -/
theorem requestSetPoint_sends (s : State) {mv : Nat} (h : mv ∈ avsSteps s.dev.avs s.dev.fit.setPoint) :
    .avs mv ∈ (requestSetPoint s).host.out :=
  foldl_emit_mem Out.avs _ s (.inr ⟨mv, h, rfl⟩)

theorem start_boots {role : Option Bool} {b : BootIn} {cause : Nat} {s : State} {inB rewrite : Bool} (hlink : b.dieLink = true)
    (hholly : b.holly = true) (hildin : b.ildin = true)
    (hslot : chooseSlot b (requestSetPoint (endTrial (decide (cause = 6)) (restart false role b cause s))) = some (inB, rewrite)) :
    start role b cause s
      = bootStorage b s.prot.flushWritten (s.prot.flushWritten && !s.prot.sealOk) cause
          (measureBoot b (runSlot inB rewrite (requestSetPoint (endTrial (decide (cause = 6)) (restart false role b cause s))))) := by
  simp only [start, hlink, hholly, hildin, not_true_eq_false, if_false, if_true, hslot]

theorem exec_softReset {d : Desc} {s : State} (h : Goes softResetDef d s) :
    exec (.softReset d) s = .next (softRestart (settle s (performed softResetDef d s))) := by
  simp only [exec, execSoftReset, runCmd_of_goes h]

/-- Settles O10. -/
theorem startsRunTheSequence : Obligations.StartsRunTheSequence := by
  refine ⟨⟨fun s r b h => ?_, fun s b c h hdue => ?_, fun s b h => ?_, fun s t b h ht => ?_, fun s b h ht => ?_, fun s h hwait htb3 => ?_⟩,
    fun d s => exec_softReset, fun s r b inB rewrite h hlink hholly hildin hslot => ?_,
    fun s => ⟨by rw [requestSetPoint_dev], fun mv => requestSetPoint_sends s⟩,
    fun a w => ⟨avsSteps_getLast a w, ?_⟩⟩
  · simp [exec, execResetNRelease, always, resetRelease, h]
  · simp [exec, execInternalReset, always, internalReset, h, hdue]
  · simp [exec, execPfailGlitchRestart, always, glitchRestart, h]
  · simp [exec, execThermalTripRestart, always, tripRestart, h, ht, senseTemp]
  · simp [exec, execWatchdogExpiry, always, watchdog, guarded, h, ht]
  · simp [exec, execRestoreMarksCreate, whileRunning, restoreMarksCreate, guarded, h, hwait, htb3]
  · simp only [exec, execResetNRelease, always, resetRelease, h, start_boots hlink hholly hildin hslot]
  · simp [avsSteps_pairs, avsAfter_succ]

/-! ### The junction's temperature (R428) -/

theorem onlyPwrChanges_thermalPoints (s : State) : OnlyPwrChanges s (thermalPoints s) :=
  .foldl (fun _ _ => onlyPwrChanges_modPdom ..) _ s

theorem thermalPoints_dev (s : State) : (thermalPoints s).dev = s.dev := by
  rw [onlyPwrChanges_thermalPoints s]

/-- Settles O12. -/
theorem junctionThresholds : Obligations.JunctionThresholds := by
  intro s t hrun
  refine ⟨fun hhold ht => ⟨_, rfl, ?_⟩, fun ht => ⟨_, rfl, ?_⟩, fun ht => ⟨_, rfl, ?_⟩⟩
  · simp [thermalWarn, guarded, hrun, hhold, ht, thermalPoints_dev, senseTemp]
  · simp [thermalRelease, guarded, hrun, ht]
  · have hge : ¬ t ≤ s.dev.fit.tmax + 20 := by omega
    simp [thermalTrip, hge, hrun, holdUp_dev]

/-! ### A reset of the HOST island (R57) -/

theorem get_mapVals {α β : Type} (f : Nat → α → β) (t : Tbl α) (n : Nat) :
    Tbl.get (Tbl.mapVals t f) n = (Tbl.get t n).map (f n) := by
  induction t with
  | nil => rfl
  | cons p t ih =>
    obtain ⟨k, v⟩ := p
    simp only [Tbl.mapVals, List.map_cons, Tbl.get] at ih ⊢
    split
    · next e => subst e; rfl
    · exact ih

/-- Of each ring the cursor, the last sequence and what has been delivered stand (R57, R74). -/
theorem ring_hostReset (s : State) (n : Nat) : ring (hostReset s) n = resetRing (ring s n) := by
  simp only [ring, hostReset, Laws.onHost_host, Tbl.getD, get_mapVals]
  cases Tbl.get s.host.rings n <;> rfl

theorem endpointReset_eq {s : State} (h : s.dev.phase ≠ .off) : endpointReset s = hostReset s := if_neg h

/-- Settles O13. -/
theorem hostIslandReset : Obligations.HostIslandReset := by
  intro s h
  have hexec : always endpointReset s = .next (settle s (hostReset s)) := by rw [always, endpointReset_eq h]
  refine ⟨hexec, hexec, hexec, rfl, ring_hostReset s, ?_, ?_, ?_, ?_⟩
  · simp only [hostReset, Laws.onHost_host, List.mem_map]
    rintro x ⟨y, -, rfl⟩
    rfl
  · simp only [hostReset, Laws.onHost_host, List.mem_map]
    rintro w ⟨y, -, rfl⟩
    rfl
  · exact List.length_map ..
  · exact List.length_map ..

end Sys2Proof.Proofs
end

section
/-!
SUPPORT. The rings as the host reaches them (R52, R59, R60, R62 to R64, R73 to R75): what a register write leaves of a ring, and the
statements about rings, results, the stalled pop and interrupts.
-/

namespace Sys2Proof.Proofs
open Sys2Proof.Machine

/-! ### A ring and what serves it -/

@[simp] theorem ring_modRing_same (n : Nat) (f : Ring → Ring) (s : State) : ring (modRing n f s) n = f (ring s n) := by
  simp [ring, modRing]

@[simp] theorem modRing_met (n : Nat) (f : Ring → Ring) (s : State) : (modRing n f s).met = s.met := rfl

@[simp] theorem ring_emit (o : Out) (s : State) (n : Nat) : ring (emit o s) n = ring s n := rfl

@[simp] theorem ring_signal (v : Nat) (s : State) (n : Nat) : ring (signal v s) n = ring s n := by
  simp [ring]

@[simp] theorem ring_settle (a b : State) (n : Nat) : ring (settle a b) n = ring b n := by
  simp [ring]

/-- What serving a completion or submission ring may change of it: its own indices, what it holds and its coalescing. -/
def RingServed (r q : Ring) : Prop :=
  q = { r with sqHead := q.sqHead, outstanding := q.outstanding, cqTail := q.cqTail, cqPhase := q.cqPhase, heldCq := q.heldCq,
               cqUnsignalled := q.cqUnsignalled, cqDeadline := q.cqDeadline }

theorem RingServed.refl (r : Ring) : RingServed r r := rfl

theorem RingServed.trans {p q r : Ring} (hpq : RingServed p q) (hqr : RingServed q r) : RingServed p r := by
  rw [RingServed] at hpq hqr ⊢
  rw [hqr, hpq]

theorem RingServed.ite {c : Prop} [Decidable c] {r : Ring} {n : Nat} {t u : State} (ht : RingServed r (ring t n))
    (hu : RingServed r (ring u n)) : RingServed r (ring (if c then t else u) n) := by
  split
  · exact ht
  · exact hu

theorem ringServed_fetch (n : Nat) (s : State) : RingServed (ring s n) (ring (fetch n s) n) :=
  .ite (by rw [ring_modRing_same]; rfl) (.refl _)

theorem ringServed_cqInterrupt (n : Nat) (s : State) : RingServed (ring s n) (ring (cqInterrupt n s) n) :=
  .ite (.refl _) (.ite (by rw [ring_signal, ring_modRing_same]; rfl) (by rw [ring_modRing_same]; rfl))

theorem ringServed_writeEntry (n : Nat) (c : Completion) (noIrq : Bool) (s : State) :
    RingServed (ring s n) (ring (writeEntry n c noIrq s) n) := by
  refine .trans (.ite ?_ (.trans ?_ (ringServed_cqInterrupt ..))) (ringServed_fetch ..) <;>
    rw [ring_modRing_same, ring_emit] <;> rfl

theorem ringServed_drainHeld (n : Nat) (l : List (Completion × Bool)) (s : State) :
    RingServed (ring s n) (ring (drainHeld n l s) n) := by
  induction l generalizing s with
  | nil => rw [drainHeld, ring_modRing_same]; rfl
  | cons x l ih =>
    obtain ⟨c, noIrq⟩ := x
    rw [drainHeld]
    split
    · exact (ringServed_writeEntry n c noIrq s).trans (ih _)
    · rw [ring_modRing_same]; rfl

theorem ringServed_drainRing (n : Nat) (s : State) : RingServed (ring s n) (ring (drainRing n s) n) :=
  (ringServed_drainHeld ..).trans (ringServed_fetch ..)

/-! ### The registers of a ring (R62 to R64, R75) -/

theorem ringExists_of_lt {n : Nat} (h : n < 16) : ringExists n = true := decide_eq_true h

theorem writeSqTail_sqTail {n : Nat} (v : Word) (s : State) (hn : n < 16) : (ring (writeSqTail n v s) n).sqTail = v.truncate 12 := by
  simp only [writeSqTail, guarded, ringExists_of_lt hn, if_true]
  rw [ringServed_fetch, ring_modRing_same]

theorem writeCqHead_cqHead {n : Nat} (v : Word) (s : State) (hn : n < 16) : (ring (writeCqHead n v s) n).cqHead = v.truncate 12 := by
  simp only [writeCqHead, guarded, ringExists_of_lt hn, if_true]
  rw [ringServed_drainRing, ring_modRing_same]

/-- CQ_CTRL takes a write whose CQ_ORDER is at most 6 and, while the ring submits, unchanged (R60, R64). -/
def cqCtrlTaken (r : Ring) (v : Word) : Prop := bits v 0 4 ≤ 6 ∧ (r.submits = false ∨ bits v 0 4 = bits r.cqCtrl 0 4)

theorem writeCqCtrl_of_taken {n : Nat} {v : Word} {s : State} (hn : n < 16) (h : cqCtrlTaken (ring s n) v) :
    (ring (writeCqCtrl n v s) n).cqCtrl = v &&& 0xFFFFFF3F#32 := by
  obtain ⟨horder, hsubmits⟩ := h
  have hok : (ringExists n && decide (bits v 0 4 ≤ 6) && (!(ring s n).submits || bits v 0 4 == bits (ring s n).cqCtrl 0 4)) = true := by
    simp only [Bool.and_eq_true, Bool.or_eq_true, decide_eq_true_eq, Bool.not_eq_true', beq_iff_eq]
    exact ⟨⟨ringExists_of_lt hn, horder⟩, hsubmits⟩
  simp only [writeCqCtrl, guarded, hok, if_true]
  rw [ringServed_drainRing, ring_modRing_same]

theorem writeCqCtrl_of_ignored {n : Nat} {v : Word} {s : State} (h : ¬ cqCtrlTaken (ring s n) v) : writeCqCtrl n v s = s := by
  have hok : ¬ (ringExists n && decide (bits v 0 4 ≤ 6) && (!(ring s n).submits || bits v 0 4 == bits (ring s n).cqCtrl 0 4)) = true := by
    intro hok
    simp only [Bool.and_eq_true, Bool.or_eq_true, decide_eq_true_eq, Bool.not_eq_true', beq_iff_eq] at hok
    exact h ⟨hok.1.2, hok.2⟩
  simp only [writeCqCtrl, guarded, if_neg hok]

/-- RING_CTRL holds what is written, whatever it starts (R64, R75). -/
theorem writeRingCtrl_ringCtrl {n : Nat} (v : Word) (s : State) (hn : n < 16) : (ring (writeRingCtrl n v s) n).ringCtrl = v &&& 3#32 := by
  simp only [writeRingCtrl, guarded, ringExists_of_lt hn, if_true]
  rw [ringServed_fetch, exportRestart]
  split <;> simp

/-- A ring of exports that becomes enabled writes again from its cursor (R75). -/
theorem writeErCtrl_enables {n : Nat} {v : Word} {s : State} (hn : n < 16) (hv : v.getLsbD 0 = true)
    (hring : (ring s n).ringCtrl.getLsbD 1 = true) (hoff : (ring s n).erCtrl.getLsbD 0 = false) :
    (ring (writeErCtrl n v s) n).erCtrl = v &&& 0xFFFFFF03#32
      ∧ (ring (writeErCtrl n v s) n).erWritten = (ring (writeErCtrl n v s) n).erCursor.toNat := by
  have hmask : (v &&& 0xFFFFFF03#32).getLsbD 0 = true := by rw [BitVec.getLsbD_and, hv]; rfl
  have hbefore : (ring s n).exports = false := by simp only [Ring.exports, hring, hoff, Bool.and_false]
  have hafter : (ring (modRing n (fun r => { r with erCtrl := v &&& 0xFFFFFF03#32 }) s) n).exports = true := by
    simp only [ring_modRing_same, Ring.exports, hring, hmask, Bool.and_self]
  simp only [writeErCtrl, guarded, ringExists_of_lt hn, if_true]
  rw [exportRestart, if_pos (by rw [hafter, hbefore]; rfl)]
  simp

/-- SQ_BASE and CQ_BASE stand while the ring submits (R64). -/
theorem writeBase_of_submits {n off : Nat} {upper : Bool} {v : Word} {s : State} (hoff : off ≠ 0x20) (h : (ring s n).submits = true) :
    writeBase n off upper v s = s := by
  simp [writeBase, guarded, write64, hoff, h]

/-- REGISTER_WRITE of a whole aligned word of BAR0 outside the Laurel window reaches the register that lies there (R58, R59). -/
theorem exec_registerWrite_word {off : Nat} {v : Word} {s : State} (h : s.dev.phase = .running) (haligned : off % 4 = 0)
    (hoff : ¬ (0x80000 ≤ off ∧ off < 0x90000)) :
    exec (.registerWrite false off 15#4 v) s = .next (settle s (writeBar0Word off v s)) := by
  have hwrite : registerWrite false off 15#4 v s = writeBar0Word off v s := by
    simp [registerWrite, h, writeBar0, hoff, guarded, haligned]
  rw [← hwrite]
  exact Laws.whileReachable_runs _ h

/-- A word of a ring's control block (table Ring control block). -/
theorem writeBar0Word_ring {n off : Nat} (v : Word) (s : State) (hn : n < 16) (hoff : off < 0x80) :
    writeBar0Word (0x1000 + n * 0x80 + off) v s = writeRingWord n off v s := by
  have hblock : (0x1000 + n * 0x80 + off - 0x1000) / 0x80 = n := by omega
  have hword : (0x1000 + n * 0x80 + off - 0x1000) % 0x80 = off := by omega
  rw [writeBar0Word, if_pos (by omega), writeHostWord, if_pos (by omega), hblock, hword]

/-- Settles O14. -/
theorem ringBasesStandWhileSubmitting : Obligations.RingBasesStandWhileSubmitting := by
  intro s n v hrun hn
  refine ⟨fun horder hsubmits => ⟨_, Laws.whileReachable_runs _ hrun, ?_⟩, fun h => ?_, fun hsubmits off hoff => ?_⟩
  · rw [ring_settle, writeCqCtrl_of_taken hn ⟨horder, hsubmits⟩]
  · have hignored : ¬ cqCtrlTaken (ring s n) v := by
      rintro ⟨horder, hsubmits⟩
      rcases h with h | ⟨h, hne⟩
      · omega
      · rcases hsubmits with h' | h'
        · simp [h] at h'
        · exact hne h'
    exact (Laws.whileReachable_runs _ hrun).trans (by rw [writeCqCtrl_of_ignored hignored])
  · have hcases : off = 0x04 ∨ off = 0x14 := by simpa using hoff
    have hstands : writeRingWord n off v s = s := by
      rcases hcases with rfl | rfl
      · exact writeBase_of_submits (by decide) hsubmits
      · exact writeBase_of_submits (by decide) hsubmits
    refine ⟨_, exec_registerWrite_word hrun (by omega) (by omega), ?_⟩
    rw [writeBar0Word_ring v s hn (by omega), hstands, ring_settle]
    exact ⟨rfl, rfl⟩

/-- Settles O15. -/
theorem ringAndResultRegistersHold : Obligations.RingAndResultRegistersHold := by
  refine ⟨fun s n v hrun hn => ⟨⟨_, Laws.whileReachable_runs _ hrun, ?_⟩, ⟨_, Laws.whileReachable_runs _ hrun, ?_⟩,
    ⟨_, Laws.whileReachable_runs _ hrun, ?_⟩, fun hv hring hoff => ⟨_, Laws.whileRunning_runs _ hrun, ?_⟩⟩,
    fun s v hrun => ⟨Laws.whileRunning_runs _ hrun, Laws.whileRunning_runs _ hrun, Laws.whileRunning_runs _ hrun⟩⟩
  · rw [ring_settle, writeSqTail_sqTail v s hn]
  · rw [ring_settle, writeCqHead_cqHead v s hn]
  · rw [ring_settle, writeRingCtrl_ringCtrl v s hn]
  · simpa using writeErCtrl_enables hn hv hring hoff

/-! ### Export rings (R52, R59, R74, R75) -/

/-- A ring of exports, at its interrupt, leaves its cursor, credit and producer (R73). -/
theorem erInterrupt_keeps (n : Nat) (s : State) : ∃ k t, ring (erInterrupt n s) n = { ring s n with erUnsignalled := k, erDeadline := t } := by
  simp only [erInterrupt]
  split
  · exact ⟨_, _, rfl⟩
  · split
    · exact ⟨0, none, by rw [ring_signal, ring_modRing_same]⟩
    · exact ⟨_, _, by rw [ring_modRing_same]⟩

theorem erInterrupt_met (n : Nat) (s : State) : (erInterrupt n s).met = s.met := by
  simp only [erInterrupt]
  split
  · rfl
  · split
    · rw [Laws.signal_met]; rfl
    · rfl

/-- The next record is written where credit and room cover it and it does not end at the ring's end (R74). -/
theorem exportRecordWrite_of_fits {n : Nat} {x : Rec} {s : State} (hn : n < 16) (hexports : (ring s n).exports = true)
    (hnext : nextExport s n = some x) (hroom : recLength x < (ring s n).erSize.toNat - (ring s n).erProducer.toNat)
    (hcredit : recLength x ≤ (ring s n).erCredit) :
    let t := exportRecordWrite n s
    (ring t n).erCredit = (ring s n).erCredit - recLength x
      ∧ (ring t n).erProducer.toNat = ((ring s n).erProducer.toNat + recLength x) % 2 ^ 32 ∧ (ring t n).erWritten = x.seq ∧ t.met = s.met := by
  have hend : (ring s n).erProducer.toNat + recLength x ≠ (ring s n).erSize.toNat := by omega
  let u := modRing n (fun y => { y with erWritten := x.seq, erEver := max y.erEver x.seq })
    (putExport n (recLength x) (recBytes s.dev.deviceId x (decide (x.seq ≤ (ring s n).erEver))) s)
  have hwrite : exportRecordWrite n s = erInterrupt n u := by
    simp only [exportRecordWrite, ringExists_of_lt hn, hexports, Bool.and_self, if_true, hnext, if_neg (Nat.not_lt.2 hroom.le),
      if_neg (Nat.not_lt.2 hcredit), u]
  obtain ⟨k, t, hring⟩ := erInterrupt_keeps n u
  simp only [hwrite, hring, erInterrupt_met]
  simp [u, putExport, hend]

theorem exportRecordWrite_of_no_credit {n : Nat} {x : Rec} {s : State} (hn : n < 16) (hexports : (ring s n).exports = true)
    (hnext : nextExport s n = some x) (hroom : recLength x ≤ (ring s n).erSize.toNat - (ring s n).erProducer.toNat)
    (hcredit : (ring s n).erCredit < recLength x) : exportRecordWrite n s = s := by
  simp only [exportRecordWrite, ringExists_of_lt hn, hexports, Bool.and_self, if_true, hnext, if_neg (Nat.not_lt.2 hroom), if_pos hcredit]

/-- A record that would straddle the ring's end has a filler of the room left written first (R74). -/
theorem exportRecordWrite_of_straddles {n : Nat} {x : Rec} {s : State} (hn : n < 16) (hexports : (ring s n).exports = true)
    (hnext : nextExport s n = some x)
    (hroom : (ring s n).erSize.toNat - (ring s n).erProducer.toNat < recLength x)
    (hleft : 0 < (ring s n).erSize.toNat - (ring s n).erProducer.toNat)
    (hcredit : (ring s n).erSize.toNat - (ring s n).erProducer.toNat ≤ (ring s n).erCredit) :
    exportRecordWrite n s = putExport n ((ring s n).erSize.toNat - (ring s n).erProducer.toNat)
      (fillerBytes ((ring s n).erSize.toNat - (ring s n).erProducer.toNat)) s := by
  simp only [exportRecordWrite, ringExists_of_lt hn, hexports, Bool.and_self, if_true, hnext, if_pos hroom, hleft, hcredit, and_self]

theorem judgeBacklog_keeps (s : State) (n : Nat) :
    ring (judgeBacklog s) n = ring s n ∧ (judgeBacklog s).met.records = s.met.records := by
  simp only [judgeBacklog, ring]
  split <;> split <;> (try split) <;> simp

theorem trimSome_keeps (s : State) : (trimSome s).host = s.host ∧ (trimSome s).met = s.met := by
  simp only [trimSome]
  split <;> exact ⟨rfl, rfl⟩

/-- With no shard moving, a cursor that advances releases the records at or below it, and nothing else changes of the records (R52). -/
theorem advanceCursor_of_advances {n : Nat} {c : DWord} {s : State} (hlow : (ring s n).erCursor.toNat ≤ c.toNat)
    (hhigh : c.toNat ≤ (ring s n).erLastSeq.toNat) (hmoving : ∀ k ∈ s.met.shards, k.2.moving = none) :
    (ring (advanceCursor n c s) n).erCursor = c
      ∧ ∀ x ∈ (advanceCursor n c s).met.records, x.ring = n → x.seq ≠ 0 → c.toNat < x.seq := by
  have hwaiting : ∀ t : State, t.met.shards = s.met.shards → shardsWaiting t n = [] := by
    intro t ht
    rw [shardsWaiting, ht, List.filter_eq_nil_iff.2, List.map_nil]
    intro k hk
    simp [hmoving k hk]
  have htrimmed : ∀ (b : Prop) [Decidable b] (t : State), (if b then t else trimSome t).host = t.host ∧ (if b then t else trimSome t).met = t.met := by
    intro b _ t
    split
    · exact ⟨rfl, rfl⟩
    · exact trimSome_keeps t
  simp only [advanceCursor]
  rw [if_neg (by omega), hwaiting _ (by rw [(htrimmed _ _).2]; rfl)]
  rw [List.foldl_nil, (judgeBacklog_keeps _ n).1, (judgeBacklog_keeps _ n).2, (htrimmed _ _).2, ring, (htrimmed _ _).1]
  refine ⟨congrArg Ring.erCursor (ring_modRing_same n (fun x => { x with erCursor := c }) s), ?_⟩
  intro x hx hxn hseq
  have hkept := (List.mem_filter.1 hx).2
  simpa [hxn, hseq] using hkept

theorem advanceCursor_of_outside {n : Nat} {c : DWord} {s : State}
    (h : c.toNat < (ring s n).erCursor.toNat ∨ (ring s n).erLastSeq.toNat < c.toNat) : advanceCursor n c s = s := if_pos h

theorem writeErCursor_eq {n : Nat} (upper : Bool) (v : Word) (s : State) (hn : n < 16) :
    writeErCursor n upper v s
      = if upper then advanceCursor n (v ++ Tbl.getD (ring s n).low 0x30 0#32) s
        else modRing n (fun r => { r with low := Tbl.put r.low 0x30 v }) s := by
  simp only [writeErCursor, guarded, ringExists_of_lt hn, if_true, write64, Bool.false_eq_true, if_false]

/-- Settles O16. -/
theorem exportRingFlows : Obligations.ExportRingFlows := by
  refine ⟨fun s n v hrun hn => ?_, fun s n v hrun hn => ⟨?_, fun hlow hhigh hmoving => ⟨_, Laws.whileRunning_runs _ hrun, ?_⟩, fun h => ?_⟩,
    fun s n x hrun hn hexports hnext => ⟨fun hroom hcredit => ⟨_, Laws.whileRunning_runs _ hrun, ?_⟩, fun hroom hcredit => ?_,
      fun hroom hleft hcredit => ?_⟩⟩
  · exact (Laws.whileRunning_runs _ hrun).trans (by simp [writeErCredit, guarded, ringExists_of_lt hn])
  · exact (Laws.whileRunning_runs _ hrun).trans (by rw [writeErCursor_eq _ _ _ hn]; rfl)
  · rw [writeErCursor_eq _ _ _ hn, if_pos rfl, ring_settle, Laws.settle_met]
    exact advanceCursor_of_advances hlow hhigh hmoving
  · exact (Laws.whileRunning_runs _ hrun).trans (by rw [writeErCursor_eq _ _ _ hn, if_pos rfl, advanceCursor_of_outside h])
  · rw [ring_settle, Laws.settle_met]
    exact exportRecordWrite_of_fits hn hexports hnext hroom hcredit
  · exact (Laws.whileRunning_runs _ hrun).trans (by rw [exportRecordWrite_of_no_credit hn hexports hnext hroom hcredit])
  · exact (Laws.whileRunning_runs _ hrun).trans (by rw [exportRecordWrite_of_straddles hn hexports hnext hroom hleft hcredit])

/-! ### A pop that stalls (R77) -/

theorem popRead_of_empty {s : State} (r : Option (BitVec 4)) (h : popNotice s.host.notices = none) :
    popRead r s = s.onHost fun h => { h with stalled := h.stalled ++ [(tb6 s, r)] } := by
  simp [popRead, h]

theorem stallTimeout_of_passed {s : State} {t : Nat} {r : Option (BitVec 4)} {rest : List (Nat × Option (BitVec 4))}
    (hstalled : s.host.stalled = (t, r) :: rest) (ht : t + s.host.stallLimit.toNat * 1000 ≤ tb6 s) :
    stallTimeout s = emit (.read (popBytes r [])) (s.onHost fun h => { h with stalled := rest, latch := [] }) := by
  simp [stallTimeout, endStall, guarded, hstalled, ht]

/-- Settles O18. -/
theorem emptyPopStalls : Obligations.EmptyPopStalls := by
  intro s hrun
  refine ⟨fun hempty => ⟨?_, fun be hbe => ?_⟩, fun t r rest hstalled ht => ?_⟩
  · rw [exec_noticePop hrun, popRead_of_empty none hempty]
  · rw [exec_rcRead_noticePop hrun hbe, popRead_of_empty (some be) hempty]
  · exact (Laws.whileRunning_runs _ hrun).trans (by rw [stallTimeout_of_passed hstalled ht])

/-! ### Interrupts (R73) -/

/-- One vector of those whose message may be sent. -/
def sendVector (t : State) (v : Nat) : State :=
  let e := Tbl.getD t.host.msix v {}
  if t.host.pba.getLsbD v && !e.masked then
    emit (.msix v e.addr e.data) (t.onHost fun h => { h with pba := h.pba &&& ~~~ BitVec.ofNat 64 (2 ^ v) })
  else t

theorem sendPending_eq {s : State} (hen : s.host.msixEnable = true) (hmask : s.host.msixMask = false) :
    sendPending s = (List.range 64).foldl sendVector s := by
  simp only [sendPending, hen, hmask, Bool.not_false, Bool.and_self, if_true]
  rfl

theorem sendVector_of_clear {t : State} {v : Nat} (h : t.host.pba = 0#64) : sendVector t v = t := by
  simp [sendVector, h]

theorem sendVector_msix (t : State) (v : Nat) : (sendVector t v).host.msix = t.host.msix := by
  simp only [sendVector]
  split <;> rfl

theorem sendVector_out_mem {t : State} {o : Out} (v : Nat) (h : o ∈ t.host.out) : o ∈ (sendVector t v).host.out := by
  simp only [sendVector]
  split
  · simp [h]
  · exact h

/-- A vector leaves the pending bits of the others. -/
theorem sendVector_pba_ne {t : State} {v w : Nat} (hne : w ≠ v) (hw : w < 64) :
    (sendVector t v).host.pba.getLsbD w = t.host.pba.getLsbD w := by
  simp only [sendVector]
  split
  · simp only [Laws.emit_host_pba, Laws.onHost_host, BitVec.getLsbD_and, BitVec.getLsbD_not, BitVec.getLsbD_ofNat, hw, decide_true,
      Bool.true_and, Nat.testBit_two_pow_of_ne hne.symm, Bool.not_false, Bool.and_true]
  · rfl

/-- A pending vector that is not masked is sent when its turn comes. -/
theorem foldl_sendVector_sends {v : Nat} (hv : v < 64) (l : List Nat) (t : State) (hmem : v ∈ l) (hpending : t.host.pba.getLsbD v = true)
    (hunmasked : (Tbl.getD t.host.msix v {}).masked = false) :
    Out.msix v (Tbl.getD t.host.msix v {}).addr (Tbl.getD t.host.msix v {}).data ∈ (l.foldl sendVector t).host.out := by
  have stays : ∀ (l : List Nat) (u : State) (o : Out), o ∈ u.host.out → o ∈ (l.foldl sendVector u).host.out := by
    intro l
    induction l with
    | nil => exact fun _ _ h => h
    | cons w l ih => exact fun u o h => ih _ o (sendVector_out_mem w h)
  induction l generalizing t with
  | nil => exact absurd hmem List.not_mem_nil
  | cons w l ih =>
    by_cases hw : v = w
    · subst hw
      refine stays l _ _ ?_
      simp only [sendVector, hpending, hunmasked, Bool.not_false, Bool.and_self, if_true]
      simp
    · have hrest : v ∈ l := by simpa [hw] using hmem
      have := ih (sendVector t w) hrest (by rw [sendVector_pba_ne hw hv, hpending]) (by rw [sendVector_msix, hunmasked])
      rwa [sendVector_msix] at this

theorem msixUnmask_vector_sends {s : State} {v : Fin 64} (hen : s.host.msixEnable = true) (hmask : s.host.msixMask = false)
    (hpending : s.host.pba.getLsbD v.val = true) :
    Out.msix v.val (Tbl.getD s.host.msix v.val {}).addr (Tbl.getD s.host.msix v.val {}).data
      ∈ (msixUnmask (.vector v false) s).host.out := by
  simp only [msixUnmask, modMsix]
  rw [sendPending_eq (by exact hen) (by exact hmask)]
  have hsends := foldl_sendVector_sends v.isLt (List.range 64)
    (s.onHost fun h => { h with msix := Tbl.upd h.msix v.val {} fun e => { e with masked := false } })
    (List.mem_range.2 v.isLt) hpending (by simp)
  simpa using hsends

theorem msixUnmask_control_of_clear {s : State} (h : s.host.pba = 0#64) :
    msixUnmask (.control true false) s = s.onHost fun h => { h with msixEnable := true, msixMask := false } := by
  have hstays : ∀ (l : List Nat) (t : State), t.host.pba = 0#64 → l.foldl sendVector t = t := by
    intro l t ht
    induction l with
    | nil => rfl
    | cons v l ih => rw [List.foldl_cons, sendVector_of_clear ht, ih]
  simp only [msixUnmask]
  rw [sendPending_eq (by rfl) (by rfl), hstays _ _ (by exact h)]

theorem coalesceTimeout_of_passed {s : State} {v d : Nat} (hv : v < 16) (hdeadline : (ring s v).cqDeadline = some d) (hd : d ≤ tb6 s) :
    coalesceTimeout v s = signal v (modRing v (fun r => { r with cqUnsignalled := 0, cqDeadline := none }) s) := by
  simp [coalesceTimeout, hv, guarded, hdeadline, hd]

/-- Settles O19. -/
theorem interruptsAreDelivered : Obligations.InterruptsAreDelivered := by
  refine ⟨fun s hrun hclear => ?_, fun s v hrun hen hmask hpending => ⟨_, Laws.whileReachable_runs _ hrun, ?_⟩,
    fun s v d hrun hv hdeadline hd => ?_⟩
  · exact (Laws.whileReachable_runs _ hrun).trans (by rw [msixUnmask_control_of_clear hclear])
  · exact Laws.settle_out_mem _ _ (msixUnmask_vector_sends hen hmask hpending)
  · exact (Laws.whileReachable_runs _ hrun).trans (by rw [coalesceTimeout_of_passed hv hdeadline hd])

end Sys2Proof.Proofs
end

section
/-!
SUPPORT. Registers and memories as the host reaches them (R58 to R60, R65, R70, R97): which writes are taken, what is stored, and which
counters a read clears.
-/

namespace Sys2Proof.Proofs
open Sys2Proof.Machine

/-! ### Writes that are ignored, writes that are taken (R58 to R60, R70) -/

theorem registerWrite_bar0 {s : State} (h : s.dev.phase = .running) (off : Nat) (be : BitVec 4) (v : Word) :
    registerWrite false off be v s = writeBar0 off be v s := by
  simp [registerWrite, h]

/-- Outside the Laurel window a part word or a misaligned access is ignored (R59). -/
theorem writeBar0_of_part {off : Nat} {be : BitVec 4} (v : Word) (s : State) (hoff : off < 0x80000) (h : be ≠ 15#4 ∨ off % 4 ≠ 0) :
    writeBar0 off be v s = s := by
  have hguard : ¬ (off % 4 == 0 && be == 15#4) = true := by
    simp only [Bool.and_eq_true, beq_iff_eq]
    tauto
  rw [writeBar0, if_neg (by omega), guarded, if_neg hguard]

/-- Below the ring blocks, in the result window and in the maintenance block no register lies that a write reaches (R58, R70). -/
theorem writeBar0Word_of_no_register {off : Nat} (v : Word) (s : State)
    (h : 0xFF000 ≤ off ∨ (0x50000 ≤ off ∧ off < 0x60000) ∨ off < 0x1000) : writeBar0Word off v s = s := by
  unfold writeBar0Word
  by_cases hlow : off < 0x1000
  · rw [if_pos (by omega), writeHostWord, if_neg (by omega), if_neg (by omega), if_neg (by omega), if_neg (by omega), if_neg (by omega)]
  · repeat rw [if_neg (by omega)]

theorem writeBar0_of_no_register {off : Nat} (v : Word) (s : State)
    (h : 0xFF000 ≤ off ∨ (0x50000 ≤ off ∧ off < 0x60000) ∨ off < 0x1000) : writeBar0 off 15#4 v s = s := by
  rw [writeBar0, if_neg (by omega), guarded, writeBar0Word_of_no_register v s h, ite_self]

/-- Settles O20. -/
theorem registerWritesTakeOrIgnore : Obligations.RegisterWritesTakeOrIgnore := by
  intro s v hrun
  have hword := fun {off} => exec_registerWrite_word (off := off) (v := v) hrun
  have hbar0 := fun off be => (Laws.whileReachable_runs (registerWrite false off be v) hrun).trans
    (by rw [registerWrite_bar0 hrun off be v])
  refine ⟨fun off be hoff h => ?_, fun off h => ?_, fun h => ?_, fun h => ?_, fun h => ?_, fun h => ?_, fun h => ?_, fun h => ?_⟩
  · exact (hbar0 off be).trans (by rw [writeBar0_of_part v s hoff h])
  · exact (hbar0 off 15#4).trans (by rw [writeBar0_of_no_register v s h])
  · exact (hword (by decide) (by decide)).trans (by simp [writeBar0Word, writeStall, guarded, h])
  · exact (hword (by decide) (by decide)).trans (by simp [writeBar0Word, writeStall, guarded, Nat.not_le.2 h])
  · exact (hword (by decide) (by decide)).trans (by simp [writeBar0Word, writeTimeUnit, writeTimeControl, guarded, h])
  · exact (hword (by decide) (by decide)).trans (by simp [writeBar0Word, writeTimeUnit, writeTimeControl, guarded, h])
  · exact (hword (by decide) (by decide)).trans (by simp [writeBar0Word, writePowerWord, writeHoldLimit, h])
  · exact (hword (by decide) (by decide)).trans (by simp [writeBar0Word, writePowerWord, writeHoldLimit, h])

/-! ### BAR2 (R59, R65) -/

/-- A run of single-byte writes, those beyond a limit left out. -/
def writeBytes (limit : Nat) (l : List (Nat × Byte)) (m : Memory) : Memory :=
  l.foldl (fun m p => if p.1 < limit then Memory.write m p.1 p.2 else m) m

theorem writeBytes_wf {limit : Nat} (l : List (Nat × Byte)) {m : Memory} (h : Memory.wf m = true) :
    Memory.wf (writeBytes limit l m) = true := by
  induction l generalizing m with
  | nil => exact h
  | cons p l ih =>
    refine ih ?_
    beta_reduce
    split
    · exact Laws.write_wf _ _ h
    · exact h

theorem read_writeBytes_of_notMem {limit a : Nat} (l : List (Nat × Byte)) (m : Memory) (h : a ∉ l.map Prod.fst) :
    Memory.read (writeBytes limit l m) a = Memory.read m a := by
  induction l generalizing m with
  | nil => rfl
  | cons p l ih =>
    simp only [List.map_cons, List.mem_cons, not_or] at h
    refine (ih _ h.2).trans ?_
    beta_reduce
    split
    · exact Laws.read_write_ne m p.2 h.1
    · rfl

theorem read_writeBytes_of_mem {limit a : Nat} {b : Byte} (l : List (Nat × Byte)) (m : Memory) (ha : a < limit) (h : (a, b) ∈ l)
    (hnodup : (l.map Prod.fst).Nodup) : Memory.read (writeBytes limit l m) a = b := by
  induction l generalizing m with
  | nil => exact absurd h List.not_mem_nil
  | cons p l ih =>
    rw [List.map_cons, List.nodup_cons] at hnodup
    rcases List.mem_cons.1 h with rfl | h
    · refine (read_writeBytes_of_notMem l _ hnodup.1).trans ?_
      simp [ha]
    · exact ih _ h hnodup.2

theorem writeBar2_bar2 (off : Nat) (be : BitVec 4) (v : Word) (s : State) :
    (writeBar2 off be v s).host.bar2 = writeBytes (2 ^ 28) (enabledBytes off be v) s.host.bar2 := rfl

theorem mem_enabledBytes {off i : Nat} {be : BitVec 4} {v : Word} (hi : i < 4) (h : be.getLsbD i = true) :
    (off + i, (v >>> (8 * i)).truncate 8) ∈ enabledBytes off be v :=
  List.mem_map.2 ⟨i, List.mem_filter.2 ⟨List.mem_range.2 hi, h⟩, rfl⟩

theorem enabledBytes_fst (off : Nat) (be : BitVec 4) (v : Word) :
    (enabledBytes off be v).map Prod.fst = ((List.range 4).filter fun i => be.getLsbD i).map (off + ·) := by
  simp [enabledBytes]

theorem nodup_enabledBytes (off : Nat) (be : BitVec 4) (v : Word) : ((enabledBytes off be v).map Prod.fst).Nodup := by
  rw [enabledBytes_fst]
  exact (List.nodup_range.filter _).map fun _ _ h => Nat.add_left_cancel h

theorem mem_enabledBytes_fst {off a : Nat} {be : BitVec 4} {v : Word} (h : a ∈ (enabledBytes off be v).map Prod.fst) :
    ∃ i, i < 4 ∧ be.getLsbD i = true ∧ a = off + i := by
  rw [enabledBytes_fst] at h
  obtain ⟨i, hi, rfl⟩ := List.mem_map.1 h
  obtain ⟨hlt, hbe⟩ := List.mem_filter.1 hi
  exact ⟨i, List.mem_range.1 hlt, hbe, rfl⟩

/-- A write of BAR2 stores the bytes it enables. -/
theorem read_writeBar2 {off i : Nat} (be : BitVec 4) (v : Word) (s : State) (hoff : off + 4 ≤ 2 ^ 28) (hi : i < 4) :
    Memory.read (writeBar2 off be v s).host.bar2 (off + i)
      = if be.getLsbD i then (v >>> (8 * i)).truncate 8 else Memory.read s.host.bar2 (off + i) := by
  rw [writeBar2_bar2]
  split
  · next h => exact read_writeBytes_of_mem _ _ (by omega) (mem_enabledBytes hi h) (nodup_enabledBytes ..)
  · next h =>
    refine read_writeBytes_of_notMem _ _ fun hmem => h ?_
    obtain ⟨j, -, hbe, hj⟩ := mem_enabledBytes_fst hmem
    rwa [Nat.add_left_cancel hj]

/-- A write of BAR2 leaves every byte outside its word. -/
theorem read_writeBar2_outside {off a : Nat} (be : BitVec 4) (v : Word) (s : State) (h : a < off ∨ off + 4 ≤ a) :
    Memory.read (writeBar2 off be v s).host.bar2 a = Memory.read s.host.bar2 a := by
  rw [writeBar2_bar2]
  refine read_writeBytes_of_notMem _ _ fun hmem => ?_
  obtain ⟨i, hi, -, rfl⟩ := mem_enabledBytes_fst hmem
  omega

/-! ### The canonical form of the memories -/

theorem writeFrameByte_canonical {off : Nat} {b : Byte} {s : State} (h : MemoriesCanonical s) : MemoriesCanonical (writeFrameByte off b s) := by
  obtain ⟨hbar2, hmem⟩ := h
  unfold writeFrameByte
  split
  · exact ⟨hbar2, Laws.write_wf _ _ hmem⟩
  · exact ⟨hbar2, hmem⟩

/-- In the frame memory a write of the Laurel window reaches no register. -/
theorem writeLaurelWindow_canonical {off : Nat} {be : BitVec 4} {v : Word} {s : State} (hoff : 0x20 ≤ off) (h : MemoriesCanonical s) :
    MemoriesCanonical (writeLaurelWindow off be v s) := by
  have hreg : ∀ (base : Nat) (t : State), 0x1C ≤ base → base % 4 = 0 → base ≠ 0x1C → writeLaurelWord base (enabledBytes off be v) t = t := by
    intro base t h _ hne
    exact if_neg (by omega)
  have hbytes : ∀ (l : List (Nat × Byte)) (t : State), MemoriesCanonical t →
      MemoriesCanonical (l.foldl (fun t p => writeFrameByte p.1 p.2 t) t) := by
    intro l
    induction l with
    | nil => exact fun _ ht => ht
    | cons p l ih => exact fun t ht => ih _ (writeFrameByte_canonical ht)
  rw [writeLaurelWindow, hreg _ _ (by omega) (by omega) (by omega), hreg _ _ (by omega) (by omega) (by omega)]
  exact hbytes _ _ h

theorem stripVp_canonical {s : State} (h : MemoriesCanonical s) : MemoriesCanonical (stripVp s) := by
  unfold stripVp
  split <;> exact h

theorem stripContent_canonical {s : State} (h : MemoriesCanonical s) : MemoriesCanonical (stripContent s) := by
  unfold stripContent
  split
  · exact h
  · obtain ⟨hbar2, hmem⟩ := h
    exact ⟨hbar2, by simp only [Laws.onLau_lau]; exact Laws.writeN_wf _ _ hmem⟩

theorem stripRefresh_canonical {s : State} (h : MemoriesCanonical s) : MemoriesCanonical (stripRefresh s) := by
  unfold stripRefresh guarded
  split
  · exact stripContent_canonical (stripVp_canonical h)
  · exact h

theorem settle_canonical {a b : State} (h : MemoriesCanonical b) : MemoriesCanonical (settle a b) := by
  unfold MemoriesCanonical
  rw [Laws.settle_host_bar2, Laws.settle_lau]
  exact h

/-- Settles O21. -/
theorem memoryWritesStoreTheirBytes : Obligations.MemoryWritesStoreTheirBytes := by
  refine ⟨fun s off be v hrun hoff => ⟨_, Laws.whileReachable_runs _ hrun, ?_⟩, fun s off be v hrun hcanonical =>
    ⟨⟨_, Laws.whileReachable_runs _ hrun, ?_⟩, fun hlow hhigh => ⟨_, Laws.whileReachable_runs _ hrun, ?_⟩,
      ⟨_, Laws.whileReachable_runs _ hrun, ?_⟩⟩⟩
  · rw [Laws.settle_host_bar2]
    exact ⟨fun i hi => read_writeBar2 be v s hoff hi, fun a ha => read_writeBar2_outside be v s ha⟩
  · exact settle_canonical ⟨writeBytes_wf _ hcanonical.1, hcanonical.2⟩
  · rw [registerWrite_bar0 hrun, writeBar0, if_pos (by omega)]
    exact settle_canonical (writeLaurelWindow_canonical (by omega) hcanonical)
  · exact settle_canonical (stripRefresh_canonical hcanonical)

/-! ### Link channels -/

@[simp] theorem chan_modChan_same (n : Nat) (f : Chan → Chan) (s : State) : chan (modChan n f s) n = f (chan s n) := by
  simp [chan, modChan]

theorem chan_modChan_ne {n m : Nat} (f : Chan → Chan) (s : State) (h : m ≠ n) : chan (modChan n f s) m = chan s m := by
  simp only [chan, modChan, Laws.onLane_lane]
  exact Laws.getD_upd_ne _ _ _ _ h

@[simp] theorem chan_settle (a b : State) (n : Nat) : chan (settle a b) n = chan b n := by
  simp [chan]

@[simp] theorem chan_emit (o : Out) (s : State) (n : Nat) : chan (emit o s) n = chan s n := rfl

@[simp] theorem chan_draw (s : State) (n : Nat) : chan s.draw n = chan s n := rfl

/-- A statistic rises and saturates (R97). -/
theorem countStat_stat (n x k : Nat) (s : State) :
    (Tbl.getD (chan (countStat n x k s) n).stats x 0#32).toNat
      = min ((Tbl.getD (chan s n).stats x 0#32).toNat + k) (2 ^ 32 - 1) := by
  simp only [countStat, chan_modChan_same, Laws.getD_upd_same, BitVec.toNat_ofNat]
  exact Nat.mod_eq_of_lt (by omega)

theorem countStat_act (n x k : Nat) (s : State) : (chan (countStat n x k s) n).act = (chan s n).act := by
  simp [countStat]

/-- What a channel has blanked joins its counts and leaves its configuration (R97). -/
theorem accrueBlank_act (n : Nat) (s : State) : (chan (accrueBlank n s) n).act = (chan s n).act := by
  simp only [accrueBlank]
  split
  · rw [countStat_act, countStat_act, chan_modChan_same, chan_draw]
  · rfl

theorem accrueBlank_of_off {n : Nat} {s : State} (h : (chan s n).act.blankOn = false) : accrueBlank n s = s := by
  simp [accrueBlank, h]

/-- The RC statistics lie at whole words of the statistics range. -/
theorem rcStat_bounds {mac x : Nat} (h : rcStat mac x = true) : 0x80 ≤ x ∧ x < 0x100 ∧ x % 4 = 0 := by
  simp only [rcStat, Bool.and_eq_true, Bool.or_eq_true, beq_iff_eq, decide_eq_true_eq] at h
  omega

theorem chanWord_stat {n x : Nat} {s : State} (hx : rcStat (chan s n).act.macType x = true) :
    chanWord s n x = Tbl.getD (chan s n).stats x 0#32 := by
  unfold chanWord
  simp only [if_pos (rcStat_bounds hx).1, if_pos hx]

/-! ### Counters that clear on read (R97) -/

/-- A read of a statistic answers its count, brought up to date where it counts blanking, and clears it. -/
theorem regRead_stat {n x : Nat} {s : State} (hrun : s.dev.phase = .running) (hn : n < 256) (hx : rcStat (chan s n).act.macType x = true) :
    regRead { off := 0x10000 + 0x100 * n + x } s
      = let u := if x = 0x90 ∨ x = 0x94 then accrueBlank n s else s
        emit (.read (le 4 (Tbl.getD (chan u n).stats x 0#32).toNat)) (modChan n (fun c => { c with stats := Tbl.del c.stats x }) u) := by
  obtain ⟨hlow, hhigh, haligned⟩ := rcStat_bounds hx
  have hblock : (0x10000 + 0x100 * n + x - 0x10000) / 0x100 = n := by omega
  have hword : (0x10000 + 0x100 * n + x) % 0x100 = x := by omega
  have hreads : readsInRecovery s (0x10000 + 0x100 * n + x) = true := by simp [readsInRecovery, hrun]
  have hbefore : beforeRead (0x10000 + 0x100 * n + x) s = if x = 0x90 ∨ x = 0x94 then accrueBlank n s else s := by
    rw [beforeRead, hblock, hword]
    exact if_congr (by omega) rfl rfl
  have hact : (chan (beforeRead (0x10000 + 0x100 * n + x) s) n).act = (chan s n).act := by
    rw [hbefore]
    split
    · exact accrueBlank_act n s
    · rfl
  have hword₀ : bar0Word (beforeRead (0x10000 + 0x100 * n + x) s) (0x10000 + 0x100 * n + x)
      = Tbl.getD (chan (beforeRead (0x10000 + 0x100 * n + x) s) n).stats x 0#32 := by
    rw [bar0Word, if_neg (by omega), if_neg (by omega), if_pos (by omega), hblock, hword, chanWord_stat (by rwa [hact])]
  have hread₀ : bar0Read (0x10000 + 0x100 * n + x) 15#4 (beforeRead (0x10000 + 0x100 * n + x) s)
      = modChan n (fun c => { c with stats := Tbl.del c.stats x }) (beforeRead (0x10000 + 0x100 * n + x) s) := by
    rw [bar0Read, if_pos (by omega), hblock, hword, clearStat, hact, guarded, if_pos hx]
  have hpop : ¬ (0x10000 + 0x100 * n + x = 0x30000 ∧ 15#4 ≠ 0#4 ∧ s.dev.phase = .running) := by omega
  simp only [regRead, Bool.false_eq_true, if_false, if_neg hpop]
  rw [readBar0, if_pos ⟨by omega, by decide, hreads⟩]
  simp only [hword₀, hread₀]
  rw [hbefore]
  rfl

/-- Settles O22. -/
theorem countersClearOnRead : Obligations.CountersClearOnRead := by
  intro s n x hrun hn hx
  refine ⟨fun k => countStat_stat n x k s, ?_, accrueBlank_of_off, fun off v hoff => ?_⟩
  · exact (Laws.whileReachable_runs _ hrun).trans (by rw [regRead_stat hrun hn hx])
  · have hstat : 0x80 ≤ off % 256 := hoff ▸ (rcStat_bounds hx).1
    exact (Laws.whileRunning_runs _ hrun).trans (by rw [writeBroadcast, if_pos (.inl hstat)])

end Sys2Proof.Proofs
end

section
/-!
SUPPORT. The commands that set, load or turn a record: what a performed command leaves is its own effect, but for the HOST group, the write
buffer and the count of open values; and what it is applied to is the state it found, but for the HOST group and Hawthorn's counts.
-/

namespace Sys2Proof.Proofs
open Sys2Proof.Machine

/-! ### What a command is applied to and what follows its effect -/

/-- From `s` to `t` nothing changes but the HOST group and the power group. -/
def OnlyHostPwrChanges (s t : State) : Prop := t = { s with host := t.host, pwr := t.pwr }

/-- From `s` to `t` nothing changes but the HOST group, the storage group and the count of open values. -/
def OnlyHostCopFreeChanges (s t : State) : Prop := t = { s with host := t.host, cop := t.cop, free := t.free }

theorem onlyHostPwr_spent (x : CmdDef) (d : Desc) (s : State) : OnlyHostPwrChanges s (spent x d (noted d s)) := by
  rw [spent, claimed, noted]
  split <;> split <;> split <;> rfl

/-- What a performed command leaves is its effect, but for the answer and the commit entry. -/
theorem onlyHostCopFree_perform {x : CmdDef} {c : Ctx} {s u : State} {bs : Bytes} (h : x.act c s = (.result bs, u)) :
    OnlyHostCopFreeChanges u (perform x c s) := by
  have key : ∀ v : State, OnlyHostCopFreeChanges u v → ∀ r o, OnlyHostCopFreeChanges u (answer r c.d o v) := by
    intro v hv r o
    rw [OnlyHostCopFreeChanges] at hv ⊢
    rw [onlyHostChanges_answer r c.d o v, hv]
  simp only [perform, h]
  split
  · apply key
    split <;> rfl
  · apply key
    split <;> rfl

/-- What the rules of a command that is not signed-only see: its inline bytes and its payload. -/
def plainCtx (d : Desc) (s : State) : Ctx := { d, args := d.inline, payload := payloadOf s d }

theorem ctxOf_noted {r : Role} (d : Desc) (s : State) (h : r ≠ .signed) : ctxOf (noted d s) r d = plainCtx d s := by
  have hp : payloadOf (noted d s) d = payloadOf s d := by
    rw [noted]
    split <;> rfl
  rw [ctxOf, if_neg h, hp, plainCtx]

/-- A command that passes and gives a result runs: its effect stands, but for the HOST group, the storage group and the count of open
values. -/
theorem exec_of_goes {c : Instr} {x : CmdDef} {d : Desc} {s u : State} {bs : Bytes} (hdef : hostDef c = some (x, d)) (hgoes : Goes x d s)
    (hrole : x.role (noted d s) ≠ .signed) (hact : x.act (plainCtx d s) (spent x d (noted d s)) = (.result bs, u)) :
    ∃ w, OnlyHostCopFreeChanges u w ∧ exec c s = .next (settle s w) := by
  rw [← ctxOf_noted d s hrole] at hact
  exact ⟨_, onlyHostCopFree_perform hact, hostCommandsTakeEffect c x d s hdef hgoes⟩

theorem of_orFail {b : Bool} {st : Nat} (h : orFail b st = none) : b = true := by
  cases b
  · simp [orFail] at h
  · rfl

/-- A command that passes passes its own check of step 6. -/
theorem args_of_goes {x : CmdDef} {d : Desc} {s : State} (h : Goes x d s) (hrole : x.role (noted d s) ≠ .signed) :
    x.args (spent x d (noted d s)) (plainCtx d s) = none := by
  obtain ⟨-, -, -, -, -, -, hrest⟩ := h
  rw [ctxOf_noted d s hrole] at hrest
  generalize spent x d (noted d s) = u at hrest ⊢
  rw [checkRest] at hrest
  cases hargs : checkArgs x u (plainCtx d s) with
  | some st => simp [hargs] at hrest
  | none =>
    simp only [checkArgs, orElse] at hargs
    grind

/-! ### Settings (O28) -/

section
variable {d : Desc} {s : State}

theorem deviceIdSet_sets (h : Goes deviceIdSetDef d s) :
    ∃ t, exec (.deviceIdSet d) s = .next t ∧ t.dev.deviceId = BitVec.ofNat 32 (field d.inline 0 4)
      ∧ (Tbl.get t.vlt.keys 6).isSome = true := by
  obtain ⟨w, hw, hexec⟩ := exec_of_goes (c := .deviceIdSet d) rfl h nofun rfl
  refine ⟨_, hexec, ?_, ?_⟩
  · rw [Laws.settle_dev_deviceId, hw]
    rfl
  · rw [Laws.settle_vlt, hw]
    simp [rebuildDirectory, syncDirectory, trngStep, drawDirectory, loadDirectory, onKeys]

theorem shareSet_sets (h : Goes shareSetDef d s) :
    ∃ t, exec (.shareSet d) s = .next t ∧ t.dev.share = field d.inline 0 1 ∧ 2 ≤ t.dev.share ∧ t.dev.share ≤ 25 := by
  obtain ⟨w, hw, hexec⟩ := exec_of_goes (c := .shareSet d) rfl h nofun rfl
  have hset : (settle s w).dev.share = field d.inline 0 1 := by rw [Laws.settle_dev_share, hw]; rfl
  have hrange : (decide (2 ≤ field d.inline 0 1) && decide (field d.inline 0 1 ≤ 25)) = true := of_orFail (args_of_goes h nofun)
  exact ⟨_, hexec, hset, by rw [hset]; simpa using hrange⟩

theorem holdupBudgetSet_sets (h : Goes holdupBudgetSetDef d s) :
    ∃ t, exec (.holdupBudgetSet d) s = .next t ∧ t.prot.budget = field d.inline 0 2 ∧ 5 ≤ t.prot.budget ∧ t.prot.budget ≤ 200 := by
  obtain ⟨w, hw, hexec⟩ := exec_of_goes (c := .holdupBudgetSet d) rfl h nofun rfl
  have hset : (settle s w).prot.budget = field d.inline 0 2 := by
    rw [Laws.settle_prot_budget, hw, latchLowered]
    split <;> rfl
  have hrange : decide (5 ≤ field d.inline 0 2 ∧ field d.inline 0 2 ≤ 200 ∧ 524288 ≤ _) = true := of_orFail (args_of_goes h nofun)
  obtain ⟨hlow, hhigh, -⟩ := of_decide_eq_true hrange
  exact ⟨_, hexec, hset, by rw [hset]; exact ⟨hlow, hhigh⟩⟩

theorem ledgerRetentionSet_sets (h : Goes ledgerRetentionSetDef d s) :
    ∃ t, exec (.ledgerRetentionSet d) s = .next t ∧ t.led.retention = field d.inline 0 2 ∧ 62 ≤ t.led.retention
      ∧ t.led.retention ≤ 1100 := by
  obtain ⟨w, hw, hexec⟩ := exec_of_goes (c := .ledgerRetentionSet d) rfl h nofun rfl
  have hset : (settle s w).led.retention = field d.inline 0 2 := by rw [Laws.settle_led, hw]; rfl
  have hrange : (decide (62 ≤ field d.inline 0 2) && decide (field d.inline 0 2 ≤ 1100)) = true := of_orFail (args_of_goes h nofun)
  exact ⟨_, hexec, hset, by rw [hset]; simpa using hrange⟩

theorem yewHoldSet_sets (h : Goes yewHoldSetDef d s) :
    ∃ t, exec (.yewHoldSet d) s = .next t ∧ t.yew.hold = field d.inline 0 2 ∧ 30 ≤ t.yew.hold ∧ t.yew.hold ≤ 10958 := by
  obtain ⟨w, hw, hexec⟩ := exec_of_goes (c := .yewHoldSet d) rfl h nofun rfl
  have hset : (settle s w).yew.hold = field d.inline 0 2 := by rw [Laws.settle_yew, hw]; rfl
  have hrange : (decide (30 ≤ field d.inline 0 2) && decide (field d.inline 0 2 ≤ 10958)) = true := of_orFail (args_of_goes h nofun)
  exact ⟨_, hexec, hset, by rw [hset]; simpa using hrange⟩

theorem drainWindowSet_sets (h : Goes drainWindowSetDef d s) :
    ∃ t, exec (.drainWindowSet d) s = .next t ∧ t.pair.drain = field d.inline 0 1 ∧ 1 ≤ t.pair.drain ∧ t.pair.drain ≤ 60 := by
  obtain ⟨w, hw, hexec⟩ := exec_of_goes (c := .drainWindowSet d) rfl h nofun rfl
  have hset : (settle s w).pair.drain = field d.inline 0 1 := by rw [Laws.settle_pair, hw]; rfl
  have hrange : (decide (1 ≤ field d.inline 0 1) && decide (field d.inline 0 1 ≤ 60)) = true := of_orFail (args_of_goes h nofun)
  exact ⟨_, hexec, hset, by rw [hset]; simpa using hrange⟩

theorem maintUnlock_sets (h : Goes maintUnlockDef d s) :
    ∃ t, exec (.maintUnlock d) s = .next t ∧ t.vlt.maintUnlocked = some d.session := by
  obtain ⟨w, hw, hexec⟩ := exec_of_goes (c := .maintUnlock d) rfl h nofun rfl
  exact ⟨_, hexec, by rw [Laws.settle_vlt, hw]; rfl⟩

end

/-! A completion that is written leaves the sessions. -/

theorem sessions_ite {c : Prop} [Decidable c] {s t u : State} (ht : t.host.sessions = s.host.sessions)
    (hu : u.host.sessions = s.host.sessions) : (if c then t else u).host.sessions = s.host.sessions := by
  split
  · exact ht
  · exact hu

theorem sessions_fetch (n : Nat) (s : State) : (fetch n s).host.sessions = s.host.sessions := sessions_ite rfl rfl

theorem sessions_cqInterrupt (n : Nat) (s : State) : (cqInterrupt n s).host.sessions = s.host.sessions :=
  sessions_ite rfl (sessions_ite (by rw [Laws.signal_host_sessions]; rfl) rfl)

theorem sessions_writeEntry (n : Nat) (c : Completion) (noIrq : Bool) (s : State) :
    (writeEntry n c noIrq s).host.sessions = s.host.sessions :=
  (sessions_fetch ..).trans (sessions_ite rfl (sessions_cqInterrupt ..))

theorem sessions_reply (n : Nat) (c : Completion) (noIrq : Bool) (s : State) :
    (reply n c noIrq s).host.sessions = s.host.sessions :=
  sessions_ite rfl (sessions_ite (sessions_writeEntry ..) rfl)

/-- An answer records itself in the sessions there are, and neither opens nor closes one. -/
theorem ids_answer (recordIt : Bool) (d : Desc) (c : Completion) (s : State) :
    (answer recordIt d c s).host.sessions.map Session.id = s.host.sessions.map Session.id := by
  rw [answer, sessions_reply]
  split
  · simp only [record, modSession, State.onHost, List.map_map]
    refine List.map_congr_left fun y _ => ?_
    simp only [Function.comp_apply]
    split <;> rfl
  · rfl

/-- A durable command with an inline result commits its effect and answers. -/
theorem perform_of_inline {x : CmdDef} {c : Ctx} {s u : State} {bs : Bytes} (h : x.act c s = (.result bs, u)) (hrole : x.role s ≠ .any)
    (htoken : x.token = false) : ∃ r, perform x c s = answer r c.d (plain c.d.tag stDone bs) (commit u) :=
  ⟨_, by simp only [perform, h, htoken, bne_iff_ne, ne_eq, hrole, not_false_eq_true, if_true, Bool.false_eq_true, if_false]; rfl⟩

/-- The session that closes itself is gone: its completion finds no session to be recorded in. -/
theorem sessionClose_closes {d : Desc} {s : State} (h : Goes sessionCloseDef d s) :
    ∃ t, exec (.sessionClose d) s = .next t ∧ ∀ y ∈ t.host.sessions, y.id ≠ d.session := by
  refine ⟨_, hostCommandsTakeEffect (.sessionClose d) _ d s rfl h, fun y hy hid => ?_⟩
  rw [Laws.settle_host_sessions, performed, ctxOf_noted (r := sessionCloseDef.role (noted d s)) d s nofun] at hy
  obtain ⟨r, hperform⟩ := perform_of_inline (x := sessionCloseDef) (c := plainCtx d s) (s := spent sessionCloseDef d (noted d s)) rfl nofun rfl
  have hmem := List.mem_map_of_mem (f := Session.id) hy
  rw [hperform, ids_answer] at hmem
  obtain ⟨z, hz, hzid⟩ := List.mem_map.1 hmem
  have hne : z.id ≠ d.session := by simpa [plainCtx] using (List.mem_filter.1 hz).2
  exact hne (hzid.trans hid)

/-- Settles O28. -/
theorem settingsAreSet : Obligations.SettingsAreSet := fun _ _ =>
  ⟨deviceIdSet_sets, shareSet_sets, holdupBudgetSet_sets, ledgerRetentionSet_sets, yewHoldSet_sets, drainWindowSet_sets,
    maintUnlock_sets, sessionClose_closes⟩

/-! ### Shards (O29) -/

theorem shard_modShard_same (k : Nat) (f : Shard → Shard) (s : State) : shard (modShard k f s) k = f (shard s k) := by
  simp [shard, modShard]

theorem shard_settle (a b : State) (k : Nat) : shard (settle a b) k = shard b k := by simp [shard]

theorem shard_spent (x : CmdDef) (d : Desc) (s : State) (k : Nat) : shard (spent x d (noted d s)) k = shard s k := by
  rw [onlyHostPwr_spent x d s]
  rfl

theorem shard_performed {s t : State} (h : OnlyHostCopFreeChanges s t) (k : Nat) : shard t k = shard s k := by
  rw [h]
  rfl

section
variable {d : Desc} {s : State}

theorem shardCreate_holds (h : Goes shardCreateDef d s) :
    ∃ t, exec (.shardCreate d) s = .next t ∧ (shard t (field d.inline 0 1)).state = .held
      ∧ (shard t (field d.inline 0 1)).epoch = nextEpoch (shard s (field d.inline 0 1)).epoch := by
  obtain ⟨w, hw, hexec⟩ := exec_of_goes (c := .shardCreate d) rfl h nofun rfl
  refine ⟨_, hexec, ?_⟩
  rw [shard_settle, shard_performed hw]
  simp [plainCtx, Ctx.arg, shard_modShard_same, shard_spent]

theorem shardDelete_letsGo (h : Goes shardDeleteDef d s) :
    ∃ t, exec (.shardDelete d) s = .next t ∧ (shard t (field d.inline 0 1)).state = .unheld
      ∧ (shard t (field d.inline 0 1)).epoch = (shard s (field d.inline 0 1)).epoch := by
  obtain ⟨w, hw, hexec⟩ := exec_of_goes (c := .shardDelete d) rfl h nofun rfl
  refine ⟨_, hexec, ?_⟩
  rw [shard_settle, shard_performed hw]
  simp [plainCtx, Ctx.arg, shard_modShard_same, shard_spent]

theorem migratePrepare_incoming (h : Goes migratePrepareDef d s) :
    ∃ t, exec (.migratePrepare d) s = .next t ∧ (shard t (field d.inline 0 1)).state = .incoming := by
  obtain ⟨w, hw, hexec⟩ := exec_of_goes (c := .migratePrepare d) rfl h nofun rfl
  refine ⟨_, hexec, ?_⟩
  rw [shard_settle, shard_performed hw]
  simp [plainCtx, Ctx.arg, shard_modShard_same]

theorem migrateRelease_drains (h : Goes migrateReleaseDef d s) :
    ∃ t, exec (.migrateRelease d) s = .next t ∧ (shard t (field d.inline 0 1)).state = .draining
      ∧ (shard t (field d.inline 0 1)).drainEnd = tb7 s + s.pair.drain * nsMin := by
  obtain ⟨w, hw, hexec⟩ := exec_of_goes (c := .migrateRelease d) rfl h nofun rfl
  refine ⟨_, hexec, ?_⟩
  rw [shard_settle, shard_performed hw, onlyHostPwr_spent migrateReleaseDef d s]
  simp [plainCtx, Ctx.arg, shard, modShard, tb7, State.onMet, State.onTar]

end

/-- Settles O29. -/
theorem shardCommandsTurnTheState : Obligations.ShardCommandsTurnTheState := fun _ _ =>
  ⟨shardCreate_holds, shardDelete_letsGo, migratePrepare_incoming, migrateRelease_drains⟩

/-! ### Loads (O30) -/

section
variable {d : Desc} {s : State}

theorem layoutLoad_replaces (h : Goes layoutLoadDef d s) :
    ∃ t, exec (.layoutLoad d) s = .next t ∧ Tbl.get t.met.layouts (field d.inline 0 1) = some (layoutOf (payloadOf s d)) := by
  obtain ⟨w, hw, hexec⟩ := exec_of_goes (c := .layoutLoad d) rfl h nofun rfl
  refine ⟨_, hexec, ?_⟩
  rw [Laws.settle_met, hw]
  exact Laws.get_put_same ..

theorem ruleSetLoad_replaces (h : Goes ruleSetLoadDef d s) :
    ∃ t, exec (.ruleSetLoad d) s = .next t ∧ Tbl.get t.met.ruleSets (field d.inline 0 1) = some (rulesOf (payloadOf s d)) := by
  obtain ⟨w, hw, hexec⟩ := exec_of_goes (c := .ruleSetLoad d) rfl h nofun rfl
  refine ⟨_, hexec, ?_⟩
  rw [Laws.settle_met, hw]
  exact Laws.get_put_same ..

theorem tamperMapLoad_replaces (h : Goes tamperMapLoadDef d s) :
    ∃ t, exec (.tamperMapLoad d) s = .next t ∧ t.lt.tamperMap = tamperMapOf (payloadOf s d) := by
  obtain ⟨w, hw, hexec⟩ := exec_of_goes (c := .tamperMapLoad d) rfl h nofun rfl
  exact ⟨_, hexec, by rw [Laws.settle_lt, hw]; rfl⟩

theorem brambleDefaults_replaces (h : Goes brambleDefaultsDef d s) :
    ∃ t, exec (.brambleDefaults d) s = .next t
      ∧ Tbl.get t.br.defaults (field d.inline 0 2) = some (brParamsOf (payloadOf s d)) := by
  obtain ⟨w, hw, hexec⟩ := exec_of_goes (c := .brambleDefaults d) rfl h nofun rfl
  refine ⟨_, hexec, ?_⟩
  rw [Laws.settle_br, hw]
  exact Laws.get_put_same ..

end

/-- Settles O30. -/
theorem loadsReplaceRecords : Obligations.LoadsReplaceRecords := fun _ _ =>
  ⟨layoutLoad_replaces, ruleSetLoad_replaces, tamperMapLoad_replaces, brambleDefaults_replaces⟩

/-! ### Own firmware (O31) -/

theorem inactive_modInactive (f : Img → Img) (s : State) : inactive (modInactive f s) = f (inactive s) := by
  cases h : s.fw.activeB <;> simp [inactive, modInactive, State.onFw, h]

theorem fw_performed {s t : State} (h : OnlyHostCopFreeChanges s t) : t.fw = s.fw := by rw [h]

theorem inactive_of_fw {s t : State} (h : t.fw = s.fw) : inactive t = inactive s := by rw [inactive, h, inactive]

section
variable {d : Desc} {s : State}

theorem imageBegin_loads (h : Goes imageBeginDef d s) :
    ∃ t, exec (.imageBegin d) s = .next t ∧ (inactive t).state = .loading ∧ (inactive t).length = field d.inline 0 4 := by
  obtain ⟨w, hw, hexec⟩ := exec_of_goes (c := .imageBegin d) rfl h nofun rfl
  have hinactive := inactive_of_fw ((Laws.settle_fw s w).trans ((fw_performed hw).trans (Laws.yew_fw ..)))
  rw [inactive_modInactive] at hinactive
  exact ⟨_, hexec, by rw [hinactive], by rw [hinactive]; rfl⟩

theorem imageAbort_empties (h : Goes imageAbortDef d s) :
    ∃ t, exec (.imageAbort d) s = .next t ∧ (inactive t).state = .empty := by
  obtain ⟨w, hw, hexec⟩ := exec_of_goes (c := .imageAbort d) rfl h nofun rfl
  have hinactive := inactive_of_fw ((Laws.settle_fw s w).trans (fw_performed hw))
  rw [inactive_modInactive] at hinactive
  exact ⟨_, hexec, by rw [hinactive]⟩

theorem confirm_liftsFloor (h : Goes confirmDef d s) :
    ∃ t, exec (.confirm d) s = .next t ∧ t.fw.floor = max s.fw.floor (runningImg s).version := by
  obtain ⟨w, hw, hexec⟩ := exec_of_goes (c := .confirm d) rfl h nofun rfl
  refine ⟨_, hexec, ?_⟩
  rw [Laws.settle_fw, hw, onlyHostPwr_spent confirmDef d s]
  simp [runningImg, State.onFw]

theorem trial_expires (hrun : s.dev.phase = .running) (htrial : inTrial s = true) (hexpired : s.fw.expired = false)
    (hage : s.fw.trialAt + 600 * nsPerS ≤ tb6 s) :
    ∃ t, exec .fwTrialExpired s = .next t ∧ t.fw.expired = true ∧ t.fw.a = s.fw.a ∧ t.fw.b = s.fw.b :=
  ⟨_, Laws.whileRunning_runs _ hrun, by simp [trialExpired, guarded, htrial, hexpired, hage, State.onFw]⟩

theorem swap_isMade (hrun : s.dev.phase = .running) (hdue : s.vlt.swapDue = true) (howners : s.pwr.owners = []) :
    exec .securityProcessorSwap s = .next (settle s (s.onVlt fun v => { v with swapDue := false })) :=
  (Laws.whileRunning_runs _ hrun).trans (by simp [securitySwap, guarded, hdue, howners])

end

/-- Settles O31. -/
theorem firmwareSlotsTurn : Obligations.FirmwareSlotsTurn :=
  ⟨fun _ _ => imageBegin_loads, fun _ _ => imageAbort_empties, fun _ _ => confirm_liftsFloor, fun _ => trial_expires,
    fun _ => swap_isMade⟩

end Sys2Proof.Proofs
end

section
/-!
SUPPORT. Ports and link channels: what a write to one channel or an event of one port does to the others, and a pass over all of them.
-/

namespace Sys2Proof.Proofs
open Sys2Proof.Machine

/-! ### A pass over a list -/

/-- A pass that turns one part of the state at one element, and leaves that part at every other, turns it once. -/
theorem foldl_turns_once {α β γ : Type} [DecidableEq β] (view : α → γ) (turn : γ → γ) {f : α → β → α} {b : β}
    (hsame : ∀ a, view (f a b) = turn (view a)) (hother : ∀ a c, c ≠ b → view (f a c) = view a) {l : List β} (hl : l.Nodup) (a : α) :
    view (l.foldl f a) = if b ∈ l then turn (view a) else view a := by
  induction l generalizing a with
  | nil => rfl
  | cons c l ih =>
    obtain ⟨hc, hl⟩ := List.nodup_cons.1 hl
    rw [List.foldl_cons, ih hl]
    by_cases hcb : c = b
    · subst hcb
      rw [if_neg hc, if_pos List.mem_cons_self, hsame]
    · simp [hother a c hcb, Ne.symm hcb]

/-- What both branches of a condition show alike. -/
theorem view_ite {α γ : Type} (view : α → γ) {c : Prop} [Decidable c] {t u : α} {v : γ} (ht : view t = v) (hu : view u = v) :
    view (if c then t else u) = v := by
  split
  · exact ht
  · exact hu

/-! ### What leaves the ports, and what a port shows -/

@[simp] theorem port_settle (a b : State) (p : Nat) : port (settle a b) p = port b p := by simp [port]

@[simp] theorem port_emit (o : Out) (s : State) (p : Nat) : port (emit o s) p = port s p := rfl

@[simp] theorem port_countStat (n x k : Nat) (s : State) (p : Nat) : port (countStat n x k s) p = port s p := rfl

@[simp] theorem port_modPort_same (p : Nat) (f : Port → Port) (s : State) : port (modPort p f s) p = f (port s p) := by
  simp [port, modPort]

theorem port_modPort_ne {p q : Nat} (f : Port → Port) (s : State) (h : q ≠ p) : port (modPort p f s) q = port s q := by
  simp only [port, modPort, Laws.onLane_lane]
  exact Laws.getD_upd_ne _ _ _ _ h

@[simp] theorem port_post (code prio source : Nat) (data : Bytes) (s : State) (p : Nat) :
    port (post code prio source data s) p = port s p := by
  simp [port]

@[simp] theorem port_yew (code kind source : Nat) (data : Bytes) (s : State) (p : Nat) :
    port (yew code kind source data s) p = port s p := by
  simp [port]

/-- A notice limited to one a period leaves the ports. -/
theorem port_limited_post (key period code prio source : Nat) (data : Bytes) (s : State) (p : Nat) :
    port (limited key period (post code prio source data) s) p = port s p := by
  rw [limited]
  split
  · rw [port_post]
    rfl
  · rfl

/-! ### The pass of a broadcast write (R78, R79) -/

/-- A write to a channel's block changes that channel alone. -/
theorem chan_writeChan_ne {n m : Nat} (off : Nat) (v : Word) (s : State) (h : m ≠ n) : chan (writeChan n off v s) m = chan s m := by
  simp only [writeChan]
  split
  · exact chan_modChan_ne _ _ h
  · split
    · rfl
    · exact chan_modChan_ne _ _ h

/-- What a write to its block does to a channel. -/
def channelWritten (off : Nat) (v : Word) (c : Chan) : Chan :=
  if off = 0x08 then { c with groupMask := v.truncate 16 }
  else if off = 0x3C then c
  else { c with shadow := writeShadow off v c.shadow }

theorem chan_writeChan_same (n off : Nat) (v : Word) (s : State) : chan (writeChan n off v s) n = channelWritten off v (chan s n) := by
  simp only [writeChan, channelWritten]
  split
  · exact chan_modChan_same ..
  · split
    · rfl
    · exact chan_modChan_same ..

/-- A write to a channel's block touches the lanes alone. -/
theorem writeChan_eq (n off : Nat) (v : Word) (s : State) : writeChan n off v s = { s with lane := (writeChan n off v s).lane } := by
  rw [writeChan]
  split
  · rfl
  · split <;> rfl

theorem targets_nodup (s : State) (off : Nat) : (targets s off).Nodup := by
  rw [targets]
  split
  · exact List.nodup_range
  · split
    · exact List.nodup_range.filter _
    · exact .nil

/-- A broadcast write writes the block of each of its targets, and no other channel. -/
theorem chan_writeBroadcast {off : Nat} (v : Word) (s : State) (hx : off % 256 < 0x80) (hoff : off % 4 = 0) (n : Nat) :
    chan (writeBroadcast off v s) n = if n ∈ targets s off then channelWritten (off % 256) v (chan s n) else chan s n := by
  rw [writeBroadcast, if_neg (by omega)]
  exact foldl_turns_once (f := fun t m => writeChan m (off % 256) v t) (chan · n) (channelWritten (off % 256) v) (fun t => chan_writeChan_same n _ v t)
    (fun t m hm => chan_writeChan_ne _ v t hm.symm) (targets_nodup s off) s

/-- A broadcast write touches the lanes alone. -/
theorem writeBroadcast_eq (off : Nat) (v : Word) (s : State) :
    writeBroadcast off v s = { s with lane := (writeBroadcast off v s).lane } := by
  have hpass : ∀ (l : List Nat) (u : State), l.foldl (fun t n => writeChan n (off % 256) v t) u
      = { u with lane := (l.foldl (fun t n => writeChan n (off % 256) v t) u).lane } := by
    intro l
    induction l with
    | nil => exact fun _ => rfl
    | cons n l ih =>
      intro u
      rw [List.foldl_cons, ih, writeChan_eq]
  by_cases h : 0x80 ≤ off % 256 ∨ off % 4 ≠ 0
  · rw [writeBroadcast, if_pos h]
  · rw [writeBroadcast, if_neg h]
    exact hpass _ s

/-- A device that runs, with channel 0 in group 0 and its shadow as reset. -/
def oneInGroup : State := { dev := { phase := .running }, lane := { chans := [(0, { groupMask := 1#16 })] } }

/-- Refutes O32: a write of BIND through a group block is a direct write, and a direct write of PLAN 7, which is no band plan, is ignored as
a whole (R60, table BIND). -/
theorem not_broadcastReachesItsTargets : ¬ Obligations.BroadcastReachesItsTargets := by
  intro h
  obtain ⟨t, hexec, hbind, -⟩ := h oneInGroup 0 0x70#32 rfl (by omega)
  have hnext : t = settle oneInGroup (writeBroadcast 0x20000 0x70#32 oneInGroup) :=
    (Host.Outcome.next.inj (hexec.symm.trans (Laws.whileRunning_runs _ rfl)))
  have hzero := hbind 0 (by omega) (by decide)
  rw [hnext, chan_settle, chan_writeBroadcast _ _ (by omega) (by omega)] at hzero
  split at hzero <;> exact absurd hzero (by decide)

/-! ### APPLY (R80, R89, R90) -/

/-- From `s` to `t` every channel keeps its configuration in force and its shadow. -/
def ConfigsStand (s t : State) : Prop := ∀ n, (chan t n).act = (chan s n).act ∧ (chan t n).shadow = (chan s n).shadow

theorem ConfigsStand.trans {s t u : State} (hst : ConfigsStand s t) (htu : ConfigsStand t u) : ConfigsStand s u := fun n =>
  ⟨(htu n).1.trans (hst n).1, (htu n).2.trans (hst n).2⟩

theorem ConfigsStand.of_lane {s t : State} (h : t.lane.chans = s.lane.chans) : ConfigsStand s t := fun n => by
  simp [chan, h]

/-- A change of a channel that spares its configurations. -/
theorem configsStand_modChan {n : Nat} {f : Chan → Chan} (h : ∀ c, (f c).act = c.act ∧ (f c).shadow = c.shadow) (s : State) :
    ConfigsStand s (modChan n f s) := by
  intro m
  by_cases hm : m = n
  · subst hm
    rw [chan_modChan_same]
    exact h _
  · rw [chan_modChan_ne _ _ hm]
    exact ⟨rfl, rfl⟩

theorem configsStand_countStat (n x k : Nat) (s : State) : ConfigsStand s (countStat n x k s) :=
  configsStand_modChan (fun _ => ⟨by rfl, by rfl⟩) s

theorem configsStand_accrueBlank (n : Nat) (s : State) : ConfigsStand s (accrueBlank n s) := by
  simp only [accrueBlank]
  split
  · refine .trans (.trans (.trans (t := s.draw) (.of_lane rfl) ?_) (configsStand_countStat n _ _ _)) (configsStand_countStat n _ _ _)
    exact configsStand_modChan (fun _ => ⟨by rfl, by rfl⟩) _
  · exact .of_lane rfl

theorem configsStand_abortChan (n : Nat) (s : State) : ConfigsStand s (abortChan n s) := by
  refine ConfigsStand.trans (t := ((inProgress s _).filter _).foldl _ s) ?_ (.of_lane rfl)
  generalize (inProgress s (chan s n).act.port).filter (fun l => l.lc == n) = l
  induction l generalizing s with
  | nil => exact .of_lane rfl
  | cons x l ih => exact .trans (.trans (configsStand_countStat x.lc _ _ _) (.of_lane rfl)) (ih _)

/-- What APPLY does before the shadow comes into force spares every configuration. -/
theorem applyChan_eq (n : Nat) (s : State) : ∃ (u : State) (f : Chan → Chan), ConfigsStand s u ∧ applyChan n s = modChan n f u
    ∧ ∀ c, (f c).act = c.shadow ∧ (f c).refused = false := by
  refine ⟨_, _, ?_, rfl, fun _ => ⟨rfl, rfl⟩⟩
  split
  · exact (configsStand_accrueBlank n s).trans (configsStand_abortChan n _)
  · exact configsStand_accrueBlank n s

theorem applyChan_takesShadow (n : Nat) (s : State) :
    (chan (applyChan n s) n).act = (chan s n).shadow ∧ (chan (applyChan n s) n).refused = false
      ∧ ∀ m, m ≠ n → (chan (applyChan n s) m).act = (chan s m).act := by
  obtain ⟨u, f, hu, happly, hf⟩ := applyChan_eq n s
  rw [happly]
  refine ⟨?_, ?_, fun m hm => ?_⟩
  · rw [chan_modChan_same, (hf _).1, (hu n).2]
  · rw [chan_modChan_same, (hf _).2]
  · rw [chan_modChan_ne _ _ hm, (hu m).1]

theorem applyWrite_waits {s : State} {v : Word} (hrun : s.dev.phase = .running) (hv : v.getLsbD 0 = true) :
    exec (.applyWrite 0x2103C v) s
      = .next (settle s (s.onLane fun l => { l with applyPending := l.applyPending ++ [(tb6 s, List.range 256)] })) := by
  have htargets : targets s 0x2103C = List.range 256 := by rw [targets, if_pos (by omega)]
  have hsome : List.range 256 ≠ [] := by simp
  refine (Laws.whileRunning_runs _ hrun).trans ?_
  rw [scheduleApply, htargets, guarded, if_pos]
  simp only [hv, bne_iff_ne.2 hsome, Bool.and_true]
  rfl

/-- Settles O33. -/
theorem applyTakesOrRefuses : Obligations.ApplyTakesOrRefuses := by
  refine ⟨⟨fun s v => applyWrite_waits, fun s x hrun hx => ?_, fun s t event h => ?_⟩, fun s n reason => ?_⟩
  · exact (Laws.whileRunning_runs _ hrun).trans (by simp only [applyTakesEffect, hx])
  · rw [mayApply]
    rcases h with h | h <;> simp [h]
  · obtain ⟨hshadow, htaken, hother⟩ := applyChan_takesShadow n s
    refine ⟨by simp [refuseChan], by simp [refuseChan], hshadow, htaken, fun m hm => ⟨chan_modChan_ne _ _ hm, hother m hm⟩⟩

/-! ### The states of a port (R83 to R85) -/

/-- What a SYSREF edge does to a port. -/
def sysrefTurned (onPhase : Bool) (q : Port) : Port :=
  match q.state with
  | .aligned => { q with state := .up, wasDown := false }
  | .up => if onPhase then q else { q with sysrefSlip := min (q.sysrefSlip + 1) 65535 }
  | _ => q

theorem port_seedChannels (p : Nat) (s : State) (q : Nat) : port (seedChannels p s) q = port s q := rfl

theorem port_sysrefPort_same (p : Nat) (onPhase : Bool) (s : State) :
    port (sysrefPort s (p, onPhase)) p = sysrefTurned onPhase (port s p) := by
  cases hstate : (port s p).state <;> simp only [sysrefPort, sysrefTurned, hstate]
  case aligned =>
    split
    · rw [port_limited_post, port_yew, port_seedChannels, port_modPort_same]
    · rw [port_seedChannels, port_modPort_same]
  case up =>
    split
    · rfl
    · rw [report, port_post, port_yew, port_modPort_same, hstate]

theorem port_sysrefPort_ne {p q : Nat} (onPhase : Bool) (s : State) (h : q ≠ p) : port (sysrefPort s (p, onPhase)) q = port s q := by
  cases hstate : (port s p).state <;> simp only [sysrefPort, hstate]
  case aligned =>
    split
    · rw [port_limited_post, port_yew, port_seedChannels, port_modPort_ne _ _ h]
    · rw [port_seedChannels, port_modPort_ne _ _ h]
  case up =>
    split
    · rfl
    · rw [report, port_post, port_yew, port_modPort_ne _ _ h]

/-- A SYSREF edge turns each port once. -/
theorem port_sysrefEdge {p : Nat} (hp : p < 16) (onPhase : Bool) (s : State) :
    port (sysrefEdge [(p, onPhase)] s) p = sysrefTurned onPhase (port s p) := by
  refine (foldl_turns_once (port · p) (sysrefTurned onPhase) (b := p) (fun t => ?_) (fun t q hq => ?_) List.nodup_range s).trans
    (if_pos (List.mem_range.2 hp))
  · simpa using port_sysrefPort_same p onPhase t
  · exact port_sysrefPort_ne _ _ hq.symm

theorem lockLost_downs {s : State} {p : Nat} (hrun : s.dev.phase = .running) (hup : (port s p).state = .up) :
    ∃ t, exec (.portLockLost p) s = .next t ∧ (port t p).state = .down ∧ (port t p).retrainAt = tb6 s + nsMs ∧ (port t p).queue = [] := by
  refine ⟨_, Laws.whileRunning_runs _ hrun, ?_⟩
  rw [port_settle, portLockLost, if_pos hup, port_limited_post, port_yew, port_modPort_same]
  exact ⟨rfl, rfl, rfl⟩

/-- Settles O34. -/
theorem portStatesFollow : Obligations.PortStatesFollow := by
  refine ⟨fun s p hrun hp => ⟨fun x htraining hconfigured hmatch => ?_, fun x hmatch => ?_, fun haligned => ?_, lockLost_downs hrun,
    fun hdown hage => ?_⟩, fun s p hrun hp hup => ?_⟩
  · exact (Laws.whileRunning_runs _ hrun).trans (by simp [portLaneLock, guarded, htraining, hconfigured, hmatch])
  · exact (Laws.whileRunning_runs _ hrun).trans (by simp [portLaneLock, guarded, hmatch])
  · refine ⟨_, Laws.whileRunning_runs _ hrun, ?_⟩
    rw [port_settle, port_sysrefEdge hp]
    simp [sysrefTurned, haligned]
  · exact (Laws.whileRunning_runs _ hrun).trans (by simp [portRetrain, guarded, hdown, hage])
  · refine ⟨_, Laws.whileRunning_runs _ hrun, ?_⟩
    rw [port_settle, port_sysrefEdge hp]
    simp [sysrefTurned, hup]

/-! ### Calibration and microcode (R93, R335) -/

/-- The noise floors measured are channel statistics. -/
theorem port_floorsNoted (p : Nat) (floors : List (Nat × Int)) (s : State) :
    port (floors.foldl (fun t f =>
      if (chan t f.1).act.bound && (chan t f.1).act.port == p then setStat f.1 stNoiseFloor (unsigned 2 f.2) t else t) s) p = port s p := by
  refine foldl_keeps (port · p) (fun t f => ?_) _ s
  split <;> rfl

theorem calibration_measures {s : State} {p : Nat} {m : CalIn} (hrun : s.dev.phase = .running) (hup : (port s p).state = .up)
    (hage : (port s p).calibrated + 10 * nsPerS ≤ tb6 s) (herase : (port s p).eraseUntil ≤ portNow s p) :
    ∃ t, exec (.portCalibration p m) s = .next t ∧ (port t p).eyeMargin = m.eye ∧ (port t p).swapDue = true
      ∧ (port t p).calibrated = tb6 s := by
  refine ⟨_, Laws.whileRunning_runs _ hrun, ?_⟩
  rw [port_settle, portCalibration, if_pos ⟨hup, hage, herase⟩]
  dsimp only
  split
  · rw [port_post, port_floorsNoted, port_modPort_same]
    exact ⟨rfl, rfl, rfl⟩
  · rw [port_floorsNoted, port_modPort_same]
    exact ⟨rfl, rfl, rfl⟩

/-- Settles O35. -/
theorem calibrationIsSwapped : Obligations.CalibrationIsSwapped := by
  refine fun s p hrun => ⟨fun m => calibration_measures hrun, fun quiet hdue hup hswap => ?_, fun hdue hprogress hqueue => ?_⟩
  · refine (Laws.whileRunning_runs _ hrun).trans ?_
    have hended : (quiet = true ∧ ¬ decide ((port s p).calibrated + swapSearch < tb6 s) = true) ∨ 3 ≤ (port s p).swapMisses := by
      simpa using hswap
    simp only [calibrationSwap]
    rw [if_neg (by simp [hdue, hup]), if_pos hended]
  · exact (Laws.whileRunning_runs _ hrun).trans (by simp [laneMicrocodeSwap, hdue, hprogress, hqueue])

/-! ### Launches (R94, R95) -/

theorem port_charge (c : ChanCfg) (start airtime : Nat) (s : State) (p : Nat) : port (charge c start airtime s) p = port s p := by
  rw [charge]
  split <;> rfl

/-- Counting saturation leaves what the port launches. -/
theorem launches_saturate16 (p : Nat) (s : State) :
    (port (saturate16 p s) p).queue = (port s p).queue ∧ (port (saturate16 p s) p).active = (port s p).active := by
  rw [saturate16]
  split
  · have hdraw : ∀ u : State, port u.draw p = port u p := fun _ => by rfl
    rw [hdraw, port_modPort_same]
    exact ⟨rfl, rfl⟩
  · exact ⟨rfl, rfl⟩

/-- The launch at the head of a queue, at its time and with room among the 16. -/
theorem timedLaunch_starts {s : State} {p : Nat} {l : Launch} {rest : List Launch} (hqueue : (port s p).queue = l :: rest)
    (htime : laneStart s (chan s l.lc).act l.launch ≤ macNow s (chan s l.lc).act) (hroom : (inProgress s p).length < 16) :
    (port (timedLaunch p s) p).queue = rest ∧ { l with launch := launchAt s p l } ∈ (port (timedLaunch p s) p).active
      ∧ ((port s p).txEnable = true →
        Out.tx p l.lc (launchAt s p l) (bits (chan s l.lc).act.txBackoff 0 8 + 48) l.frame ∈ (timedLaunch p s).host.out) := by
  simp only [timedLaunch, hqueue]
  rw [if_pos ⟨htime, hroom⟩]
  split
  next henable =>
    simp only [port_emit, port_charge, launches_saturate16, port_countStat, port_modPort_same]
    refine ⟨trivial, by simp, fun _ => ?_⟩
    simp [emit, State.onHost, txLevel]
  next henable =>
    simp only [launches_saturate16, port_countStat, port_modPort_same]
    exact ⟨trivial, by simp, fun h => absurd h henable⟩

/-- Settles O36. -/
theorem launchesStartInOrder : Obligations.LaunchesStartInOrder := by
  intro s p l rest hrun hqueue htime hroom
  obtain ⟨hrest, hactive, hout⟩ := timedLaunch_starts hqueue htime hroom
  refine ⟨_, Laws.whileRunning_runs _ hrun, ?_, ?_, fun hends => if_pos hends, fun henable => Laws.settle_out_mem _ _ (hout henable)⟩
  · rw [port_settle, hrest]
  · rw [port_settle]
    exact hactive

end Sys2Proof.Proofs
end

section
/-!
SUPPORT. What a frame to the partner and an item of the mirror leave unchanged, and the tables of a Hedgerow network.
-/

namespace Sys2Proof.Proofs
open Sys2Proof.Machine

/-- An event that is handled while the device runs, by what its handling gives. -/
theorem whileRunning_gives {f : State → State} {s t : State} (hrun : s.dev.phase = .running) (h : f s = t) :
    whileRunning f s = .next (settle s t) := by
  rw [Laws.whileRunning_runs _ hrun, h]

/-! ### Frames to the partner -/

/-- From `s` to `t` nothing changes but the HOST group, the power group and what the pair has sent and mirrors. -/
def OnlySends (s t : State) : Prop :=
  t = { s with host := t.host, pwr := t.pwr, pair := { s.pair with sent := t.pair.sent, mirror := t.pair.mirror, mirrorSeq := t.pair.mirrorSeq } }

theorem OnlySends.refl (s : State) : OnlySends s s := rfl

theorem OnlySends.trans {s t u : State} (hst : OnlySends s t) (htu : OnlySends t u) : OnlySends s u := by
  rw [OnlySends] at hst htu ⊢
  rw [htu, hst]

theorem OnlySends.foldl {α : Type} {f : State → α → State} (h : ∀ s a, OnlySends s (f s a)) (l : List α) (s : State) :
    OnlySends s (l.foldl f s) := by
  induction l generalizing s with
  | nil => exact .refl s
  | cons a l ih => exact (h s a).trans (ih _)

theorem onlySends_onPair {f : Pair → Pair} (s : State)
    (h : f s.pair = { s.pair with sent := (f s.pair).sent, mirror := (f s.pair).mirror, mirrorSeq := (f s.pair).mirrorSeq }) :
    OnlySends s (s.onPair f) := by
  rw [OnlySends, Laws.onPair_pair, ← h]
  rfl

theorem onlySends_emitEth (port : Nat) (dst : Bytes) (etherType : Nat) (body : Bytes) (s : State) :
    OnlySends s (emitEth port dst etherType body s) := by
  simp only [emitEth, raiseWake]
  split
  · rfl
  · rfl

theorem onlySends_zSendOn (ports : List Nat) (l : Link) (type : Nat) (body : Bytes) (s : State) :
    OnlySends s (zSendOn ports l type body s) := by
  rw [zSendOn]
  split
  · exact .refl s
  · exact .trans (onlySends_onPair s rfl) (.foldl (fun t _ => onlySends_emitEth _ _ _ _ t) _ _)

theorem onlySends_zToPartner (type : Nat) (body : Bytes) (s : State) : OnlySends s (zToPartner type body s) := by
  rw [zToPartner]
  split
  · exact onlySends_zSendOn ..
  · exact .refl s

theorem onlySends_sendMirror (m : MirrorItem) (s : State) : OnlySends s (sendMirror m s) :=
  .foldl (fun t _ => onlySends_zToPartner _ _ t) _ s

theorem onlySends_queueItem (kind : Nat) (item : Bytes) (used : Bool) (command : Option (Nat × Word × Word × Bytes)) (s : State) :
    OnlySends s (queueItem kind item used command s) := by
  rw [queueItem]
  split
  · exact .refl s
  · exact .trans (onlySends_onPair s rfl) (onlySends_sendMirror ..)

theorem queueItem_hr (kind : Nat) (item : Bytes) (used : Bool) (command : Option (Nat × Word × Word × Bytes)) (s : State) :
    (queueItem kind item used command s).hr = s.hr := by rw [onlySends_queueItem]

/-! ### A Hedgerow network and its neighbours (R100) -/

theorem get_mod {α : Type} (t : Tbl α) (n : Nat) (f : α → α) : Tbl.get (Tbl.mod t n f) n = (Tbl.get t n).map f := by
  rw [Tbl.mod]
  cases h : Tbl.get t n with
  | none => exact h
  | some v => simp

/-- What a network shows of itself, if it exists. -/
def netView {α : Type} (view : HrNet → α) (net : Nat) (s : State) : Option α := (Tbl.get s.hr net).map view

theorem netView_modNet {α : Type} {view : HrNet → α} {f : HrNet → HrNet} (h : ∀ x, view (f x) = view x) (net : Nat) (s : State) :
    netView view net (modNet net f s) = netView view net s := by
  simp only [netView, modNet, Laws.onHr_hr, get_mod, Option.map_map]
  exact congrArg (Option.map · _) (funext h)

theorem netView_of_hr {α : Type} (view : HrNet → α) (net : Nat) {s t : State} (h : t.hr = s.hr) : netView view net t = netView view net s := by
  rw [netView, h, netView]

theorem hrNet_of_get {s : State} {net : Nat} {h : HrNet} (hget : Tbl.get s.hr net = some h) : hrNet s net = h := by
  rw [hrNet, Tbl.getD, hget]
  rfl

/-- A neighbour is in the table with a property. -/
def NeighHas (net a : Nat) (q : Neigh → Prop) (s : State) : Prop := ∃ x, neigh s net a = some x ∧ q x

section
variable {net a : Nat} {q r : Neigh → Prop} {s t : State}

theorem neigh_of_hr (net a : Nat) (h : t.hr = s.hr) : neigh t net a = neigh s net a := by rw [neigh, hrNet, h, neigh, hrNet]

theorem NeighHas.of_hr (hs : NeighHas net a q s) (h : t.hr = s.hr) : NeighHas net a q t := by
  rwa [NeighHas, neigh_of_hr net a h]

theorem NeighHas.countStat (hs : NeighHas net a q s) (n x k : Nat) : NeighHas net a q (countStat n x k s) := hs.of_hr rfl

theorem NeighHas.imp (hs : NeighHas net a q s) (h : ∀ x, q x → r x) : NeighHas net a r s := by
  obtain ⟨x, hx, hq⟩ := hs
  exact ⟨x, hx, h x hq⟩

theorem neigh_eq_bind (s : State) (net a : Nat) : neigh s net a = (Tbl.get s.hr net).bind fun h => Tbl.get h.neigh a := by
  rw [neigh, hrNet, Tbl.getD]
  cases Tbl.get s.hr net <;> rfl

theorem neigh_modNet {f : HrNet → HrNet} (hf : ∀ x, (f x).neigh = x.neigh) (net a : Nat) (s : State) :
    neigh (modNet net f s) net a = neigh s net a := by
  rw [neigh_eq_bind, neigh_eq_bind, modNet, Laws.onHr_hr, get_mod]
  cases Tbl.get s.hr net with
  | none => rfl
  | some h => simp [hf]

theorem neigh_modNeigh (net a : Nat) (f : Neigh → Neigh) (s : State) : neigh (modNeigh net a f s) net a = (neigh s net a).map f := by
  rw [neigh_eq_bind, neigh_eq_bind, modNeigh, modNet, Laws.onHr_hr, get_mod]
  cases Tbl.get s.hr net with
  | none => rfl
  | some h => simp [get_mod]

theorem NeighHas.modNet (hs : NeighHas net a q s) {f : HrNet → HrNet} (hf : ∀ x, (f x).neigh = x.neigh) :
    NeighHas net a q (modNet net f s) := by
  rwa [NeighHas, neigh_modNet hf]

theorem NeighHas.modNeigh (hs : NeighHas net a q s) {f : Neigh → Neigh} (hf : ∀ x, q x → r (f x)) :
    NeighHas net a r (modNeigh net a f s) := by
  obtain ⟨x, hx, hq⟩ := hs
  exact ⟨f x, by rw [neigh_modNeigh, hx]; rfl, hf x hq⟩

theorem NeighHas.modNeigh_keeps (hs : NeighHas net a q s) {f : Neigh → Neigh} (hf : ∀ x, q x → q (f x)) :
    NeighHas net a q (Machine.modNeigh net a f s) := hs.modNeigh hf

/-! What a launch and a tone map response leave of a neighbour. -/

theorem queueTx_eq {lc launch airtime : Nat} {symbol : Nat × Nat} {frame : Bytes} {isAck : Bool}
    (h : queueTx lc launch airtime symbol frame isAck s = some t) : t = { s with lane := t.lane } := by
  simp only [queueTx] at h
  split at h
  · rw [← Option.some.inj h]
    rfl
  · exact absurd h nofun

theorem dlSent_hr (owner : Option Nat) (s : State) : (dlSent owner s).hr = s.hr := by
  cases owner <;> rfl

theorem NeighHas.launchTx (hs : NeighHas net a q s) (x : HrTx) (launch : Nat) : NeighHas net a q (launchTx net x launch s) := by
  simp only [Machine.launchTx]
  split
  next u hqueued =>
    refine NeighHas.of_hr (s := modTx net x _ _) (.modNet (.of_hr hs ?_) fun _ => by rfl) (dlSent_hr ..)
    have hu : u.hr = s.hr := by rw [queueTx_eq hqueued]
    split
    · exact hu
    · exact hu
  · exact hs

theorem NeighHas.measure {rx : HrRx} (hs : NeighHas (hfNet rx.bytes) (hfSource rx.bytes) q s) (acked : Bool)
    (hq : ∀ x n, q x → q { x with txSeq := n }) : NeighHas (hfNet rx.bytes) (hfSource rx.bytes) q (measure rx acked s) := by
  simp only [Machine.measure]
  split
  · exact hs
  · refine .launchTx (.modNeigh (.modNet (.modNet (.of_hr hs ?_) ?_) ?_) ?_) _ _
    · rfl
    · exact fun _ => rfl
    · exact fun _ => rfl
    · exact fun x => hq x _

end

end Sys2Proof.Proofs
end

section
/-!
SUPPORT. Hedgerow: what a frame that reaches its rules does, and the timers of a network (R100 to R118).
-/

namespace Sys2Proof.Proofs
open Sys2Proof.Machine

/-! ### What sending rests on -/

/-- From `s` to `t` the configurations in force, the ports, the time and the right to transmit stand. -/
structure SendingStands (s t : State) : Prop where
  act : ∀ n, (chan t n).act = (chan s n).act
  ports : t.lane.ports = s.lane.ports
  tim : t.tim = s.tim
  right : maySend t = maySend s

section
variable {s t u : State}

theorem SendingStands.trans (hst : SendingStands s t) (htu : SendingStands t u) : SendingStands s u where
  act n := (htu.act n).trans (hst.act n)
  ports := htu.ports.trans hst.ports
  tim := htu.tim.trans hst.tim
  right := htu.right.trans hst.right

theorem sendingStands_modNet (net : Nat) (f : HrNet → HrNet) (s : State) : SendingStands s (modNet net f s) :=
  ⟨fun _ => rfl, rfl, rfl, rfl⟩

theorem sendingStands_modNeigh (net a : Nat) (f : Neigh → Neigh) (s : State) : SendingStands s (modNeigh net a f s) :=
  sendingStands_modNet ..

theorem sendingStands_heardSnr (net a lc : Nat) (snr : Int) (s : State) : SendingStands s (heardSnr net a lc snr s) :=
  sendingStands_modNeigh ..

theorem sendingStands_countStat (n x k : Nat) (s : State) : SendingStands s (countStat n x k s) :=
  ⟨fun m => (configsStand_countStat n x k s m).1, rfl, rfl, rfl⟩

theorem OnlySends.sendingStands (h : OnlySends s t) : SendingStands s t := by
  rw [h]
  exact ⟨fun _ => rfl, rfl, rfl, rfl⟩

theorem SendingStands.port (h : SendingStands s t) (p : Nat) : port t p = port s p := by
  rw [Machine.port, h.ports, Machine.port]

theorem SendingStands.canSend (h : SendingStands s t) (lc : Nat) : canSend t lc = canSend s lc := by
  simp only [Machine.canSend, portUp, h.act, h.port, h.right]

theorem SendingStands.tb4 (h : SendingStands s t) : tb4 t = tb4 s := by rw [Machine.tb4, h.tim, Machine.tb4]

theorem SendingStands.tb6 (h : SendingStands s t) : tb6 t = tb6 s := by rw [Machine.tb6, h.tim, Machine.tb6]

theorem SendingStands.earliestLaunch (h : SendingStands s t) (c : ChanCfg) : earliestLaunch t c = earliestLaunch s c := by
  simp only [Machine.earliestLaunch, macNow, Machine.tb4, tb5, h.tim, h.port]

end

/-- A frame that a channel may send is queued at an instant that is not too early, on a port with a place in its queue. -/
theorem queueTx_queues {lc launch : Nat} {s : State} (airtime : Nat) (symbol : Nat × Nat) (frame : Bytes) (isAck : Bool)
    (hsend : canSend s lc = true) (hlaunch : earliestLaunch s (chan s lc).act ≤ launch)
    (hroom : (port s (chan s lc).act.port).queue.length < 32) :
    ∃ t, queueTx lc launch airtime symbol frame isAck s = some t ∧ t.hr = s.hr := by
  cases hqueued : queueTx lc launch airtime symbol frame isAck s with
  | none => simp [queueTx, hsend, hlaunch, hroom] at hqueued
  | some t => exact ⟨t, rfl, by rw [queueTx_eq hqueued]⟩

/-- An answer in time is queued. -/
theorem hrAnswer_queues {lc end_ : Nat} {s : State} (net type flags : Nat) (seq : BitVec 16) (dest : Nat) (payload : Bytes)
    (hsend : canSend s lc = true) (hlaunch : earliestLaunch s (chan s lc).act ≤ end_ + ackGap)
    (hroom : (port s (chan s lc).act.port).queue.length < 32) :
    ∃ t, hrAnswer lc net type flags seq dest payload end_ s = some t ∧ t.hr = s.hr :=
  queueTx_queues _ _ _ _ hsend hlaunch hroom

/-! ### A frame that reaches its rules (R90, R96, R106 to R110) -/

section
variable {r : HrRx} {s : State}

/-- A channel that hears a frame has not broken off since it began. -/
theorem broken_of_hears {lc start : Nat} (hmac : (chan s lc).act.macType = 1) (h : hears s lc start = true) :
    broken s lc (tb4 s) start = false := by
  simp only [hears, macNow, hmac, if_true, Bool.and_eq_true, decide_eq_true_eq] at h
  obtain ⟨-, hsince⟩ := h
  simp only [broken, Bool.and_eq_false_imp, decide_eq_false_iff_not]
  omega

/-- A frame of a type that reaches its rules is detected and handled. -/
theorem hrHeard_of_reaches {type : Nat} {f : State → State} (h : hrReaches type r s) :
    hrHeard r type f s = f (countStat r.lc stRxDetect 1 s) := by
  obtain ⟨hhears, hmac, herased, hhcs, hmine, htype, hcoord⟩ := h
  simp only [hrHeard, broken_of_hears hmac hhears, hhears, hmac, herased, hhcs, hmine, htype]
  rcases hcoord with hcoord | hcoord <;> simp [hcoord]

/-- The state once an intact frame that asks for no answer has been detected and has counted on its link. -/
def linkCounted (r : HrRx) (s : State) : State :=
  onLink r (fun y => { y.heard r.lc (meanSnr (chan s r.lc).act.plan r) with fails := failsLeft (chan s r.lc).act y })
    (countStat r.lc stRxDetect 1 s)

/-- A whole frame of a type that asks for no answer counts on its link and is handled. -/
theorem hrHeard_intact {type : Nat} {f : State → State} (hreaches : hrReaches type r s) (hwhole : hrWhole r s) :
    hrHeard r type (hrIntact r f) s = f (linkCounted r s) := by
  obtain ⟨hblank, hfcs⟩ := hwhole
  simp [hrHeard_of_reaches hreaches, hrIntact, (configsStand_countStat r.lc stRxDetect 1 s r.lc).1, hblank, hfcs, linkCounted]

theorem ackRx_ends {x : HrTx} (hreaches : hrReaches htAck r s) (hwhole : hrWhole r s)
    (hx : sentTx (linkCounted r s) (hfNet r.bytes) (hfSource r.bytes) (hfSeq r.bytes) = some x) :
    hrAckRx r s = hrDelivered (hfNet r.bytes) x (hrRefresh r (dropTx (hfNet r.bytes) x (linkCounted r s))) := by
  rw [hrAckRx, hrHeard_intact hreaches hwhole, hx]

theorem nackRx_fails {x : HrTx} (hreaches : hrReaches htNack r s) (hwhole : hrWhole r s)
    (hx : sentTx (linkCounted r s) (hfNet r.bytes) (hfSource r.bytes) (hfSeq r.bytes) = some x) :
    hrNackRx r s = failTx (hfNet r.bytes) x (hfBit r.bytes 10) (retryAt (hrRefresh r (linkCounted r s)) (hfNet r.bytes) r x)
      (hrRefresh r (linkCounted r s)) := by
  simp only [hrNackRx, hrHeard_intact hreaches hwhole, hx]

theorem beaconRx_tells (hreaches : hrReaches htBeacon r s) (hwhole : hrWhole r s)
    (hsaid : bslOf (linkCounted r s) (hfNet r.bytes)
      < (nsOf (field (hrPayload r.bytes) 4 12) + hfLevel r.bytes * bslOf (linkCounted r s) (hfNet r.bytes) - r.span.1)
        + (r.span.1 - (nsOf (field (hrPayload r.bytes) 4 12) + hfLevel r.bytes * bslOf (linkCounted r s) (hfNet r.bytes)))) :
    hrBeaconRx r s
      = report 0x9104 kChannel r.lc (le 2 (hfNet r.bytes)) 0x0503 1 r.lc (le 2 (hfNet r.bytes)) (linkCounted r s) := by
  rw [hrBeaconRx, hrHeard_intact hreaches hwhole]
  exact if_pos hsaid

/-- The state once a frame of an uplink with a new sequence in ROBO has been taken: it is counted, marked, and noted as a copy. -/
def uplinkMarked (r : HrRx) (c : ChanCfg) (s : State) : State :=
  heardOn (hfNet r.bytes) (hfSource r.bytes) r.lc (meanSnr c.plan r)
    (modNeigh (hfNet r.bytes) (hfSource r.bytes) (fun y =>
      { y with win := some (markSeq y.win (hfSeq r.bytes)), lastCopy := some (r.lc, hfSeq r.bytes, r.span.2), fails := failsLeft c y })
      (countStat r.lc stRoboRx 1 s))

/-- A frame in ROBO that a new sequence numbers, of a neighbour in the table, is handed on and answered where it is always taken. -/
theorem hrUplink_of_new {f : State → Bool × State} (hblank : overBlanked (chan s r.lc).act r = false)
    (hfcs : fcsOk r.bytes = true) (hnew : hrNew r s) (hknown : (neigh s (hfNet r.bytes) (hfSource r.bytes)).isSome = true)
    (htaken : ∀ u, (f u).1 = true) :
    let u := uplinkMarked r (chan s r.lc).act
      (f (heardSnr (hfNet r.bytes) (hfSource r.bytes) r.lc (meanSnr (chan s r.lc).act.plan r) s)).2
    hrUplink r f s =
      if ¬ hfWants r.bytes then measure r false u
      else if r.span.2 + takeDeadline < tb4 u then countStat r.lc stAckLate 1 u
      else acknowledge r (asksRefresh (chan s r.lc).act ((neigh s (hfNet r.bytes) (hfSource r.bytes)).getD {}) r) false u := by
  obtain ⟨hmap, hclass⟩ := hnew
  have hadopt : adoptMap r s = s := by
    rw [adoptMap]
    split
    · rw [if_neg (by simp [hmap])]
    · rfl
  have hopen : openNeigh (hfNet r.bytes) (hfSource r.bytes) s = s := by rw [openNeigh, if_pos (.inl hknown)]
  obtain ⟨t, ht⟩ : ∃ t, f (heardSnr (hfNet r.bytes) (hfSource r.bytes) r.lc (meanSnr (chan s r.lc).act.plan r) s) = (true, t) :=
    ⟨_, Prod.ext (htaken _) rfl⟩
  simp only [hrUplink, hadopt, hopen, hblank, hmap, hfcs, hclass, ht, uplinkMarked]
  simp

/-! ### Tone maps (R111, R113, R114) -/

/-- What a taken tone map response leaves: its map waits for its ACK. -/
theorem toneMap_taken (m : ToneMap) (hknown : (neigh s (hfNet r.bytes) (hfSource r.bytes)).isSome = true) (item : Bytes) (c : ChanCfg) :
    let u := uplinkMarked r c (queueItem 3 item true none (modNeigh (hfNet r.bytes) (hfSource r.bytes)
      (fun x => { x with txNext := some m }) s))
    NeighHas (hfNet r.bytes) (hfSource r.bytes) (fun x => x.txNext = some m) u ∧ SendingStands s u := by
  constructor
  · obtain ⟨x, hx⟩ := Option.isSome_iff_exists.1 hknown
    have hstart : NeighHas (hfNet r.bytes) (hfSource r.bytes) (fun _ => True) s := ⟨x, hx, trivial⟩
    have hmap := hstart.modNeigh (f := fun x => { x with txNext := some m }) (r := fun x => x.txNext = some m) fun _ _ => rfl
    have hqueued := hmap.of_hr (queueItem_hr 3 item true none _)
    have hcounted := hqueued.countStat r.lc stRoboRx 1
    exact ((hcounted.modNeigh_keeps fun _ h => by exact h).modNeigh_keeps fun _ h => by exact h).modNeigh_keeps fun _ h => by exact h
  · refine .trans (.trans (.trans (.trans (.trans (sendingStands_modNeigh ..)
      (onlySends_queueItem ..).sendingStands) (sendingStands_countStat ..)) (sendingStands_modNeigh ..)) (sendingStands_modNeigh ..))
      (sendingStands_modNeigh ..)

/-- The ACK of a tone map response, sent in time, puts the map in use and completes the refresh. -/
theorem acknowledge_usesMap {m : ToneMap} (refresh : Bool) (htype : hfType r.bytes = htToneMap) (hasks : hfBit r.bytes 9 = false)
    (hmap : NeighHas (hfNet r.bytes) (hfSource r.bytes) (fun x => x.txNext = some m) s) (hsend : canSend s r.lc = true)
    (hlaunch : earliestLaunch s (chan s r.lc).act ≤ r.span.2 + ackGap)
    (hroom : (port s (chan s r.lc).act.port).queue.length < 32) :
    NeighHas (hfNet r.bytes) (hfSource r.bytes) (fun x => x.tx = some m ∧ x.refresh = false) (acknowledge r refresh false s) := by
  obtain ⟨t, hanswer, hhr⟩ := hrAnswer_queues (hfNet r.bytes) htAck (flag 10 refresh) (hfSeq r.bytes) (hfSource r.bytes) [] hsend hlaunch hroom
  have hmeasure : ∀ u : State, measure r true u = u := fun u => by simp [Machine.measure, hasks]
  simp only [acknowledge, hsend, sendAck, hanswer, hmeasure, refreshed, htype, saidRefresh]
  have hcounted : NeighHas (hfNet r.bytes) (hfSource r.bytes) (fun x => x.txNext = some m) (countStat r.lc stAckSent 1 t) :=
    hmap.of_hr hhr
  have hused := hcounted.modNeigh (f := fun x => match x.txNext with
      | some m => { x with tx := some m, txNext := none, refresh := false
                           roboUntil := r.span.2 + ackGap + roboAirtime (chan (countStat r.lc stAckSent 1 t) r.lc).act.plan 24 }
      | none => x) (r := fun x => x.tx = some m ∧ x.refresh = false) fun x hx => by simp [hx]
  cases refresh
  · exact hused
  · exact hused.modNeigh_keeps fun _ h => by exact h

/-- What a tone map response that is new leads to, once it has been detected. -/
theorem toneMapRx_takes (hreaches : hrReaches htToneMap r s) (hwhole : hrWhole r s) (hnew : hrNew r s)
    (hknown : (neigh s (hfNet r.bytes) (hfSource r.bytes)).isSome = true) :
    ∃ u refresh, NeighHas (hfNet r.bytes) (hfSource r.bytes) (fun x => x.txNext = some (mapOfBytes (tb6 s) (hrPayload r.bytes))) u
      ∧ SendingStands s u
      ∧ hrToneMapRx r s = if ¬ hfWants r.bytes then measure r false u
          else if r.span.2 + takeDeadline < tb4 u then countStat r.lc stAckLate 1 u else acknowledge r refresh false u := by
  have hstands := sendingStands_countStat r.lc stRxDetect 1 s
  have hblank : overBlanked (chan (countStat r.lc stRxDetect 1 s) r.lc).act r = false := by
    rw [hstands.act]
    exact hwhole.1
  have hstart : SendingStands s (heardSnr (hfNet r.bytes) (hfSource r.bytes) r.lc
      (meanSnr (chan (countStat r.lc stRxDetect 1 s) r.lc).act.plan r) (countStat r.lc stRxDetect 1 s)) :=
    hstands.trans (sendingStands_heardSnr ..)
  have hsame : (neigh (heardSnr (hfNet r.bytes) (hfSource r.bytes) r.lc
      (meanSnr (chan (countStat r.lc stRxDetect 1 s) r.lc).act.plan r) (countStat r.lc stRxDetect 1 s)) (hfNet r.bytes)
        (hfSource r.bytes)).isSome = true := by
    rw [heardSnr, neigh_modNeigh, Option.isSome_map]
    exact hknown
  have htime : tb6 (heardSnr (hfNet r.bytes) (hfSource r.bytes) r.lc
      (meanSnr (chan (countStat r.lc stRxDetect 1 s) r.lc).act.plan r) (countStat r.lc stRxDetect 1 s)) = tb6 s := hstart.tb6
  rw [hrToneMapRx, hrHeard_of_reaches hreaches, hrUplink_of_new hblank hwhole.2 hnew hknown fun _ => by rfl]
  dsimp only
  rw [htime]
  generalize heardSnr (hfNet r.bytes) (hfSource r.bytes) r.lc (meanSnr (chan (countStat r.lc stRxDetect 1 s) r.lc).act.plan r)
    (countStat r.lc stRxDetect 1 s) = t at hstart hsame
  obtain ⟨hmap, hsending⟩ := toneMap_taken (r := r) (mapOfBytes (tb6 s) (hrPayload r.bytes)) hsame
    (le 1 0 ++ zeros 1 ++ le 2 (hfNet r.bytes) ++ le 2 (hfSource r.bytes) ++ zeros 2 ++ slice (hrPayload r.bytes) 0 12)
    (chan (countStat r.lc stRxDetect 1 s) r.lc).act
  exact ⟨_, _, hmap, hstart.trans hsending, rfl⟩

theorem NeighHas.settled {q : Neigh → Prop} {net a : Nat} {b : State} (h : NeighHas net a q s) : NeighHas net a q (settle b s) :=
  h.of_hr (Laws.settle_hr ..)

theorem toneMapRx_keepsMap (hreaches : hrReaches htToneMap r s) (hwhole : hrWhole r s) (hnew : hrNew r s)
    (hknown : (neigh s (hfNet r.bytes) (hfSource r.bytes)).isSome = true) (hwants : hfWants r.bytes = false) :
    NeighHas (hfNet r.bytes) (hfSource r.bytes) (fun x => x.txNext = some (mapOfBytes (tb6 s) (hrPayload r.bytes))) (hrToneMapRx r s) := by
  obtain ⟨u, refresh, hmap, -, htaken⟩ := toneMapRx_takes hreaches hwhole hnew hknown
  rw [htaken, if_pos (by simp [hwants])]
  exact hmap.measure false fun _ _ h => h

theorem toneMapRx_usesMap (hreaches : hrReaches htToneMap r s) (hwhole : hrWhole r s) (hnew : hrNew r s)
    (hknown : (neigh s (hfNet r.bytes) (hfSource r.bytes)).isSome = true) (hwants : hfWants r.bytes = true)
    (hasks : hfBit r.bytes 9 = false) (hsend : canSend s r.lc = true)
    (hlaunch : earliestLaunch s (chan s r.lc).act ≤ r.span.2 + ackGap) (hroom : (port s (chan s r.lc).act.port).queue.length < 32)
    (htime : tb4 s ≤ r.span.2 + takeDeadline) :
    NeighHas (hfNet r.bytes) (hfSource r.bytes)
      (fun x => x.tx = some (mapOfBytes (tb6 s) (hrPayload r.bytes)) ∧ x.refresh = false) (hrToneMapRx r s) := by
  obtain ⟨u, refresh, hmap, hstands, htaken⟩ := toneMapRx_takes hreaches hwhole hnew hknown
  obtain ⟨-, -, -, -, -, htype, -⟩ := hreaches
  rw [htaken, if_neg (by simp [hwants]), if_neg (by rw [hstands.tb4]; omega)]
  refine acknowledge_usesMap refresh htype hasks hmap ?_ ?_ ?_
  · rw [hstands.canSend, hsend]
  · rw [hstands.act, hstands.earliestLaunch]
    exact hlaunch
  · rw [hstands.act, hstands.port]
    exact hroom

/-! ### Reports and joins (R115, R118) -/

theorem reportRx_notes (hreaches : hrReaches htReport r s) (hwhole : hrWhole r s) (hnew : hrNew r s) (hwants : hfWants r.bytes = false)
    (hend : hfEnd r.bytes = hfSource r.bytes) (hknown : (neigh s (hfNet r.bytes) (hfSource r.bytes)).isSome = true) :
    NeighHas (hfNet r.bytes) (hfSource r.bytes) (fun x => x.reported = tb6 s) (hrReportRx r s) := by
  have hstands := sendingStands_countStat r.lc stRxDetect 1 s
  have hblank : overBlanked (chan (countStat r.lc stRxDetect 1 s) r.lc).act r = false := by
    rw [hstands.act]
    exact hwhole.1
  have hstart : NeighHas (hfNet r.bytes) (hfSource r.bytes) (fun _ => True) (countStat r.lc stRxDetect 1 s) := by
    obtain ⟨x, hx⟩ := Option.isSome_iff_exists.1 hknown
    exact ⟨x, hx, trivial⟩
  have hheard := hstart.modNeigh_keeps (f := fun x => x.heard r.lc (meanSnr (chan (countStat r.lc stRxDetect 1 s) r.lc).act.plan r))
    fun _ _ => trivial
  have htime : tb6 (heardSnr (hfNet r.bytes) (hfSource r.bytes) r.lc
      (meanSnr (chan (countStat r.lc stRxDetect 1 s) r.lc).act.plan r) (countStat r.lc stRxDetect 1 s)) = tb6 s :=
    (hstands.trans (sendingStands_heardSnr ..)).tb6
  rw [hrReportRx, hrHeard_of_reaches hreaches, hrUplink_of_new hblank hwhole.2 hnew hknown fun _ => by rfl, if_pos (by simp [hwants])]
  dsimp only
  rw [htime, hend]
  have hnoted := hheard.modNeigh (f := fun x => { x with reported := tb6 s }) (r := fun x => x.reported = tb6 s) fun _ _ => rfl
  have hlinked := hnoted.modNet (f := fun h =>
    let fresh := (List.range (min 64 (field (hrPayload r.bytes) 0 1))).map fun i =>
      (field (hrPayload r.bytes) (1 + 4 * i) 2, hfSource r.bytes, field (hrPayload r.bytes) (3 + 4 * i) 1,
        field (hrPayload r.bytes) (4 + 4 * i) 1)
    { h with links := (h.links.filter fun l => l.2.1 != hfSource r.bytes) ++ fresh
             changed := h.changed || decide ((h.links.filter fun l => l.2.1 == hfSource r.bytes) ≠ fresh) }) fun _ => rfl
  have hcounted := hlinked.countStat r.lc stRoboRx 1
  refine NeighHas.measure ?_ false fun _ _ h => h
  exact ((hcounted.modNeigh_keeps fun _ h => by exact h).modNeigh_keeps fun _ h => by exact h).modNeigh_keeps fun _ h => by exact h

/-- A join request is judged on what the link tells after its answer; its answers name the meter where the directory holds it. -/
theorem joinRx_eq (hreaches : hrReaches htJoinReq r s) (hwhole : hrWhole r s) (hsend : maySend s = true) :
    let t := countStat r.lc stRxDetect 1 s
    let u := if hfWants r.bytes then
        acknowledge r (asksRefresh (chan t r.lc).act ((neigh t (hfNet r.bytes) (hfSource r.bytes)).getD {}) r) false t
      else measure r false t
    hrJoinRx r s = match joinSlot u (hrPayload r.bytes) with
      | none => joinResp r.lc (hfNet r.bytes) (hfSource r.bytes) (hfSource r.bytes) 1 1 none u
      | some n =>
        if (neigh u (hfNet r.bytes) (n % 65536)).isNone ∧ neighboursFull u then
          tableFull (joinResp r.lc (hfNet r.bytes) (hfSource r.bytes) (n % 65536) 2 1 none u)
        else admitJoin r (hfNet r.bytes) (hfSource r.bytes) n u := by
  have hstands := sendingStands_countStat r.lc stRxDetect 1 s
  obtain ⟨hblank, hfcs⟩ := hwhole
  rw [hrJoinRx, hrHeard_of_reaches hreaches]
  dsimp only
  refine (if_neg ?_).trans ((if_neg ?_).trans ((if_neg ?_).trans rfl))
  · simp [hstands.act, hblank]
  · simp [hfcs]
  · simp [hstands.right, hsend]

end

theorem launchTx_met (net : Nat) (x : HrTx) (launch : Nat) (s : State) : (launchTx net x launch s).met = s.met := by
  simp only [launchTx]
  split
  next t hqueued =>
    have ht : t.met = s.met := by rw [queueTx_eq hqueued]
    have hsent : ∀ u : State, (dlSent x.owner u).met = u.met := fun u => by cases x.owner <;> rfl
    rw [hsent]
    split
    · exact ht
    · exact ht
  · rfl

theorem measure_met (r : HrRx) (acked : Bool) (s : State) : (measure r acked s).met = s.met := by
  simp only [Machine.measure]
  split
  · rfl
  · exact launchTx_met ..

theorem joinSlot_of_met {s t : State} (p : Bytes) (h : t.met = s.met) : joinSlot t p = joinSlot s p := by
  simp only [joinSlot, slotByEui, slotByTitle, h]

theorem joinRx_refuses {r : HrRx} {s : State} (hreaches : hrReaches htJoinReq r s) (hwhole : hrWhole r s) (hsend : maySend s = true)
    (hwants : hfWants r.bytes = false) (hslot : joinSlot s (hrPayload r.bytes) = none) :
    hrJoinRx r s = joinResp r.lc (hfNet r.bytes) (hfSource r.bytes) (hfSource r.bytes) 1 1 none
      (measure r false (countStat r.lc stRxDetect 1 s)) := by
  have hnone : joinSlot (measure r false (countStat r.lc stRxDetect 1 s)) (hrPayload r.bytes) = none :=
    (joinSlot_of_met _ (measure_met ..)).trans hslot
  rw [joinRx_eq hreaches hwhole hsend, if_neg (by simp [hwants]), hnone]

/-- A frame as seen on the air is handled while the device runs. -/
theorem seenRunning_gives {f : HrRx → State → State} {r₀ r : HrRx} {s t : State} (hrun : s.dev.phase = .running) (hr : hrSeen s r₀ = r)
    (h : f r s = t) : whileRunning (fun u => f (hrSeen u r₀) u) s = .next (settle s t) :=
  whileRunning_gives hrun (by rw [hr, h])

/-- Settles O38. -/
theorem hedgerowFramesAct : Obligations.HedgerowFramesAct := by
  intro r₀ s hrun
  dsimp only
  generalize hr : hrSeen s r₀ = r
  intro hwhole
  refine ⟨fun hreaches x hx => ?_, fun hreaches x hx => ?_, fun hreaches hsaid => ?_, fun hreaches hnew hknown hwants => ?_,
    fun hreaches hnew hknown hwants hasks hsend hlaunch hroom htime => ?_, fun hreaches hnew hwants hend hknown => ?_,
    fun hreaches hsend hwants hslot => ?_⟩
  · exact seenRunning_gives (f := hrAckRx) hrun hr (ackRx_ends hreaches hwhole hx)
  · exact seenRunning_gives (f := hrNackRx) hrun hr (nackRx_fails hreaches hwhole hx)
  · exact seenRunning_gives (f := hrBeaconRx) hrun hr (beaconRx_tells hreaches hwhole hsaid)
  · obtain ⟨x, hx, hmap⟩ := (toneMapRx_keepsMap hreaches hwhole hnew hknown hwants).settled (b := s)
    exact ⟨_, x, seenRunning_gives (f := hrToneMapRx) hrun hr rfl, hx, hmap⟩
  · obtain ⟨x, hx, hmap⟩ :=
      (toneMapRx_usesMap hreaches hwhole hnew hknown hwants hasks hsend hlaunch hroom htime).settled (b := s)
    exact ⟨_, x, seenRunning_gives (f := hrToneMapRx) hrun hr rfl, hx, hmap⟩
  · obtain ⟨x, hx, hreported⟩ := (reportRx_notes hreaches hwhole hnew hwants hend hknown).settled (b := s)
    exact ⟨_, x, seenRunning_gives (f := hrReportRx) hrun hr rfl, hx, hreported⟩
  · exact seenRunning_gives (f := hrJoinRx) hrun hr (joinRx_refuses hreaches hwhole hsend hwants hslot)

end Sys2Proof.Proofs
end

section
/-!
SUPPORT. The Hedgerow timers (R102 to R105, R112, R116, R117), and the commands and events that complete whatever they meet.
-/

namespace Sys2Proof.Proofs
open Sys2Proof.Machine

/-! ### Beacons (R102, R104) -/

theorem hrNet_of_netView {α : Type} {view : HrNet → α} {net : Nat} {s : State} {v : α} (h : netView view net s = some v) :
    view (hrNet s net) = v := by
  obtain ⟨x, hx, hv⟩ := Option.map_eq_some_iff.1 h
  rw [hrNet_of_get hx, hv]

theorem netView_modNet_comp {α : Type} (view : HrNet → α) (net : Nat) (f : HrNet → HrNet) (s : State) :
    netView view net (modNet net f s) = netView (fun x => view (f x)) net s := by
  simp only [netView, modNet, Laws.onHr_hr, get_mod, Option.map_map]
  rfl

/-- The number of the next beacon of a network and the instant of its last. -/
def pulse (net : Nat) (s : State) : Option (Nat × Nat) := netView (fun h => (h.beacon, h.lastBeacon)) net s

theorem pulse_hrQueue (net type a : Nat) (payload : Bytes) (owner : Option Nat) (s : State) :
    pulse net (hrQueue net type a payload owner s) = pulse net s :=
  (netView_modNet (fun _ => by rfl) net _).trans (netView_modNet (fun _ => by rfl) net s)

theorem pulse_tellGrant (net : Nat) (g : SlotGrant) (period : Nat) (s : State) : pulse net (tellGrant net g period s) = pulse net s :=
  foldl_keeps (pulse net) (fun t _ => pulse_hrQueue net _ _ _ _ t) _ s

theorem pulse_cancelGrant (net : Nat) (g : SlotGrant) (s : State) : pulse net (cancelGrant net g s) = pulse net s := by
  rw [cancelGrant]
  split
  · rfl
  · rw [pulse_tellGrant]
    exact netView_modNet (fun _ => by rfl) net s

theorem pulse_pruneGrants (net : Nat) (s : State) : pulse net (pruneGrants net s) = pulse net s :=
  foldl_keeps (pulse net) (fun t g => pulse_cancelGrant net g t) _ s

theorem pulse_scheduleReads (net : Nat) (s : State) : pulse net (scheduleReads net s) = pulse net s := by
  simp only [scheduleReads]
  split
  · rfl
  · split
    · exact pulse_cancelGrant ..
    · split
      · rw [pulse_tellGrant]
        exact netView_modNet (fun _ => by rfl) net _
      · rfl

theorem beaconTx_counts {s : State} {net : Nat} {h : HrNet} (hget : Tbl.get s.hr net = some h) (hnext : h.next = none)
    (hsend : maySend s = true) (hchans : hrChans s net ≠ []) {instant : Nat}
    (hinstant : beaconAt (hrCfg s net) (max (h.lastBeacon + 1)
      (((hrChans s net).filter fun lc => canSend s lc).foldl (fun m lc => max m (earliestLaunch s (chan s lc).act)) (tb4 s))) = instant)
    (hsoon : instant ≤ tb4 s + max 1 (hrCfg s net).period * nsPerS) :
    pulse net (hrBeaconTx net s) = some (h.beacon + 1, instant) := by
  have hnet := hrNet_of_get hget
  have hadopt : adoptRoutes net s = s := by simp only [adoptRoutes, hnet, hnext]
  have hguard : ¬ ((Tbl.get s.hr net).isNone = true ∨ ¬ maySend s = true ∨ hrChans s net = []
      ∨ tb4 s + max 1 (hrCfg s net).period * nsPerS < instant) := by
    simp [hget, hsend, hchans]
    omega
  have hpulse : pulse net (pruneGrants net s) = some (h.beacon, h.lastBeacon) := by
    rw [pulse_pruneGrants, pulse, netView, hget]
    rfl
  simp only [hrBeaconTx, hnet, hinstant, hadopt]
  rw [if_neg hguard, pulse_scheduleReads, pulse, netView_of_hr _ net (queueItem_hr ..), netView_modNet_comp]
  refine (netView_of_hr _ net (foldl_keeps State.hr (fun t lc => ?_) _ _)).trans ?_
  · split
    next u hqueued =>
      have hu : u.hr = t.hr := by rw [queueTx_eq hqueued]
      exact hu
    · rfl
  obtain ⟨x, hx, hv⟩ := Option.map_eq_some_iff.1 hpulse
  obtain ⟨hbeacon, -⟩ := Prod.mk.inj hv
  rw [netView, show Tbl.get (pruneGrants net s).draw.hr net = some x from hx, ← hbeacon]
  rfl

/-! ### The other timers of a network (O39) -/

section
variable {s : State} {net : Nat}

theorem csma_drawsAgain {x : HrTx} (hx : nextTx s net = some x) (hsend : maySend s = true) (hcap : inCap s net (tb4 s) (tb4 s) = true)
    (hcount : x.assessed + 1 < (hrCfg s net).maxCsma)
    (htime : assessedAt (hrCfg s net) (chan s (txChan s net x)).act.plan (capOf s net (tb4 s)).1 x ≤ tb4 s) :
    hrCsma net true s = (modTx net x (fun _ =>
      { x with be := min (max x.be (hrCfg s net).minBe + 1) (hrCfg s net).maxBe, assessed := x.assessed + 1,
               since := tb4 s, draw := s.free }) s).draw := by
  simp only [hrCsma, hx]
  rw [if_neg (by simp only [hsend, hcap]; simpa using htime), if_pos trivial, if_pos hcount]
  rfl

theorem csma_launches {x : HrTx} (hx : nextTx s net = some x) (hsend : maySend s = true) (hcap : inCap s net (tb4 s) (tb4 s) = true)
    (hcast : x.bcast = false)
    (htime : assessedAt (hrCfg s net) (chan s (txChan s net x)).act.plan (capOf s net (tb4 s)).1 x ≤ tb4 s)
    (hfits : capFits s net (chan s (txChan s net x)).act.plan (earliestLaunch s (chan s (txChan s net x)).act)
      (txBytes s net (chan s (txChan s net x)).act x).2 = true) :
    hrCsma net false s = launchTx net x (earliestLaunch s (chan s (txChan s net x)).act) s := by
  simp only [hrCsma, hx]
  rw [if_neg (by simp only [hsend, hcap]; simpa using htime)]
  simp [hcast, hfits]

theorem route_stands (hchanged : (hrNet s net).changed = true) (hsend : maySend s = true) (hnext : (hrNet s net).next = none)
    (hdue : (hrNet s net).recomputed + (hrCfg s net).routeInterval * nsPerS ≤ tb6 s) :
    routeRecompute net s =
      if (newRoutes (hrNet s net) (hrCfg s net).maxLevel (hrCfg s net).hysteresis).all
          fun p => decide (routeNow (hrNet s net) p.1 = p.2) then
        modNet net (fun h => { h with changed := false, recomputed := tb6 s }) s
      else announceRoutes net (newRoutes (hrNet s net) (hrCfg s net).maxLevel (hrCfg s net).hysteresis)
        (modNet net (fun h => { h with changed := false, recomputed := tb6 s }) s) := by
  simp only [routeRecompute]
  rw [if_neg (by simp [hchanged, hsend, hnext]; omega)]

end

/-- Settles O39. -/
theorem hedgerowTimersAct : Obligations.HedgerowTimersAct := by
  intro s net hrun
  refine ⟨fun h hget hnext hsend hchans hsoon => ?_, fun x hx hsend hcap hcount htime => ?_, fun x hx hsend hcap hcast htime hfits => ?_,
    fun dest x hx => ⟨fun hsent => ?_, fun hsent => ?_⟩, fun a x m hx hm hold => ?_, fun hchanged hsend hnext hdue hall => ?_⟩
  · have hpulse := hrNet_of_netView (s := settle s (hrBeaconTx net s))
      ((netView_of_hr _ net (Laws.settle_hr ..)).trans (beaconTx_counts hget hnext hsend hchans rfl hsoon))
    obtain ⟨hbeacon, hlast⟩ := Prod.mk.inj hpulse
    exact ⟨_, Laws.whileRunning_runs _ hrun, hbeacon, hlast⟩
  · exact whileRunning_gives hrun (csma_drawsAgain hx hsend hcap hcount htime)
  · exact whileRunning_gives hrun (csma_launches hx hsend hcap hcast htime hfits)
  · exact whileRunning_gives hrun (by simp only [hrAckWait, hx, hsent, not_true_eq_false, if_false])
  · exact whileRunning_gives hrun (by simp [hrAckWait, hx, hsent])
  · exact whileRunning_gives hrun (by simp only [toneMapAge, hx, hm, guarded, hold, if_true])
  · exact whileRunning_gives hrun (by rw [route_stands hchanged hsend hnext hdue, if_pos hall])

/-! ### What completes whatever it meets (O40) -/

theorem broadcastWrite_completes {s : State} (hrun : s.dev.phase = .running) (off : Nat) (v : Word) :
    ((0x80 ≤ off % 256 ∨ off % 4 ≠ 0 ∨ targets s off = []) → exec (.broadcastWrite off v) s = .next (settle s s))
      ∧ (off % 256 < 0x80 → off % 4 = 0 → ∃ t, exec (.broadcastWrite off v) s = .next t
          ∧ (∀ n ∈ targets s off, chan t n = chan (writeChan n (off % 256) v s) n) ∧ (∀ n, n ∉ targets s off → chan t n = chan s n)
          ∧ t.met = s.met ∧ t.hr = s.hr ∧ t.br = s.br ∧ t.tim = s.tim) := by
  refine ⟨fun h => whileRunning_gives hrun ?_, fun hx hoff => ⟨_, Laws.whileRunning_runs _ hrun, fun n hn => ?_, fun n hn => ?_, ?_⟩⟩
  · by_cases hignored : 0x80 ≤ off % 256 ∨ off % 4 ≠ 0
    · rw [writeBroadcast, if_pos hignored]
    · have hnone : targets s off = [] := (h.resolve_left fun h => hignored (.inl h)).resolve_left fun h => hignored (.inr h)
      rw [writeBroadcast, if_neg hignored, hnone]
      rfl
  · rw [chan_settle, chan_writeBroadcast v s hx hoff, if_pos hn, chan_writeChan_same]
  · rw [chan_settle, chan_writeBroadcast v s hx hoff, if_neg hn]
  · rw [writeBroadcast_eq]
    simp

theorem dom_wanted (b : Bool) (w : Word) (s : State) : (dom (modDom b (fun d => { d with want := w }) s) b).state = (dom s b).state := by
  rw [dom_modDom, if_pos rfl]

theorem domCfg_completes {s : State} (hrun : s.dev.phase = .running) (b : Bool) (v : Word) :
    let w := v &&& 0xFF07#32
    let u := modDom b (fun d => { d with want := w }) s
    (cfgClash w (dom s (!b)).want = true → exec (.domCfg b v) s = .next (settle s s))
      ∧ (cfgClash w (dom s (!b)).want = false → ((dom s b).state = .disabled ∨ (dom s b).state = .listening) →
          exec (.domCfg b v) s = .next (settle s (applyCfg b u)))
      ∧ (cfgClash w (dom s (!b)).want = false → (dom s b).state ≠ .disabled → (dom s b).state ≠ .listening →
          exec (.domCfg b v) s = .next (settle s u)) := by
  intro w u
  refine ⟨fun hclash => whileRunning_gives hrun (if_pos hclash), fun hclash hidle => whileRunning_gives hrun ?_,
    fun hclash hdisabled hlistening => whileRunning_gives hrun ?_⟩
  · refine (if_neg (ne_true_of_eq_false hclash)).trans ?_
    rcases hidle with hidle | hidle <;> rw [applyIdle, dom_wanted, hidle]
  · refine (if_neg (ne_true_of_eq_false hclash)).trans ?_
    rw [applyIdle, dom_wanted]
    split
    next hstate => exact absurd hstate hdisabled
    next hstate => exact absurd hstate hlistening
    next => rfl

theorem joinReq_completes {s : State} (hrun : s.dev.phase = .running) (r₀ : HrRx) :
    (∃ t, exec (.hrJoinReqRx r₀) s = .next t)
      ∧ (let r := hrSeen s r₀
         let net := hfNet r.bytes
         let src := hfSource r.bytes
         let t := countStat r.lc stRxDetect 1 s
         let u := if hfWants r.bytes then acknowledge r (asksRefresh (chan t r.lc).act ((neigh t net src).getD {}) r) false t
           else measure r false t
         hrWhole r s → hrReaches htJoinReq r s → maySend s = true →
           (joinSlot u (hrPayload r.bytes) = none →
              exec (.hrJoinReqRx r₀) s = .next (settle s (joinResp r.lc net src src 1 1 none u)))
            ∧ (∀ n, joinSlot u (hrPayload r.bytes) = some n → (neigh u net (n % 65536)).isNone = true → neighboursFull u = true →
              exec (.hrJoinReqRx r₀) s = .next (settle s (tableFull (joinResp r.lc net src (n % 65536) 2 1 none u))))
            ∧ (∀ n, joinSlot u (hrPayload r.bytes) = some n → ((neigh u net (n % 65536)).isSome = true ∨ neighboursFull u = false) →
              exec (.hrJoinReqRx r₀) s = .next (settle s (admitJoin r net src n u)))) := by
  refine ⟨⟨_, seenRunning_gives (f := hrJoinRx) hrun rfl rfl⟩, ?_⟩
  dsimp only
  generalize hr : hrSeen s r₀ = r
  intro hwhole hreaches hsend
  have hjoin := joinRx_eq hreaches hwhole hsend
  dsimp only at hjoin
  refine ⟨fun hslot => ?_, fun n hslot hnone hfull => ?_, fun n hslot hroom => ?_⟩
  · exact seenRunning_gives (f := hrJoinRx) hrun hr (by rw [hjoin, hslot])
  · exact seenRunning_gives (f := hrJoinRx) hrun hr (by simp only [hjoin, hslot]; rw [if_pos ⟨hnone, hfull⟩])
  · refine seenRunning_gives (f := hrJoinRx) hrun hr ?_
    simp only [hjoin, hslot]
    refine if_neg fun ⟨hnone, hfull⟩ => ?_
    rcases hroom with hsome | hroom
    · simp [Option.isNone_iff_eq_none.1 hnone] at hsome
    · simp [hroom] at hfull

theorem routeRecompute_completes {s : State} (hrun : s.dev.phase = .running) (net : Nat) :
    let h := hrNet s net
    let routes := newRoutes h (hrCfg s net).maxLevel (hrCfg s net).hysteresis
    let u := modNet net (fun h => { h with changed := false, recomputed := tb6 s }) s
    let due := h.recomputed + (hrCfg s net).routeInterval * nsPerS ≤ tb6 s
    ((h.changed = false ∨ maySend s = false ∨ h.next.isSome = true ∨ ¬ due) → exec (.routeRecompute net) s = .next (settle s s))
      ∧ (h.changed = true → maySend s = true → h.next = none → due → (∀ p ∈ routes, routeNow h p.1 = p.2) →
        exec (.routeRecompute net) s = .next (settle s u))
      ∧ (h.changed = true → maySend s = true → h.next = none → due → (∃ p ∈ routes, routeNow h p.1 ≠ p.2) →
        exec (.routeRecompute net) s = .next (settle s (announceRoutes net routes u))) := by
  intro h routes u due
  refine ⟨fun hquiet => whileRunning_gives hrun (if_pos ?_), fun hchanged hsend hnext hdue hall => whileRunning_gives hrun ?_,
    fun hchanged hsend hnext hdue hnew => whileRunning_gives hrun ?_⟩
  · rcases hquiet with hquiet | hquiet | hquiet | hquiet
    · exact .inl (by simp [hquiet, h])
    · exact .inr (.inl (by simp [hquiet]))
    · exact .inr (.inr (.inl hquiet))
    · exact .inr (.inr (.inr (Nat.not_le.1 hquiet)))
  · rw [route_stands hchanged hsend hnext hdue, if_pos (List.all_eq_true.2 fun p hp => decide_eq_true (hall p hp))]
  · obtain ⟨p, hp, hne⟩ := hnew
    rw [route_stands hchanged hsend hnext hdue, if_neg fun hall => hne (of_decide_eq_true (List.all_eq_true.1 hall p hp))]

theorem timedLaunch_completes {s : State} (hrun : s.dev.phase = .running) (p : Nat) :
    ((port s p).queue = [] → exec (.timedLaunch p) s = .next (settle s s))
      ∧ (∀ l rest, (port s p).queue = l :: rest →
          (macNow s (chan s l.lc).act < laneStart s (chan s l.lc).act l.launch ∨ 16 ≤ (inProgress s p).length) →
          exec (.timedLaunch p) s = .next (settle s s))
      ∧ (∀ l rest, (port s p).queue = l :: rest → laneStart s (chan s l.lc).act l.launch ≤ macNow s (chan s l.lc).act →
          (inProgress s p).length < 16 →
          ∃ t, exec (.timedLaunch p) s = .next t ∧ (port t p).queue = rest
            ∧ { l with launch := launchAt s p l } ∈ (port t p).active) := by
  refine ⟨fun hqueue => whileRunning_gives hrun (by rw [timedLaunch, hqueue]), fun l rest hqueue hwaits => whileRunning_gives hrun ?_,
    fun l rest hqueue htime hroom => ?_⟩
  · simp only [timedLaunch, hqueue]
    exact if_neg (by omega)
  · obtain ⟨hrest, hactive, -⟩ := timedLaunch_starts hqueue htime hroom
    refine ⟨_, Laws.whileRunning_runs _ hrun, ?_, ?_⟩ <;> rw [port_settle]
    · exact hrest
    · exact hactive

/-- Settles O40. -/
theorem theseCommandsComplete : Obligations.TheseCommandsComplete := fun _ hrun =>
  ⟨broadcastWrite_completes hrun, domCfg_completes hrun, joinReq_completes hrun, routeRecompute_completes hrun, timedLaunch_completes hrun⟩

end Sys2Proof.Proofs
end

section
/-!
SUPPORT. Bramble: what a frame that reaches its rules does, and the timers of a connection and of a network (R126 to R139).
-/

namespace Sys2Proof.Proofs
open Sys2Proof.Machine

/-! ### A frame that reaches its rules (R90, R126, R138) -/

section
variable {r : BrRx} {s : State}

/-- A frame of a type the rules bring, that reaches them, is handled in the state that has noted it. -/
theorem brHeard_of_reaches {types : List Nat} {f : State → State} (h : brReaches r s) (htype : bfType r.bytes ∈ types) :
    brHeard r types f s = f (brIntactState r s) := by
  obtain ⟨hhears, hmac, hmode, hwatch, herased, hhcs, hnet, hblank, hfcs⟩ := h
  have hbroken : broken s r.lc (tb5 s) r.span.1 = false := by
    simp only [hears, macNow, hmac, Bool.and_eq_true, decide_eq_true_eq] at hhears
    obtain ⟨-, hsince⟩ := hhears
    rw [if_neg (by omega)] at hsince
    simp only [broken, Bool.and_eq_false_imp, decide_eq_false_iff_not]
    omega
  obtain ⟨mode, hword⟩ := Option.isSome_iff_exists.1 hmode
  simp [brHeard, hbroken, hword, hhears, hmac, hwatch, herased, hhcs, hblank, hfcs, hnet, htype, brIntactState]

/-- A frame of a connection's word is handled for the connection. -/
theorem brConnected_of_conn {types : List Nat} {f : Nat → Conn → State → State} {n : Nat} {c : Conn} (h : brReaches r s)
    (htype : bfType r.bytes ∈ types) (hconn : connByWord s (bfWord r.bytes) = some (n, c)) :
    brConnected r types f s = f n c (brIntactState r s) := by
  have hconn' : connByWord (brIntactState r s) (bfWord r.bytes) = some (n, c) := hconn
  rw [brConnected, brHeard_of_reaches h htype, hconn']

/-- A frame under a lost connection's word is answered as lost. -/
theorem brConnected_of_lost {types : List Nat} {f : Nat → Conn → State → State} {l : Word × Nat × Nat × Nat × Nat} (h : brReaches r s)
    (htype : bfType r.bytes ∈ types) (hconn : connByWord s (bfWord r.bytes) = none) (hlost : lostByWord s (bfWord r.bytes) = some l) :
    brConnected r types f s = answerLost r l (brIntactState r s) := by
  have hconn' : connByWord (brIntactState r s) (bfWord r.bytes) = none := hconn
  have hlost' : lostByWord (brIntactState r s) (bfWord r.bytes) = some l := hlost
  rw [brConnected, brHeard_of_reaches h htype, hconn', hlost']

/-- A connection request under the rendezvous word, on a rendezvous index, to a device that answers. -/
theorem brConnectRx_hears (h : brReaches r s) (htype : bfType r.bytes = btConnectReq) (hword : bfWord r.bytes = rdvWord)
    (hindex : r.index ∈ (chan s r.lc).act.rdv) (hsend : maySend s = true) :
    brConnectRx r s = match joinSlot s (brPayload r.bytes) with
      | none => refuseConnect r (chan s r.lc).act.rdvMode 1 (brIntactState r s)
      | some n =>
        if (conn s n).isNone ∧ neighboursFull (brIntactState r s) then
          limited (limitKey 0x9103 1) nsHour (report 0x9103 kDevice 0 [] 0x0602 1 0 [])
            (refuseConnect r (chan s r.lc).act.rdvMode 2 (brIntactState r s))
        else if ¬ accepting s then refuseConnect r (chan s r.lc).act.rdvMode 3 (brIntactState r s)
        else if s.vlt.trngFailed then brIntactState r s
        else offer r n (brIntactState r s) := by
  have hsend' : maySend (brIntactState r s) = true := hsend
  rw [brConnectRx, brHeard_of_reaches h (by simp [htype])]
  refine (if_neg ?_).trans ((if_neg ?_).trans rfl)
  · simp [hword, hindex]
  · simp [hsend']

end

/-- A frame as seen on the air is handled while the device runs. -/
theorem brSeenRunning_gives {f : BrRx → State → State} {r₀ r : BrRx} {s t : State} (hrun : s.dev.phase = .running) (hr : brSeen s r₀ = r)
    (h : f r s = t) : whileRunning (fun u => f (brSeen u r₀) u) s = .next (settle s t) :=
  whileRunning_gives hrun (by rw [hr, h])

/-- Settles O42. -/
theorem brambleFramesAct : Obligations.BrambleFramesAct := by
  intro r₀ s hrun
  dsimp only
  generalize hr : brSeen s r₀ = r
  intro hreaches
  refine ⟨fun htype hword hindex hsend => ?_, fun n c htype hconn hsent hseq hevent c1 hc1 hnone => ?_, fun n c htype hconn hsent hseq => ?_,
    fun l htype hword hconn hlost => ?_⟩
  · have hheard := brConnectRx_hears hreaches htype hword hindex hsend
    refine ⟨fun hslot => brSeenRunning_gives (f := brConnectRx) hrun hr (by rw [hheard, hslot]), fun n hslot hconn haccepting htrng => ?_⟩
    refine brSeenRunning_gives (f := brConnectRx) hrun hr ?_
    rw [hheard, hslot]
    simp [Option.isSome_iff_ne_none.1 hconn, haccepting, htrng]
  · refine brSeenRunning_gives (f := brAckRx) hrun hr ?_
    rw [brAckRx, brConnected_of_conn hreaches (by simp [htype]) hconn, if_pos ⟨hsent, hseq, hevent⟩]
    simp only [hc1]
    rw [if_neg (by simp [hnone])]
  · refine brSeenRunning_gives (f := brNackRx) hrun hr ?_
    rw [brNackRx, brConnected_of_conn hreaches (by simp [htype]) hconn, if_pos ⟨hsent, hseq⟩]
  · refine brSeenRunning_gives (f := brDataRx) hrun hr ?_
    exact brConnected_of_lost hreaches (by rcases htype with htype | htype <;> simp [htype]) hconn hlost

/-! ### What notices and records leave of Bramble -/

theorem closeHour_br (key : Nat) (s : State) : (closeHour key s).br = s.br := by
  simp only [closeHour, hourSummary]
  split
  · rfl
  · split
    · rw [Laws.yew_br]
      rfl
    · split
      · rw [Laws.yew_br]
        rfl
      · split <;> rw [Laws.yew_br] <;> rfl

theorem hourly_br {key most : Nat} {write : State → State} (h : ∀ s, (write s).br = s.br) (s : State) :
    (hourly key most write s).br = s.br := by
  simp only [hourly]
  split
  · exact (h _).trans (closeHour_br key s)
  · exact closeHour_br key s

theorem limited_br {key period : Nat} {f : State → State} (h : ∀ s, (f s).br = s.br) (s : State) : (limited key period f s).br = s.br := by
  rw [limited]
  split
  · exact h _
  · rfl

/-! ### Connections that end (R135) -/

theorem freeDown_br (c : Conn) (s : State) : (freeDown c s).br = s.br := foldl_keeps State.br (fun _ _ => by rfl) _ s

theorem conn_dropConn (n : Nat) (s : State) : conn (dropConn n s) n = none := by
  rw [dropConn]
  split
  next h => exact h
  · rw [conn, freeDown_br]
    exact Laws.get_del_same ..

/-- A connection past its supervision goes, and its word is remembered. -/
theorem supervision_loses {s : State} {n : Nat} {c : Conn} (hc : conn s n = some c) (hpast : supervisedTo s c ≤ tb6 s)
    (hstate : c.state = .connected) :
    conn (supervisionTimeout n s) n = none
      ∧ (c.aw, n, tb6 s + timeoutNow s c * nsMs, c.net, c.params.phy) ∈ (supervisionTimeout n s).br.lost := by
  have hbr : (supervisionTimeout n s).br = ((dropConn n s).onBr fun b =>
      { b with lost := (c.aw, n, tb6 s + timeoutNow s c * nsMs, c.net, c.params.phy) :: b.lost }).br := by
    simp only [supervisionTimeout, hc]
    rw [if_neg (Nat.not_lt.2 hpast), if_neg (by simp [hstate]), hourly_br fun _ => Laws.yew_br .., Laws.post_br]
    rfl
  constructor
  · rw [conn, hbr]
    exact conn_dropConn n s
  · rw [hbr]
    exact List.mem_cons_self

/-! ### Rendezvous (R127, R132) -/

/-- A frame queued under the dwell rule touches the lanes alone. -/
theorem brSend_eq {kind : DwellKind} {lc launch mode : Nat} {frame : Bytes} {isAck : Bool} {s t : State}
    (h : brSend kind lc launch mode frame isAck s = some t) : t = { s with lane := t.lane } := by
  simp only [brSend, Option.ite_none_right_eq_some] at h
  exact queueTx_eq h.2

/-- What a rendezvous sends leaves Bramble's tables. -/
theorem rendezvousSent_br (launch mode : Nat) (f : Bytes) (k : ChanCfg) (t : State) (lc : Nat) :
    ∀ o, brSend .response lc launch mode f false t = o → (match o with
      | some u => countStat lc sbRdvSent 1 u
      | none => if dwellRefuses .response lc mode f t then
          dwellNotice k (chan t lc).act.centre (countStat lc sbSuppressed 1 t) else t).br = t.br := by
  intro o ho
  cases o with
  | some u =>
    have hu : u.br = t.br := by rw [brSend_eq ho]
    exact hu
  | none =>
    dsimp only
    split
    · exact limited_br (fun _ => Laws.post_br ..) _
    · rfl

theorem rendezvous_counts {s : State} {net : Nat} {k : ChanCfg} (hnet : brNet s net = some k) (hsend : maySend s = true) {second : Nat}
    (hsecond : ceilDiv ((k.rdv.filterMap fun i =>
        (netChans s 2 net).find? fun lc => (chan s lc).act.centre == i && canSend s lc).foldl
          (fun m lc => max m (earliestLaunch s (chan s lc).act)) (tb5 s)) nsPerS = second)
    (hlater : Tbl.getD s.br.rdvSecond net 0 < second) (hsoon : second * nsPerS ≤ tb5 s + nsPerS) :
    (rendezvousTx net s).br = { s.br with rdvNumber := Tbl.put s.br.rdvNumber net (Tbl.getD s.br.rdvNumber net 0 + 1)
                                          rdvSecond := Tbl.put s.br.rdvSecond net second } := by
  simp only [rendezvousTx, hnet, hsecond]
  rw [if_neg (by simp [hsend]; omega), Laws.onBr_br, foldl_keeps State.br (fun t lc => ?_)]
  · rfl
  · exact rendezvousSent_br _ _ _ k t lc _ rfl

/-- Settles O43. -/
theorem brambleTimersAct : Obligations.BrambleTimersAct := by
  refine ⟨fun s n hrun => ⟨fun c hc hpast hstate => ?_, fun c hc hpast hstate _ => ?_, fun aw => Laws.whileRunning_runs _ hrun,
    fun c u hc hu hsent hacked hboth hpast => ?_, fun c why sent hc hterm hpast => ?_, fun hage => ?_, fun net i hremoved => ?_,
    fun g hg hwatch hburst hnew => ?_, fun g hg hburst => ?_⟩, fun s net k hrun hnet hsend => ?_⟩
  · exact whileRunning_gives hrun (by simp only [supervisionTimeout, hc]; rw [if_neg (Nat.not_lt.2 hpast), if_pos hstate])
  · obtain ⟨hgone, hlost⟩ := supervision_loses hc hpast hstate
    refine ⟨_, Laws.whileRunning_runs _ hrun, ?_, ?_⟩
    · rw [conn, Laws.settle_br]
      exact hgone
    · rw [Laws.settle_br]
      exact hlost
  · exact whileRunning_gives hrun (by simp [updatePassed, hc, hu, guarded, hsent, hacked, hboth, hpast])
  · exact whileRunning_gives hrun (by simp only [terminateTimeout, hc, hterm, guarded]; rw [if_pos (decide_eq_true hpast)])
  · exact whileRunning_gives hrun (by simp only [channelQuality]; rw [if_neg (Nat.not_lt.2 hage)])
  · exact whileRunning_gives hrun (by rw [channelRestore, guarded, if_pos hremoved])
  · exact whileRunning_gives hrun (by simp [watchStart, guarded, hg, hwatch, hburst, hnew])
  · exact whileRunning_gives hrun (by simp [watchEnd, guarded, hg, hburst])
  · intro lcs second hlater hsoon
    have hbr : (settle s (rendezvousTx net s)).br = _ := (Laws.settle_br ..).trans (rendezvous_counts hnet hsend rfl hlater hsoon)
    refine ⟨_, Laws.whileRunning_runs _ hrun, ?_, ?_, ?_⟩ <;> rw [hbr]
    · exact Laws.getD_put_same ..
    · exact Laws.getD_put_same ..

end Sys2Proof.Proofs
end

section
/-!
SUPPORT. Background work on slots and shards, the opening of taken frames, boundary marks and schedules (R46, R142, R159 to R177).
-/

namespace Sys2Proof.Proofs
open Sys2Proof.Machine

/-! ### Slots -/

theorem slot_of_met {s t : State} (h : t.met = s.met) (n : Nat) : slot t n = slot s n := by rw [slot, h, slot]

theorem slot_modSlot_same (n : Nat) (f : Slot → Slot) (s : State) : slot (modSlot n f s) n = f (slot s n) := by
  simp [slot, modSlot]

theorem slot_modSlot_ne {n m : Nat} (f : Slot → Slot) (s : State) (h : m ≠ n) : slot (modSlot n f s) m = slot s m := by
  simp only [slot, modSlot, Laws.onMet_met]
  exact Laws.getD_upd_ne _ _ _ _ h

/-- A change of a slot that spares something of it spares it in every slot. -/
theorem slot_modSlot_view {α : Type} {view : Slot → α} {f : Slot → Slot} (h : ∀ x, view (f x) = view x) (n m : Nat) (s : State) :
    view (slot (modSlot n f s) m) = view (slot s m) := by
  by_cases hm : m = n
  · subst hm
    rw [slot_modSlot_same, h]
  · rw [slot_modSlot_ne f s hm]

/-! ### The shape tables (R159) -/

theorem updateShape_ring (z : Zone) (today : Nat) (l : Layout) (rules : List Rule) (x : Slot) :
    (updateShape z today l rules x).ring = x.ring := by
  simp only [updateShape]
  split <;> rfl

/-- What a run over the shape tables does not touch. -/
def unshaped (s : State) : Nat × (Nat → List Interval) × Tariffs × Ledger :=
  (s.met.shapeRun, fun n => (slot s n).ring, s.tar, s.led)

theorem unshaped_modSlot {f : Slot → Slot} (h : ∀ x, (f x).ring = x.ring) (n : Nat) (s : State) :
    unshaped (modSlot n f s) = unshaped s := by
  have hring : (fun m => (slot (modSlot n f s) m).ring) = fun m => (slot s m).ring := funext fun m => slot_modSlot_view h n m s
  rw [unshaped, hring]
  rfl

theorem unshaped_shapeTableUpdate {s : State} {z : Zone} (hzone : s.tim.zone = some z) (hvalid : tb3Valid s = true) :
    unshaped (shapeTableUpdate s) = (tb6 s, fun n => (slot s n).ring, s.tar, s.led) := by
  simp only [shapeTableUpdate, hzone, hvalid, if_true]
  refine (foldl_keeps unshaped (fun t n => ?_) _ _).trans rfl
  split
  · split
    · exact unshaped_modSlot (updateShape_ring z _ _ _) n t
    · rfl
  · rfl

/-! ### Estimates (R159, R160) -/

theorem onGroupsOf_lt (n : Nat) (f : Bool → Group → Group) (s : State) :
    onGroupsOf n f s = { s with lt := (onGroupsOf n f s).lt } := by
  simp only [onGroupsOf]
  split <;> split <;> rfl

theorem feedGroups_lt (n : Nat) (r : Interval) (s : State) : feedGroups n r s = { s with lt := (feedGroups n r s).lt } := by
  rw [feedGroups]
  split
  · rfl
  · exact onGroupsOf_lt ..

theorem exportsOpened_of {s t : State} (hdev : t.dev = s.dev) (hshards : t.met.shards = s.met.shards) (n : Nat) :
    exportsOpened t n = exportsOpened s n := by
  simp only [exportsOpened, shard, hdev, hshards]

/-- Estimates are counted, reach their groups and are committed; where the slot's opened records go to no ring, that is all. -/
theorem gapEstimate_fills {s : State} {n : Nat} {z : Zone} {l : Layout} (hzone : s.tim.zone = some z) (hrules : estimateRules s n ≠ [])
    (hlayout : Tbl.get s.met.layouts (slot s n).layout = some l) (hvalid : tb3Valid s = true) (hstate : (slot s n).state ≠ .empty)
    (hlist : l.isList = false) (hcapture : 900 ≤ l.capture) (hshard : (shard s (shardOf n)).state = .held)
    (hexports : exportsOpened s n = false) (howner : ownerRuns s n = true)
    (hrun : firstRun l.capture (missingEnds z (slot s n) l.capture (estimateWait (estimateRules s n)) (tb2s s)) ≠ []) :
    (slot (gapEstimate n s) n).ring
      = ((estimateRun z (slot s n) l (estimateRules s n)
          (firstRun l.capture (missingEnds z (slot s n) l.capture (estimateWait (estimateRules s n)) (tb2s s)))).reverse
          ++ (slot s n).ring).take 256 := by
  simp only [gapEstimate, hzone, hlayout]
  rw [if_pos ⟨hrules, hvalid, hstate, by simp [hlist], hcapture, hshard, howner⟩, if_neg hrun]
  generalize firstRun l.capture (missingEnds z (slot s n) l.capture (estimateWait (estimateRules s n)) (tb2s s)) = run
  have hfed : ∀ (rs : List Interval) (u : State), (rs.foldl (fun t r => feedGroups n r t) u).met = u.met
      ∧ (rs.foldl (fun t r => feedGroups n r t) u).dev = u.dev := fun rs u =>
    ⟨foldl_keeps State.met (fun t r => by rw [feedGroups_lt]) rs u, foldl_keeps State.dev (fun t r => by rw [feedGroups_lt]) rs u⟩
  rw [if_neg]
  · rw [slot_of_met ((Laws.commit_met _).trans (hfed _ _).1), countSlot, slot_modSlot_same, slot_modSlot_same]
  · rw [exportsOpened_of (s := s)]
    · simp [hexports]
    · exact ((Laws.commit_dev _).trans (hfed _ _).2).trans rfl
    · exact (congrArg Meters.shards ((Laws.commit_met _).trans (hfed _ _).1)).trans rfl

/-! ### Taken frames (R142, R433) -/

section
variable {s : State} {e : Intake}

theorem openNext_opens {rest : List Intake} (hopens : opens s = true) (hintake : s.prot.intake = e :: rest)
    (hdeliver : deliverable s e = true) : openNext s = openAndFree e s := by
  simp [openNext, hopens, hintake, hdeliver]

theorem openNext_sends (hopens : opens s = true) (hintake : s.prot.intake = [e]) (hdeliver : deliverable s e = false) :
    openNext s = sendCrossing e s := by
  simp [openNext, hopens, hintake, hdeliver]

end

/-- Settles O44. -/
theorem backgroundWorkActs : Obligations.BackgroundWorkActs := by
  refine ⟨⟨fun s z hrun hzone hvalid => ?_, fun s n z l hrun hzone hrules hlayout hvalid hstate hlist hcapture hshard hexports _ howner => ?_⟩,
    ⟨fun s n hrun hstate hend => ?_, fun s k e hrun hshard he hup => ?_⟩, fun s e rest hrun hopens hintake hdeliver => ?_,
    fun s e hrun hopens hintake hdeliver => ?_, fun s e => rfl⟩
  · have hkept := unshaped_shapeTableUpdate hzone hvalid
    simp only [unshaped, Prod.mk.injEq] at hkept
    obtain ⟨hshape, hring, htar, hled⟩ := hkept
    refine ⟨_, Laws.whileRunning_runs _ hrun, ?_, fun n => ?_, ?_, ?_⟩
    · rw [Laws.settle_met, hshape]
    · rw [slot_of_met (Laws.settle_met ..)]
      exact congrFun hring n
    · rw [Laws.settle_tar, htar]
    · rw [Laws.settle_led, hled]
  · intro run hruns
    refine ⟨_, Laws.whileRunning_runs _ hrun, ?_⟩
    rw [slot_of_met (Laws.settle_met ..)]
    exact gapEstimate_fills hzone hrules hlayout hvalid hstate hlist hcapture hshard hexports howner hruns
  · exact whileRunning_gives hrun (by simp [commissioningEnd, guarded, hstate, hend])
  · exact whileRunning_gives hrun (by simp [reassign, guarded, hshard, he, hup])
  · exact whileRunning_gives hrun (openNext_opens hopens hintake hdeliver)
  · exact whileRunning_gives hrun (openNext_sends hopens hintake hdeliver)

end Sys2Proof.Proofs
end

section
/-!
SUPPORT. Boundary marks and schedules, sealings, and the loss and theft runs (R169 to R187, R201 to R205, R209 to R221).
-/

namespace Sys2Proof.Proofs
open Sys2Proof.Machine

/-! ### Marks (R170 to R177) -/

section
variable {s : State} {z : Zone}

theorem marksMayRise_of (hvalid : tb3Valid s = true) (hrestore : s.dev.waitTb3 = false) : marksMayRise s = true := by
  simp [marksMayRise, hvalid, hrestore]

/-- An instant at which a plan's schedule changes hands, once reached, brings every mark up to it. -/
theorem reachHand_marks {inst : PlanState → Option Nat} {p t : Nat} {x : PlanState} (hzone : s.tim.zone = some z)
    (hrise : marksMayRise s = true) (hplan : planAt s p = some x) (hinst : inst x = some t) (htime : t ≤ tb2s s) :
    reachHand inst p s = markUpTo z t (markFuel s) (startPlans s) := by
  simp [reachHand, hzone, hplan, hinst, hrise, htime]

end

/-- A mark joins those kept, with the next index, and waits for the journal. -/
theorem createMark_keeps (kind due tariff period : Nat) (plans : List Nat) (flags : BitVec 16) (s : State) :
    let t := createMark kind due plans tariff flags period s
    t.tar.index = s.tar.index + 1 ∧ t.prot.marksPending = (if s.prot.marksPending < 85 then s.prot.marksPending + 1 else 1)
      ∧ t.met = s.met ∧ t.led = s.led
      ∧ ∃ m, t.tar.marks = s.tar.marks ++ [m] ∧ m.index = s.tar.index + 1 ∧ m.kind = kind ∧ m.due = due ∧ m.period = period := by
  intro t
  by_cases hroom : s.prot.marksPending < 85
  · have ht : t = (dirtySector 0x01 (s.onTar fun t => { t with marks := t.marks ++ [_], index := t.index + 1 })).onProt
        fun p => { p with marksPending := p.marksPending + 1 } := if_pos hroom
    rw [ht, if_pos hroom]
    exact ⟨rfl, rfl, rfl, rfl, _, rfl, rfl, rfl, rfl, rfl⟩
  · have ht : t = ((dirtySector 0x01 (s.onTar fun t => { t with marks := t.marks ++ [_], index := t.index + 1 })).onCop
        (Coppice.pourTail s.dev.fit)).onProt fun p => { p with marksPending := 1 } := if_neg hroom
    rw [ht, if_neg hroom]
    exact ⟨rfl, rfl, rfl, rfl, _, rfl, rfl, rfl, rfl, rfl⟩

/-- Settles O45. -/
theorem scheduleEventsAct : Obligations.ScheduleEventsAct := by
  refine ⟨fun s z hrun hzone hvalid => ⟨fun t hrestore hnext htime => ?_, fun p ps l hrestore hplan hpassive htime => ?_,
    fun p ps c hrestore hplan hcalendar htime => ?_, fun p ps t hrestore hplan hfallback htime => ?_, fun n huse hshard howner => ?_⟩,
    fun s kind due tariff period plans flags => createMark_keeps ..⟩
  · exact whileRunning_gives hrun (by simp [boundaryMarkCreate, hzone, marksMayRise_of hvalid hrestore, markNext, hnext, htime])
  · exact whileRunning_gives hrun (reachHand_marks hzone (marksMayRise_of hvalid hrestore) hplan (by rw [hpassive]; rfl) htime)
  · exact whileRunning_gives hrun (reachHand_marks hzone (marksMayRise_of hvalid hrestore) hplan (by rw [hcalendar]; rfl) htime)
  · exact whileRunning_gives hrun (reachHand_marks hzone (marksMayRise_of hvalid hrestore) hplan hfallback htime)
  · exact whileRunning_gives hrun (by simp [boundarySweep, rollAll, huse, hshard, howner])

/-! ### Sealings (R174, R183, R185, R201 to R204) -/

section
variable {s : State}

theorem sealNext_commits {g : Sealing} {rest : List Sealing} (hsealings : s.led.sealings = g :: rest)
    (hnone : ∀ x ∈ s.led.sealings, x.committed = false) (hready : sealingReady s g = true) : sealNext s = commitSealing g s := by
  have hany : ((g :: rest).any fun x => x.committed) = false := by
    simpa [hsealings] using hnone
  simp only [sealNext, hsealings, hany, Bool.false_eq_true, if_false, List.head?_cons, hready, if_true]

theorem rootTimeout_ends {g : Sealing} (hsealings : s.led.sealings = [g]) (hcommitted : g.committed = true) (hpast : g.waitEnd ≤ tb7 s) :
    rootTimeout s = endSealing g.period 0x40 (post 0x0902 1 0 (le 4 g.period) s) := by
  simp [rootTimeout, hsealings, hcommitted, hpast]

theorem planList_everyone (s : State) : planList everyone s = s.tar.plans := by
  simp [planList, everyone]

end

/-- Settles O46. -/
theorem sealingMovesOn : Obligations.SealingMovesOn := by
  refine ⟨fun s g rest hrun hsealings hnone hready => ?_, fun s hrun => ?_, fun s g hrun hsealings hcommitted hpast => ?_,
    fun s slots hrun hcore => ?_, fun s p t hrun hzone hrestore hgrace hpast => ?_⟩
  · exact whileRunning_gives hrun (sealNext_commits hsealings hnone hready)
  · exact whileRunning_gives hrun (by simp [cutoffTimeout])
  · exact whileRunning_gives hrun (rootTimeout_ends hsealings hcommitted hpast)
  · exact whileRunning_gives hrun (by simp only [prebuild, guarded, hcore, if_true])
  · refine whileRunning_gives hrun ?_
    simp only [sealMarkCreate, hgrace, planList_everyone, hzone]
    exact if_neg (by simp [hrestore, hpast])

/-! ### What records and notices leave of loss and theft -/

theorem judgeBacklog_lt (s : State) : (judgeBacklog s).lt = s.lt := by
  refine view_ite State.lt ((Laws.onDev_lt ..).trans ?_) ?_
  · exact view_ite State.lt (Laws.post_lt ..) (view_ite State.lt rfl rfl)
  · exact view_ite State.lt (Laws.post_lt ..) (view_ite State.lt rfl rfl)

theorem commitRec_lt (r : Rec) (s : State) : (commitRec r s).lt = s.lt :=
  (judgeBacklog_lt _).trans (view_ite State.lt rfl rfl)

theorem balanceRec_lt (n flags stamp : Nat) (payload : Bytes) (s : State) : (balanceRec n flags stamp payload s).lt = s.lt :=
  commitRec_lt ..

theorem limited_report_lt (key period yc k so : Nat) (data : Bytes) (nc p ns : Nat) (nd : Bytes) (s : State) :
    (limited key period (report yc k so data nc p ns nd) s).lt = s.lt := by
  rw [limited]
  split
  · exact Laws.report_lt ..
  · rfl

/-! ### Runs over groups (R210 to R220) -/

theorem topologyMember_lt (n own end_ : Nat) (s : State) : (topologyMember n own end_ s).lt = s.lt := by
  simp only [topologyMember]
  split
  · rfl
  · exact view_ite State.lt ((Laws.report_lt ..).trans ((balanceRec_lt ..).trans rfl)) rfl

theorem topologyRun_notesDay {s : State} {z : Zone} (hzone : s.tim.zone = some z) (hdue : dailyDue s z s.lt.topoDay = true)
    (howners : ∀ g ∈ s.lt.groups, ∀ m ∈ g.2.members, ownerRuns s m.1 = true) :
    (topologyRun s).lt.topoDay = legalS z (tb2s s) / 86400 := by
  have hall : (s.lt.groups.all fun g => g.2.members.all fun m => ownerRuns s m.1) = true := by
    simpa [List.all_eq_true] using howners
  simp only [topologyRun, hzone, hdue, hall, Bool.and_self, not_true_eq_false, if_false]
  rw [foldl_keeps State.lt fun t m => topologyMember_lt _ _ _ t]
  rfl

/-- The flags of a group, if it is loaded. -/
def groupFlags (id : Nat) (s : State) : Option (BitVec 16) := (group s id).map Group.flags

theorem group_modGroup (id : Nat) (f : Group → Group) (s : State) : group (modGroup id f s) id = (group s id).map f := get_mod ..

theorem group_of_lt {s t : State} (h : t.lt = s.lt) (id : Nat) : group t id = group s id := by rw [group, h, group]

theorem sayAbsent_lt (id : Nat) (g : Group) (s : State) : (sayAbsent id g s).lt = s.lt := by
  rw [sayAbsent]
  split
  · rfl
  · exact limited_report_lt ..

theorem groupFlags_exportRevised (id : Nat) (s : State) : groupFlags id (exportRevised id s) = groupFlags id s := by
  simp only [exportRevised]
  split
  · rfl
  · refine foldl_keeps (groupFlags id) (fun t a => ?_) _ s
    rw [groupFlags, group_modGroup, Option.map_map, group_of_lt (balanceRec_lt ..)]
    rfl

/-- A contributor's evaluation takes in the interval that was next and is no longer late. -/
theorem balanceEvaluate_contributes {s : State} {z : Zone} {id e : Nat} {g : Group} (hzone : s.tim.zone = some z)
    (hgroup : group s id = some g) (henabled : gEnabled g = true) (hcontributor : gContributor g = true)
    (hnext : nextEvaluation z g = some e) (hvalid : tb3Valid s = true) (howner : ownerRuns s (groupSlot g) = true)
    (hwait : e + s.lt.params.balWait ≤ tb2s s) :
    ∃ h, group (balanceEvaluate id s) id = some h ∧ h.evaluated = e ∧ h.late = false := by
  have hflags : groupFlags id (exportRevised id (sayAbsent id g s)) = some g.flags := by
    rw [groupFlags_exportRevised, groupFlags, group_of_lt (sayAbsent_lt ..), hgroup]
    rfl
  obtain ⟨h, hfound, hsame⟩ := Option.map_eq_some_iff.1 hflags
  have hcontributes : gContributor h = true := by rw [gContributor, hsame, ← gContributor, hcontributor]
  simp only [balanceEvaluate, hzone, hgroup, henabled, if_true, hnext, hvalid, howner, decide_eq_true hwait, Bool.and_self, Bool.or_true,
    not_true_eq_false, if_false, hfound, Option.getD_some, hcontributes]
  rw [group_modGroup, group_of_lt (balanceRec_lt ..), hfound]
  exact ⟨_, rfl, rfl, rfl⟩

/-- Settles O47. -/
theorem lossRunsAct : Obligations.LossRunsAct := by
  refine fun s z hrun hzone => ⟨fun id g hgroup halarm hdue howner => ?_, fun hdue howners => ?_,
    fun id g e hgroup henabled hcontributor hnext hvalid howner hwait => ?_⟩
  · exact whileRunning_gives hrun (by simp [dailyAttribution, hzone, hgroup, halarm, hdue, howner])
  · refine ⟨_, Laws.whileRunning_runs _ hrun, ?_⟩
    rw [Laws.settle_lt]
    exact topologyRun_notesDay hzone hdue howners
  · obtain ⟨h, hfound, hevaluated, hlate⟩ :=
      balanceEvaluate_contributes hzone hgroup henabled hcontributor hnext hvalid howner hwait
    exact ⟨_, h, Laws.whileRunning_runs _ hrun, (group_of_lt (Laws.settle_lt ..) id).trans hfound, hevaluated, hlate⟩

end Sys2Proof.Proofs
end

section
/-!
SUPPORT. The pleached pair: what its frames do once accepted, and its timers (R201, R204, R297 to R315).
-/

namespace Sys2Proof.Proofs
open Sys2Proof.Machine

/-! ### Frames of the pair (R297 to R304) -/

section
variable {z : ZorRx} {s : State} {m : ZMsg}

/-- A frame accepted of a party of the device's own pair acts in the state that has learned of it. -/
theorem zReceive_known {type : Nat} {f : ZMsg → State → State} (hparse : zParse s z.bytes = some m) (hwitness : m.link.witness = none)
    (htype : m.type = type) : zReceive type z f s = f m (zKnown m s) := by
  simp only [zReceive, hparse, htype, ne_eq, not_true_eq_false, if_false, hwitness, zKnown]

theorem zReceive_discards {type : Nat} {f : ZMsg → State → State} (hparse : zParse s z.bytes = none) : zReceive type z f s = zDiscard s := by
  simp only [zReceive, hparse]

/-- A frame the pair's rules handle is handled while the device runs. -/
theorem known_gives {type : Nat} {f : ZMsg → State → State} {u t : State} (hrun : s.dev.phase = .running)
    (hparse : zParse s z.bytes = some m) (hwitness : m.link.witness = none) (hu : zKnown m s = u) (htype : m.type = type)
    (h : f m u = t) : whileRunning (zReceive type z f) s = .next (settle s t) :=
  whileRunning_gives hrun (by rw [zReceive_known hparse hwitness htype, hu, h])

end

section
variable {m : ZMsg} {u : State}

theorem heartbeat_notes (hwitness : m.link.witness = none) (hfrom : fromPartner u m = true) (hpaired : u.pair.state = .paired)
    (hholder : field m.body 1 1 = 1) :
    heartbeat m u = u.onPair fun p => { p with partnerHeard := some (tb6 u), holderHeard := some (tb6 u) } := by
  simp only [fromPartner, hwitness, Option.isNone_none, Bool.true_and] at hfrom
  cases hrecord : u.pair.record with
  | none => simp [hrecord] at hfrom
  | some r =>
    have hsender : m.sender = r.partner := by simpa [hrecord] using hfrom
    simp [heartbeat, hwitness, hholder, hrecord, hsender, hpaired]

/-- A term learned by a device that does not hold the token is the pair's. -/
theorem learnTerm_pair (t : Nat) (hholder : u.pair.holder = false) :
    (learnTerm t u).pair.term = max u.pair.term t ∧ (learnTerm t u).pair.holder = false ∧ (learnTerm t u).dev = u.dev := by
  rw [learnTerm]
  split
  next hle => exact ⟨(Nat.max_eq_left hle).symm, hholder, rfl⟩
  next hlt =>
    rw [hholder]
    exact ⟨(Nat.max_eq_right (Nat.le_of_not_le hlt)).symm, rfl, rfl⟩

theorem grant_stands (hfrom : fromWitness u m = true) (hterm : u.pair.term ≤ field m.body 0 4) (hholder : u.pair.holder = false)
    (hself : field m.body 4 4 = u.dev.deviceId.toNat) :
    (tokenGrant m u).pair.grant = some (field m.body 0 4) ∧ (tokenGrant m u).pair.term = field m.body 0 4 := by
  obtain ⟨hlearned, hstill, hdev⟩ := learnTerm_pair (field m.body 0 4) hholder
  simp only [tokenGrant, hfrom, not_true_eq_false, false_or, Nat.not_lt.2 hterm, if_false, hdev, hself, hstill, Bool.false_eq_true,
    not_false_eq_true, and_self, if_true]
  exact ⟨rfl, hlearned.trans (Nat.max_eq_right hterm)⟩

theorem cutoff_keeps (hfrom : fromPartner u m = true) :
    ∃ v, Tbl.get (cutoffMessage m u).led.cutoffs (field m.body 0 4) = some v ∧ (cutoffMessage m u).led.entries = u.led.entries := by
  simp only [cutoffMessage, hfrom, not_true_eq_false, if_false]
  split
  · exact ⟨_, Laws.get_put_same .., rfl⟩
  · exact ⟨_, Laws.get_put_same .., rfl⟩

theorem leafHashes_counted {e : Entry} (hfrom : fromPartner u m = true) (hentry : entryOf u (field m.body 0 4) = some e) :
    let was := Tbl.getD u.led.mismatches (field m.body 0 4) 0
    let differ := (List.range (min 256 (field m.body 8 2))).filter fun j =>
      treeNode 0 ((hashesOf e.leafBytes).filter fun p => p.1 == field m.body 4 1 * 4096 + field m.body 6 2 + j) != hashAt m.body (12 + 32 * j)
    Tbl.get (leafHashesMessage m u).led.mismatches (field m.body 0 4) = some (was + min (64 - was) differ.length)
      ∧ (leafHashesMessage m u).led.entries = u.led.entries := by
  simp only [leafHashesMessage, hfrom, not_true_eq_false, if_false, hentry, Laws.onLed_led, Laws.get_put_same]
  rw [foldl_keeps State.led fun t j => Laws.yew_led ..]
  exact ⟨by rw [List.length_take], rfl⟩

end

/-- Settles O48. -/
theorem zoryenFramesAct : Obligations.ZoryenFramesAct := by
  refine fun z s hrun => ⟨fun hparse => whileRunning_gives hrun (zReceive_discards hparse), fun m hparse hwitness => ?_⟩
  dsimp only
  generalize hu : zKnown m s = u
  refine ⟨fun htype hfrom hpaired hholder => ?_, fun htype hfrom hterm hholder hself => ?_, fun htype hfrom hold => ?_,
    fun htype hfrom hgap => ?_, fun htype hfrom hnext => ?_, fun x htype hfrom hx => ?_, fun htype hfrom hheld hagrees hpaired => ?_,
    fun htype hfrom hheld hresync harrived => ?_, fun htype hfrom _ => ?_, fun htype hfrom hnone hentry => ?_,
    fun g htype hfrom hg hcommitted => ?_, fun e htype hfrom hentry => ?_, fun e htype hfrom hentry => ?_⟩
  · exact known_gives (f := heartbeat) hrun hparse hwitness hu htype (heartbeat_notes hwitness hfrom hpaired hholder)
  · obtain ⟨hgrant, hlearned⟩ := grant_stands hfrom hterm hholder hself
    exact ⟨_, known_gives (f := tokenGrant) hrun hparse hwitness hu htype rfl, by rw [Laws.settle_pair, hgrant],
      by rw [Laws.settle_pair, hlearned]⟩
  · refine known_gives (f := mirrorMessage) hrun hparse hwitness hu htype ?_
    simp [mirrorMessage, hfrom, hold]
  · refine known_gives (f := mirrorMessage) hrun hparse hwitness hu htype ?_
    simp only [mirrorMessage, hfrom, not_true_eq_false, if_false]
    rw [if_neg (by omega), if_pos hgap]
  · refine known_gives (f := mirrorMessage) hrun hparse hwitness hu htype ?_
    simp only [mirrorMessage, hfrom, not_true_eq_false, if_false]
    rw [if_neg (by omega), if_neg (by omega)]
    cases arrived _ <;> rfl
  · refine known_gives (f := mirrorAck) hrun hparse hwitness hu htype ?_
    simp only [mirrorAck, hfrom, not_true_eq_false, if_false, hx]
  · refine known_gives (f := resyncReqMessage) hrun hparse hwitness hu htype ?_
    simp only [resyncReqMessage, hfrom, hheld, hagrees, not_true_eq_false, ne_eq, or_self, if_false, if_true]
    exact if_neg fun h => by simp [hpaired] at h
  · refine known_gives (f := resyncDataMessage) hrun hparse hwitness hu htype ?_
    simp [resyncDataMessage, hfrom, hheld, hresync, harrived]
  · obtain ⟨v, hv, hentries⟩ := cutoff_keeps hfrom
    exact ⟨_, v, known_gives (f := cutoffMessage) hrun hparse hwitness hu htype rfl, by rw [Laws.settle_led, hv],
      by rw [Laws.settle_led, hentries]⟩
  · refine known_gives (f := rootMessage) hrun hparse hwitness hu htype ?_
    simp [rootMessage, hfrom, hnone, hentry]
  · refine known_gives (f := rootMessage) hrun hparse hwitness hu htype ?_
    simp only [rootMessage, hfrom, not_true_eq_false, if_false, hg, hcommitted, if_true]
  · refine known_gives (f := shardRootsMessage) hrun hparse hwitness hu htype ?_
    simp only [shardRootsMessage, hfrom, not_true_eq_false, if_false, hentry]
  · obtain ⟨hcount, hentries⟩ := leafHashes_counted hfrom hentry
    exact ⟨_, known_gives (f := leafHashesMessage) hrun hparse hwitness hu htype rfl, by rw [Laws.settle_led, hcount],
      by rw [Laws.settle_led, hentries]⟩

/-! ### The pair's timers (R299 to R305, R315) -/

theorem get_of_not_mem {α : Type} {t : Tbl α} {n : Nat} (h : n ∉ t.map Prod.fst) : Tbl.get t n = none := by
  induction t with
  | nil => rfl
  | cons x t ih =>
    obtain ⟨k, v⟩ := x
    simp only [List.map_cons, List.mem_cons, not_or] at h
    rw [Tbl.get, if_neg (Ne.symm h.1), ih h.2]

theorem port_cutPort_same (p : Nat) (s : State) : (port (cutPort p (fun _ => true) s) p).queue = [] := by
  rw [cutPort, port_modPort_same]
  simp

theorem port_cutPort_ne {p q : Nat} (named : Launch → Bool) (s : State) (h : q ≠ p) : port (cutPort p named s) q = port s q := by
  rw [cutPort, port_modPort_ne _ _ h]
  exact foldl_keeps (port · q) (fun _ _ => by rfl) _ s

/-- Once every transmission has been stopped, nothing waits on any port. -/
theorem stopTransmitting_queue (s : State) (p : Nat) : (port (stopTransmitting s) p).queue = [] := by
  have hpass : ∀ (l : List Nat) (t : State), (p ∈ l ∨ (port t p).queue = []) →
      (port (l.foldl (fun t p => cutPort p (fun _ => true) t) t) p).queue = [] := by
    intro l
    induction l with
    | nil => exact fun t h => h.resolve_left nofun
    | cons q l ih =>
      intro t h
      refine ih _ ?_
      by_cases hq : p = q
      · subst hq
        exact .inr (port_cutPort_same p t)
      · rw [port_cutPort_ne _ _ hq]
        exact h.imp (fun h => (List.mem_cons.1 h).resolve_left hq) id
  refine hpass _ s ?_
  by_cases hp : p ∈ s.lane.ports.map Prod.fst
  · exact .inl hp
  · right
    rw [port, Tbl.getD, get_of_not_mem hp]
    rfl

theorem cutPort_pair (p : Nat) (named : Launch → Bool) (s : State) : (cutPort p named s).pair = s.pair :=
  foldl_keeps State.pair (fun _ _ => by rfl) _ s

theorem stopTransmitting_pair (s : State) : (stopTransmitting s).pair = s.pair :=
  foldl_keeps State.pair (fun t p => cutPort_pair p _ t) _ s

section
variable {s : State}

theorem silentSince_of {heard : Option Nat} (h : ∀ x, heard = some x → x + 20 * nsMs ≤ tb6 s) : silentSince s heard = true := by
  cases heard with
  | none => rfl
  | some x => exact decide_eq_true (h x rfl)

theorem holderFence_stops (hholder : s.pair.holder = true) (hfenced : s.pair.fenced = false) (hnamed : s.pair.namedAt + 10 * nsMs ≤ tb6 s) :
    (holderFence s).pair.fenced = true ∧ ∀ p, (port (holderFence s) p).queue = [] := by
  have hfence : holderFence s = stopTransmitting (s.onPair fun p => { p with fenced := true }) := by
    simp [holderFence, guarded, hholder, hfenced, hnamed]
  rw [hfence]
  exact ⟨by rw [stopTransmitting_pair]; rfl, stopTransmitting_queue _⟩

/-- The witness grants the token at the next term to the device that is to have it. -/
theorem witnessGrant_grants {w : Witnessed} {d : Word} (hwitnessed : s.pair.witnessed = [w]) (hgrantee : grantee s w = some d)
    (hterm : w.term ≠ 2 ^ 32 - 1) :
    (witnessGrant w.id.toNat s).pair.witnessed = [{ w with term := w.term + 1, holder := some d }] := by
  have hfind : (s.pair.witnessed.zip (List.range 16)).find? (fun p => p.1.id.toNat == w.id.toNat) = some (w, 0) := by
    rw [hwitnessed]
    simp [List.range, List.range.loop]
  have hdrawn : (if w.holder.isNone then s.draw else s).pair = s.pair := by
    split <;> rfl
  simp only [witnessGrant, hfind, hgrantee]
  rw [if_neg hterm]
  have hgranted : (commit ((if w.holder.isNone then s.draw else s).onPair fun p =>
      { p with witnessed := p.witnessed.modify 0 fun w => { w with term := w.term + 1, holder := some d } })).pair.witnessed
        = [{ w with term := w.term + 1, holder := some d }] := by
    rw [Laws.commit_pair, Laws.onPair_pair, hdrawn, hwitnessed]
    rfl
  split
  · rw [zSend, onlySends_zSendOn]
    exact hgranted
  · exact hgranted

end

/-- Settles O49. -/
theorem pairTimersAct : Obligations.PairTimersAct := by
  refine fun s hrun => ⟨fun hstate hsilent => ?_, fun hrecord hquiet hage hsilent => ?_, fun g hgrant hsilent => ?_,
    fun h hhold hpast hcampaigns => ?_, fun hholder hfenced hnamed => ?_, fun w d hwitnessed hgrantee _ hterm => ?_, fun hlinks hbeat => ?_,
    fun k hdraining hpast => ?_, fun r x hrecords hcore hroom => ?_⟩
  · refine whileRunning_gives hrun ?_
    rw [partnerLost, guarded, silentSince_of hsilent]
    rcases hstate with hstate | hstate <;> simp [hstate]
  · exact whileRunning_gives hrun (by simp [witnessQuiet, guarded, hrecord, hquiet, silentSince_of hsilent, silence, hage])
  · refine ⟨_, Laws.whileRunning_runs _ hrun, ?_⟩
    rw [Laws.settle_pair]
    simp [tokenTake, guarded, hgrant, silentSince_of hsilent, State.onPair, State.onMet]
  · exact whileRunning_gives hrun (by simp [tokenHoldEnd, guarded, hhold, hpast, hcampaigns])
  · obtain ⟨hfence, hqueues⟩ := holderFence_stops hholder hfenced hnamed
    refine ⟨_, Laws.whileRunning_runs _ hrun, ?_, fun p => ?_⟩
    · rw [Laws.settle_pair, hfence]
    · rw [port_settle, hqueues]
  · exact ⟨_, _, Laws.whileRunning_runs _ hrun, by rw [Laws.settle_pair, witnessGrant_grants hwitnessed hgrantee hterm], rfl, rfl⟩
  · refine whileRunning_gives hrun ?_
    rw [heartbeatTx, if_neg]
    simp [hlinks, hbeat]
  · refine ⟨_, Laws.whileRunning_runs _ hrun, ?_⟩
    rw [shard_settle]
    simp only [drainEnds, guarded, hdraining, hpast, decide_true, Bool.and_self, if_true]
    exact congrArg Shard.state (shard_modShard_same k (fun x => { x with state := .unheld }) _)
  · refine whileRunning_gives hrun ?_
    simp [ethernetIngest, hrecords, hcore, hroom]

end Sys2Proof.Proofs
end

section
/-!
SUPPORT. The TIME island's registers and instants, and PTP (R225 to R247).
-/

namespace Sys2Proof.Proofs
open Sys2Proof.Machine

/-! ### Registers and instants (R226, R233 to R235, R239) -/

theorem tbStat_modStat_same (n : Nat) (f : TbStat → TbStat) (s : State) : tbStat (modStat n f s) n = f (tbStat s n) := by
  simp [tbStat, modStat]

theorem tbStat_of_tim {s t : State} (h : t.tim = s.tim) (n : Nat) : tbStat t n = tbStat s n := by rw [tbStat, h, tbStat]

theorem timeEvent_tim (code notice prio : Nat) (data : Bytes) (source : Nat) (ndata : Bytes) (s : State) :
    (timeEvent code notice prio data source ndata s).tim = s.tim := by
  rw [timeEvent, limited]
  split
  · rw [Laws.report_tim]
    rfl
  · rfl

theorem latchRead_latches {s : State} {n : Nat} (hn : n < 8) :
    latchRead n s = emit (.read (le 4 (BitVec.ofNat 96 (baseStamp s n)).toNat))
      (modStat n (fun x => { x with latch := BitVec.ofNat 96 (baseStamp s n) }) s) := by
  simp only [latchRead, guarded, hn, decide_true, if_true]

theorem leapSecond_passes {s : State} {z : Zone} (hzone : s.tim.zone = some z) (hvalid : tb2Valid s = true)
    (hdone : s.tim.leapDone = false) (hleap : z.leap ≠ 0) (htime : z.leap ≤ tb2s s) :
    (leapSecond s).tim = (modStat 3 (fun x => { x with leap := false }) (s.onTim fun t => { t with leapDone := true })).tim := by
  simp only [leapSecond, hzone, guarded, hvalid, hdone, Bool.not_false, bne_iff_ne.2 hleap, decide_eq_true htime, Bool.and_self, if_true]
  exact timeEvent_tim ..

/-- Settles O50. -/
theorem timeRegistersAct : Obligations.TimeRegistersAct := by
  refine fun s hrun => ⟨fun n hn => ?_, fun v => Laws.whileRunning_runs _ hrun, fun b v hclash => (domCfg_completes hrun b v).1 hclash,
    fun b v hclash hdisabled hlistening => (domCfg_completes hrun b v).2.2 hclash hdisabled hlistening,
    fun z hzone hvalid hdone hleap htime => ?_, fun hvalid hlimit => ?_, fun hsame => ?_, fun hsame => ?_⟩
  · refine ⟨_, whileRunning_gives hrun (latchRead_latches hn), ?_, Laws.settle_out_mem _ _ ?_⟩
    · rw [tbStat_of_tim (Laws.settle_tim ..), tbStat_of_tim (Laws.emit_tim ..), tbStat_modStat_same]
    · simp [emit, State.onHost]
  · have htim := (Laws.settle_tim s (leapSecond s)).trans (leapSecond_passes hzone hvalid hdone hleap htime)
    refine ⟨_, Laws.whileRunning_runs _ hrun, ?_, ?_, ?_⟩
    · rw [htim]
      rfl
    · rw [tbStat_of_tim htim, tbStat_modStat_same]
    · rw [htim]
      rfl
  · exact whileRunning_gives hrun (by simp only [holdoverLimit, guarded, hvalid, decide_eq_true hlimit, Bool.and_self, if_true])
  · exact whileRunning_gives hrun (by simp [slewEnd, guarded, hsame])
  · exact whileRunning_gives hrun (by simp [slewEnd, guarded, hsame])

/-! ### PTP messages (R228 to R232) -/

section
variable {type : Nat} {ok : Bool} {r : PtpRx} {take : State → State} {s : State}

theorem ptpTyped_takes (htype : pmType r.bytes = type) (hok : ok = true) : ptpTyped type ok r take s = take s := by
  simp [ptpTyped, htype, hok]

theorem ptpTyped_discards (htype : pmType r.bytes = type) (hok : ok = false) : ptpTyped type ok r take s = discardPtp r.port s := by
  simp [ptpTyped, htype, hok]

end

section
variable {r : PtpRx} {s : State}

/-- A Sync of the domain's master: a configuration that waits comes first, then one step or two. -/
theorem ptpSync_of_master {b : Bool} (htype : pmType r.bytes = ptSync) (hok : (msgOk r 44 && rateOk r.bytes) = true)
    (hdom : domOf s r.port r.bytes = some b) (hmaster : fromMaster (dom s b) r.bytes = true) :
    ptpSync r s = if (dom s b).want ≠ (dom s b).cfg then applyCfg b s
      else if pmTwoStep r.bytes then
        modDom b (fun d => { d with twoStep := some (pmSeq r.bytes, ingressNs s r, pmCorr r.bytes), syncInt := intervalNs (pmLog r.bytes) }) s
      else takeSync b (pmTime r.bytes 34) (ingressNs s r) (pmCorr r.bytes) (intervalNs (pmLog r.bytes)) s := by
  simp only [ptpSync, ptpTyped_takes htype hok, hdom, hmaster, not_true_eq_false, if_false]

theorem ptpFollowUp_of_master {b : Bool} {t2 c : Int} (htype : pmType r.bytes = ptFollowUp) (hok : msgOk r 44 = true)
    (hdom : domOf s r.port r.bytes = some b) (hmaster : fromMaster (dom s b) r.bytes = true)
    (hstep : (dom s b).twoStep = some (pmSeq r.bytes, t2, c)) :
    ptpFollowUp r s = takeSync b (pmTime r.bytes 34) t2 (c + pmCorr r.bytes) (dom s b).syncInt s := by
  simp only [ptpFollowUp, ptpTyped_takes htype hok, hdom, hstep, hmaster, and_self, if_true]

theorem delayResp_of_master {b : Bool} {t3 : Int} (htype : pmType r.bytes = ptDelayResp) (hmsg : msgOk r 54 = true)
    (hrate : rateOk r.bytes = true) (hprofile : profileFits s r false = true) (hdom : domOf s r.port r.bytes = some b)
    (hmaster : fromMaster (dom s b) r.bytes = true) (hreq : (dom s b).delayReq = some (pmSeq r.bytes, t3))
    (hself : slice r.bytes 44 10 = ownIdentity s r.port) :
    delayResp r s = modDom b (fun d =>
      { d with pathDelay := (d.msDelay + ((pmTime r.bytes 34 - t3) * uNs - pmCorr r.bytes)) / 2, delayReq := none }) s := by
  have hok : (msgOk r 54 && rateOk r.bytes && profileFits s r false) = true := by simp [hmsg, hrate, hprofile]
  simp only [delayResp, ptpTyped_takes htype hok, hdom, hreq, hmaster, hself, and_self, if_true]

theorem ptpAnnounce_heard (htype : pmType r.bytes = ptAnnounce) (hok : (msgOk r 64 && rateOk r.bytes) = true)
    (hsteps : (announceOf r.bytes).steps < 255) :
    ptpAnnounce r s = [false, true].foldl (fun t b =>
      if (dom t b).state != .disabled && domNumber (dom t b) == pmDomain r.bytes then
        reselect (chooseMaster b (modDom b (hearMaster r.port (announceOf r.bytes) (intervalNs (pmLog r.bytes)) (tb6 t)) t))
      else t) s := by
  simp only [ptpAnnounce, ptpTyped_takes htype hok]
  rw [if_neg (Nat.not_le.2 hsteps)]

/-- A message of the peer delay mechanism that its port takes. -/
theorem peerOk (hmsg : msgOk r 54 = true) (hprofile : profileFits s r true = true) : (msgOk r 54 && profileFits s r true) = true := by
  simp [hmsg, hprofile]

theorem pdelayReq_answered (htype : pmType r.bytes = ptPdelayReq) (hmsg : msgOk r 54 = true) (hprofile : profileFits s r true = true)
    (hup : (ethPort s r.port).up = true) :
    pdelayReq r s = if (ethPort s r.port).twoStep then
        sendPtp r.port ptpPeers (ownMessage s r.port ptPdelayRespFollowUp (pmDomain r.bytes) (pmSeq r.bytes) (pmCorr r.bytes) 0
            (pmStamp (egressNs s r.port (portTb s r.port)) ++ pmSource r.bytes))
          (sendPtp r.port ptpPeers (ownMessage s r.port ptPdelayResp (pmDomain r.bytes) (pmSeq r.bytes) 0 2
            (pmStamp (ingressNs s r) ++ pmSource r.bytes)) s)
      else
        sendPtp r.port ptpPeers (ownMessage s r.port ptPdelayResp (pmDomain r.bytes) (pmSeq r.bytes)
          (pmCorr r.bytes + (egressNs s r.port (portTb s r.port) - ingressNs s r) * uNs) 0 (zeros 10 ++ pmSource r.bytes)) s := by
  simp only [pdelayReq, ptpTyped_takes htype (peerOk hmsg hprofile), hup, not_true_eq_false, if_false]

theorem pdelayResp_taken {t1 : Int} (htype : pmType r.bytes = ptPdelayResp) (hmsg : msgOk r 54 = true) (hprofile : profileFits s r true = true)
    (hreq : (ethPort s r.port).pdelay = some (pmSeq r.bytes, t1)) (hself : slice r.bytes 44 10 = ownIdentity s r.port) :
    pdelayResp r s = if pmTwoStep r.bytes then
        modEth r.port (fun x => { x with pdelayTwo := some (pmSeq r.bytes, pmTime r.bytes 34, ingressNs s r, pmCorr r.bytes) }) s
      else
        setPeerDelay r.port (((ingressNs s r - t1) * uNs - pmCorr r.bytes - (ethPort s r.port).asymmetry) / 2)
          (modEth r.port (fun x => { x with pdelay := none }) s) := by
  simp only [pdelayResp, ptpTyped_takes htype (peerOk hmsg hprofile), hreq, hself, ne_eq, not_true_eq_false, or_self, if_false]

theorem pdelayRespFollowUp_taken {t1 t2 t4 c : Int} (htype : pmType r.bytes = ptPdelayRespFollowUp) (hmsg : msgOk r 54 = true)
    (hprofile : profileFits s r true = true) (hreq : (ethPort s r.port).pdelay = some (pmSeq r.bytes, t1))
    (htwo : (ethPort s r.port).pdelayTwo = some (pmSeq r.bytes, t2, t4, c)) (hself : slice r.bytes 44 10 = ownIdentity s r.port) :
    pdelayRespFollowUp r s
      = setPeerDelay r.port (((t4 - t1) * uNs - (pmTime r.bytes 34 - t2) * uNs - c - pmCorr r.bytes - (ethPort s r.port).asymmetry) / 2)
          (modEth r.port (fun x => { x with pdelay := none, pdelayTwo := none }) s) := by
  simp only [pdelayRespFollowUp, ptpTyped_takes htype (peerOk hmsg hprofile), hreq, htwo, hself, ne_eq, not_true_eq_false, or_self, if_false]

end

/-- Settles O51. -/
theorem ptpMessagesAct : Obligations.PtpMessagesAct := by
  intro r s hrun
  dsimp only
  refine ⟨fun htype hok => whileRunning_gives hrun (by simp only [ptpSync, ptpTyped_discards htype hok]), fun b hdom hmaster => ⟨fun htype hok hwaits => ?_,
    fun htype hok hforce htwo => ?_, fun htype hok hforce hone => ?_, fun t2 c htype hok hstep => ?_,
    fun t3 htype hmsg hrate hprofile hreq hself => ?_⟩, fun htype hok hsteps => ?_,
    fun htype hmsg hprofile hup => ⟨fun hone => ?_, fun htwo => ?_⟩, fun t1 htype hmsg hprofile hreq hself => ⟨fun htwo => ?_, fun hone => ?_⟩,
    fun t1 t2 t4 c htype hmsg hprofile hreq htwo hself => ?_⟩
  · exact whileRunning_gives hrun (by rw [ptpSync_of_master htype hok hdom hmaster, if_pos hwaits])
  · exact whileRunning_gives hrun (by rw [ptpSync_of_master htype hok hdom hmaster, if_neg (not_not_intro hforce), if_pos htwo])
  · exact whileRunning_gives hrun (by
      rw [ptpSync_of_master htype hok hdom hmaster, if_neg (not_not_intro hforce), if_neg (ne_true_of_eq_false hone)])
  · exact whileRunning_gives hrun (ptpFollowUp_of_master htype hok hdom hmaster hstep)
  · exact whileRunning_gives hrun (delayResp_of_master htype hmsg hrate hprofile hdom hmaster hreq hself)
  · exact whileRunning_gives hrun (ptpAnnounce_heard htype hok hsteps)
  · exact whileRunning_gives hrun (by rw [pdelayReq_answered htype hmsg hprofile hup, if_neg (ne_true_of_eq_false hone)])
  · exact whileRunning_gives hrun (by rw [pdelayReq_answered htype hmsg hprofile hup, if_pos htwo])
  · exact whileRunning_gives hrun (by rw [pdelayResp_taken htype hmsg hprofile hreq hself, if_pos htwo])
  · exact whileRunning_gives hrun (by rw [pdelayResp_taken htype hmsg hprofile hreq hself, if_neg (ne_true_of_eq_false hone)])
  · exact whileRunning_gives hrun (pdelayRespFollowUp_taken htype hmsg hprofile hreq htwo hself)

/-! ### PTP timers and links (R229, R232) -/

theorem ethPort_of_tim {s t : State} (h : t.tim = s.tim) (p : Nat) : ethPort t p = ethPort s p := by rw [ethPort, h, ethPort]

theorem ethPort_modEth_same (p : Nat) (f : EthPort → EthPort) (s : State) : ethPort (modEth p f s) p = f (ethPort s p) := by
  by_cases hp : p = 0 <;> simp [ethPort, modEth, State.onTim, hp]

theorem ethPort_modEth_ne {p q : Nat} (f : EthPort → EthPort) (s : State) (hp : p < 2) (hq : q < 2) (h : q ≠ p) :
    ethPort (modEth p f s) q = ethPort s q := by
  by_cases hp0 : p = 0
  · have hq0 : q ≠ 0 := by omega
    simp [ethPort, modEth, State.onTim, hp0, hq0]
  · have hq0 : q = 0 := by omega
    simp [ethPort, modEth, State.onTim, hp0, hq0]

theorem sendPtp_tim (p : Nat) (dst m : Bytes) (s : State) : (sendPtp p dst m s).tim = s.tim := by
  rw [sendPtp, onlySends_emitEth]

theorem pdelayReqTx_numbers {s : State} {p : Nat} (hp : p < 2) (hup : (ethPort s p).up = true) (hpeer : (ethPort s p).p2p = true) :
    ethPort (pdelayReqTx p s) p = { ethPort s p with pdelay := some ((ethPort s p).seqId, egressNs s p (portTb s p)), pdelayTwo := none
                                                     seqId := ((ethPort s p).seqId + 1) % 65536 } := by
  simp only [pdelayReqTx, guarded, hp, hup, hpeer, decide_true, Bool.and_self, if_true]
  rw [ethPort_of_tim (sendPtp_tim ..), ethPort_modEth_same, hup]

theorem ethPort_modDom (b : Bool) (f : Domain → Domain) (s : State) (p : Nat) : ethPort (modDom b f s) p = ethPort s p := by
  cases b <;> rfl

theorem dom_modEth (p : Nat) (f : EthPort → EthPort) (s : State) (b : Bool) : dom (modEth p f s) b = dom s b := by
  by_cases hp : p = 0 <;> cases b <;> simp [dom, modEth, State.onTim, hp]

/-- While no domain is enabled a link that falls changes its port alone. -/
theorem linkDown_of_disabled {s : State} {p : Nat} (hp : p < 2) (hA : (dom s false).state = .disabled) (hB : (dom s true).state = .disabled)
    (q : Nat) : ethPort (linkDown p s) q = ethPort (modEth p (fun e => { e with up := false, pdelay := none, pdelayTwo := none }) s) q := by
  rw [linkDown, if_neg (by omega)]
  dsimp only
  generalize hu : modEth p (fun e => { e with up := false, pdelay := none, pdelayTwo := none }) s = u
  have hA' : (dom u false).state = .disabled := by rw [← hu, dom_modEth, hA]
  have hB' : (dom u true).state = .disabled := by rw [← hu, dom_modEth, hB]
  by_cases hprimaryA : primaryPort (dom u false) = p <;> by_cases hprimaryB : primaryPort (dom u true) = p <;>
    simp [hA', hB', hprimaryA, hprimaryB, dom_modDom, ethPort_modDom]

/-- Settles O52. -/
theorem ptpTimersAct : Obligations.PtpTimersAct := by
  intro s hrun
  refine ⟨fun b => ?_, fun p hp hup hpeer => ?_, fun p hp => ?_, fun p hp hA hB => ?_⟩
  · dsimp only
    refine ⟨fun hstate hmaster hup hpeer hpower => ?_, fun hstate hquiet halt => ?_, fun x hstate halt hup hsince hage hheard => ?_,
      fun hstate hquiet => ?_, fun hstate hmaster hage => ?_⟩
    · exact whileRunning_gives hrun (by simp [delayReqTx, guarded, hstate, hmaster, hup, hpeer, hpower])
    · exact whileRunning_gives hrun (by simp [announceTimeout, guarded, hstate, hquiet, halt])
    · exact whileRunning_gives hrun (by simp [primaryReturn, guarded, hstate, halt, hup, hsince, hage, hheard])
    · refine whileRunning_gives hrun ?_
      simp only [syncTimeout, guarded, hstate, decide_true, decide_eq_true hquiet, Bool.and_self, if_true]
    · exact whileRunning_gives hrun (by simp [holdoverTimeout, guarded, hstate, hmaster, hage])
  · have hport := (ethPort_of_tim (Laws.settle_tim s (pdelayReqTx p s)) p).trans (pdelayReqTx_numbers hp hup hpeer)
    exact ⟨_, Laws.whileRunning_runs _ hrun, by rw [hport], by rw [hport], by rw [hport]⟩
  · exact whileRunning_gives hrun (by simp [linkUp, guarded, hp])
  · have hport := fun q => (ethPort_of_tim (Laws.settle_tim s (linkDown p s)) q).trans (linkDown_of_disabled hp hA hB q)
    refine ⟨_, Laws.whileRunning_runs _ hrun, ?_, ?_, fun q hq hne => ?_⟩
    · rw [hport, ethPort_modEth_same]
    · rw [hport, ethPort_modEth_same]
    · rw [hport, ethPort_modEth_ne _ _ hp hq hne]

end Sys2Proof.Proofs
end

section
/-!
SUPPORT. The events of the vault (R67, R253 to R261, R399).
-/

namespace Sys2Proof.Proofs
open Sys2Proof.Machine

section
variable {s : State}

/-- A retry of the TRNG's tests 1 s after the last. -/
theorem trngRetest_due (pass : Bool) (hfailed : s.vlt.trngFailed = true) (hage : s.vlt.trngTested + nsPerS ≤ tb6 s) :
    trngRetest pass s = s.onVlt fun v =>
      let n := if pass then v.trngPasses + 1 else 0
      { v with trngPasses := if 16 ≤ n then 0 else n, trngFailed := decide (n < 16), trngTested := tb6 s } := by
  rw [trngRetest, if_pos ⟨hfailed, hage⟩]

theorem onVlt_congr {f g : Vault → Vault} (h : f s.vlt = g s.vlt) : s.onVlt f = s.onVlt g := by
  rw [State.onVlt, h, State.onVlt]

theorem debugUnlock_live {sig ch : Bytes} (hlive : liveChallenge s = some ch) :
    debugUnlock sig s = if verifyUnder s 3 (ascii "KHMAINT" ++ ch ++ le 8 s.dev.fit.serial.toNat) sig then
        wakeDeep (report 0x3023 kDevice 0 [] 0x0C05 1 0 [] (extend 5 ch
          (((claimFalcon s).onVlt fun v => { v with challenge := none }).onDev fun d => { d with debugUnlocked := true })))
      else (claimFalcon s).onVlt fun v => { v with challenge := none } := by
  simp only [debugUnlock, hlive]

end

/-- Settles O53. -/
theorem vaultEventsAct : Obligations.VaultEventsAct := by
  intro s hrun
  dsimp only
  refine ⟨fun htrng hage => ?_, ⟨fun hfailed => ?_, fun hworked => ?_⟩, fun hfailed hage => ⟨?_, fun hpasses => ?_, fun hpasses => ?_⟩,
    fun y hy hexpired => ?_, fun c hc hdead => ?_, fun sig ch hlive => ⟨fun hgood => ?_, fun hbad => ?_⟩⟩
  · exact whileRunning_gives hrun (by rw [vaultRemask, if_pos ⟨htrng, hage⟩])
  · exact whileRunning_gives hrun (by simp only [trngFail, hfailed, if_true])
  · exact whileRunning_gives hrun (by simp only [trngFail, hworked, Bool.false_eq_true, if_false])
  · exact whileRunning_gives hrun (by rw [trngRetest_due false hfailed hage]; exact onVlt_congr (by simp))
  · refine whileRunning_gives hrun ((trngRetest_due true hfailed hage).trans (onVlt_congr ?_))
    simp [show ¬ 15 ≤ s.vlt.trngPasses by omega]
    omega
  · refine whileRunning_gives hrun ((trngRetest_due true hfailed hage).trans (onVlt_congr ?_))
    simp [hpasses]
  · have hany : (s.host.sessions.any fun x => x.id == y.id && expired s x) = true :=
      List.any_eq_true.2 ⟨y, hy, by simp [hexpired]⟩
    exact whileRunning_gives hrun (by rw [sessionExpiry, if_pos hany])
  · exact whileRunning_gives hrun (by rw [challengeExpiry, if_pos (by simp [hc, hdead])])
  · exact whileRunning_gives hrun (by rw [debugUnlock_live hlive, if_pos hgood])
  · exact whileRunning_gives hrun (by rw [debugUnlock_live hlive, if_neg (ne_true_of_eq_false hbad)])

end Sys2Proof.Proofs
end

section
/-!
SUPPORT. Coppice's timers and faults (R206, R270 to R274, R281 to R289).
-/

namespace Sys2Proof.Proofs
open Sys2Proof.Machine

/-! ### What writing a sector leaves of Coppice

A sector that becomes dirty can move the whole log: pages are programmed, rows end, blocks close, the journal is poured. None of it touches
what Coppice measures and what its DRAM has lost. -/

/-- The temperatures counted, the time of the last snapshot, the DRAM errors noted and the slots to reload. -/
def copGauges (c : Coppice) : Tbl Nat × Nat × List (Nat × Nat × Nat) × List Nat := (c.temps, c.snapshotAt, c.dramErrors, c.reload)

section
variable (f : Fitting) (c : Coppice)

theorem copGauges_journal (op target value : Nat) : copGauges (c.journal f op target value) = copGauges c := by
  simp only [Coppice.journal]
  split <;> rfl

theorem copGauges_setBlock (b : Nat) (g : Block → Block) : copGauges (c.setBlock f b g) = copGauges c :=
  copGauges_journal f _ _ _ _

theorem copGauges_moveMap (lsn psn : Nat) : copGauges (c.moveMap f lsn psn) = copGauges c :=
  copGauges_journal f _ _ _ _

theorem copGauges_setBlocks (g : Block → Block) (l : List Nat) :
    copGauges (l.foldl (fun t b => t.setBlock f b g) c) = copGauges c :=
  foldl_keeps copGauges (fun t b => copGauges_setBlock f t b g) l c

theorem copGauges_opened (st : Nat) : copGauges (c.opened f st) = copGauges c := by
  simp only [Coppice.opened]
  split
  · exact copGauges_setBlocks f _ _ _
  · rfl

theorem copGauges_endRow (st : Nat) (x : Stream) : copGauges (c.endRow f st x) = copGauges c := by
  have hparity : ∀ (r : Option Nat) (p : Nat → ParityPage),
      copGauges (match r with
        | some i => Coppice.programmedN 4 { c with parity := c.parity ++ [p i] }
        | none => c) = copGauges c := by
    intro r p
    cases r <;> rfl
  simp only [Coppice.endRow]
  split
  · exact hparity _ _
  · exact (copGauges_setBlocks f _ _ _).trans (hparity _ _)

theorem copGauges_putPage {st : Nat} {secs : List (Nat × Nat)} {p : Nat × Coppice} (h : c.putPage f st secs = some p) :
    copGauges p.2 = copGauges c := by
  simp only [Coppice.putPage] at h
  split at h
  · split at h
    · cases h
    · split at h
      · cases h
      · cases h
        dsimp only
        split
        · exact (copGauges_endRow f _ _ _).trans (copGauges_opened f c st)
        · exact copGauges_opened f c st
  · cases h

theorem copGauges_readableAgain (lsn : Nat) : copGauges (c.readableAgain lsn) = copGauges c := by
  simp only [Coppice.readableAgain]
  split
  · rfl
  · split <;> rfl

theorem copGauges_writeData {st : Nat} {lsns : List Nat} {d : Coppice} (h : c.writeData f st lsns = some d) :
    copGauges d = copGauges c := by
  obtain ⟨p, hp, rfl⟩ := Option.map_eq_some_iff.1 h
  refine (foldl_keeps copGauges (fun t x => ?_) _ p.2).trans (copGauges_putPage f c hp)
  exact (copGauges_moveMap f _ _ _).trans (copGauges_readableAgain t x.1)

theorem copGauges_drainPage {d : Coppice} (h : c.drainPage f = some d) : copGauges d = copGauges c := by
  simp only [Coppice.drainPage] at h
  split at h
  · cases h
  · split at h
    · cases h
      rfl
    · obtain ⟨st, -, hd⟩ := Option.bind_eq_some_iff.1 h
      exact copGauges_writeData f c hd

theorem copGauges_makeRoom (room n : Nat) : copGauges (c.makeRoom f room n) = copGauges c := by
  induction n generalizing c with
  | zero => rfl
  | succ n ih =>
    simp only [Coppice.makeRoom]
    split
    · rfl
    · split
      next d hd => exact (ih d).trans (copGauges_drainPage f c hd)
      · rfl

theorem copGauges_dirty (room type : Nat) : copGauges (c.dirty f room type) = copGauges c := copGauges_makeRoom f c _ _

end

section
variable (s : State)

theorem copGauges_commit : copGauges (commit s).cop = copGauges s.cop := copGauges_dirty _ _ _ _

theorem copGauges_yewAppend (e : YewEvent) (staged : Bool) : copGauges (yewAppend e staged s).cop = copGauges s.cop := by
  have hsector : copGauges (if s.yew.newest % 64 = 0 then dirtySector 0x08 s else s).cop = copGauges s.cop := by
    split
    · exact copGauges_dirty _ _ _ _
    · rfl
  simp only [yewAppend]
  split
  · rw [Laws.signal_cop, Laws.onYew_cop, hsector]
  · rw [Laws.onYew_cop, hsector]

theorem copGauges_yewErase (n : Nat) : copGauges (yewErase n s).cop = copGauges s.cop := by
  simp only [yewErase]
  split
  · split
    · rfl
    · rw [Laws.post_cop, copGauges_yewAppend]
      rfl
  · rfl

theorem copGauges_yew (code kind source : Nat) (data : Bytes) : copGauges (yew code kind source data s).cop = copGauges s.cop := by
  simp only [yew]
  split
  · split <;> rfl
  · rw [yewPut, copGauges_yewAppend]
    split
    · rfl
    · exact copGauges_yewErase s _

theorem copGauges_report (yewCode kind source : Nat) (data : Bytes) (noticeCode prio nsource : Nat) (ndata : Bytes) :
    copGauges (report yewCode kind source data noticeCode prio nsource ndata s).cop = copGauges s.cop := by
  rw [report, Laws.post_cop, copGauges_yew]

end

/-! ### The timers -/

section
variable {s : State}

theorem tailWrite_due (hnand : nandUsed s = true) (hage : s.cop.tailAt + nsPerS ≤ tb6 s) (hring : s.cop.ringFull s.dev.fit = false) :
    tailWrite s = (s.nand fun f c => { c.pourTail f with tailAt := tb6 s }).onProt fun p => { p with marksPending := 0 } := by
  rw [tailWrite, if_pos ⟨hnand, Or.inl hage⟩]
  simp [hring]

theorem checkpointDue_aged (hnand : nandUsed s = true) (hage : s.cop.checkpointAt + nsHour ≤ tb6 s) : checkpointDue s = takeCheckpoint s := by
  simp [checkpointDue, guarded, hnand, hage]

theorem takeCheckpoint_done {c : Coppice} (hc : s.cop.checkpointed s.dev.fit = some c) :
    takeCheckpoint s = if s.lau.segs = [] then s.onCop fun _ => { c with checkpointAt := tb6 s }
      else commit (s.onCop fun _ => { c with checkpointAt := tb6 s }) := by
  simp only [takeCheckpoint, hc]

theorem takeCheckpoint_waits (hc : s.cop.checkpointed s.dev.fit = none) : takeCheckpoint s = s := by simp only [takeCheckpoint, hc]

/-- The first time out of a die is below the three that fail it. -/
theorem readyTimeout_first {die : Nat} (hdie : die < diesFitted s) (hnand : nandUsed s = true) (hnone : s.cop.timeouts = []) :
    readyTimeout die s = s.onCop fun c => { c with timeouts := [(tb6 s, die)] } := by
  have hadd : (s.onCop fun c => { c with timeouts := (tb6 s, die) :: c.timeouts }) = s.onCop fun c => { c with timeouts := [(tb6 s, die)] } := by
    simp only [State.onCop, hnone]
  have hfew : ¬ 3 ≤ ((([(tb6 s, die)] : List (Nat × Nat)).filter fun x =>
      x.2 == die && decide (tb6 s < x.1 + nsMin)).length) := by
    have := List.length_filter_le (fun x : Nat × Nat => x.2 == die && decide (tb6 s < x.1 + nsMin)) [(tb6 s, die)]
    simp only [List.length_cons, List.length_nil] at this
    omega
  rw [readyTimeout, if_neg (by simp only [hnand, not_true_eq_false, or_false]; omega)]
  simp only [hadd]
  exact if_neg hfew

theorem dieRebuilt_of_done {die : Nat} (hdie : die ∈ s.cop.rebuilding) (hempty : ∀ b ∈ blocksIn s die [.open_, .closed], validIn s b = []) :
    dieRebuilt die s = report 0x600B kDie die [] 0x0D0A 2 die [] (s.onCop fun c => { c with rebuilding := c.rebuilding.erase die }) :=
  if_pos ⟨hdie, List.all_eq_true.2 fun b hb => beq_iff_eq.2 (hempty b hb)⟩

theorem healthSnapshot_due (hage : s.cop.snapshotAt + nsMin ≤ tb6 s) :
    (healthSnapshot s).cop.snapshotAt = tb6 s
      ∧ (healthSnapshot s).cop.temps = Tbl.upd s.cop.temps (tempBin s.dev.junction) 0 (· + 1) := by
  have hgauges : copGauges (healthSnapshot s).cop
      = (Tbl.upd s.cop.temps (tempBin s.dev.junction) 0 (· + 1), tb6 s, s.cop.dramErrors, s.cop.reload) := by
    rw [healthSnapshot, if_pos (Or.inr hage)]
    exact copGauges_commit _
  simp only [copGauges, Prod.mk.injEq] at hgauges
  obtain ⟨htemps, hat, -, -⟩ := hgauges
  exact ⟨hat, htemps⟩

/-! ### A DRAM error -/

/-- A DRAM error noted: what it took is marked, and the error and the slot to reload are kept. -/
def dramNoted (e : DramErr) (s : State) : State :=
  let data := le 1 e.device ++ zeros 3 ++ le 4 e.line
  report 0x6007 kDevice 0 data 0x0D06 2 0 data ((loseBar2 e s).onCop fun c =>
    { c with dramErrors := (e.device, e.line, tb6 (loseBar2 e s)) :: c.dramErrors,
             reload := match e.slot with | some n => if n ∈ c.reload then c.reload else n :: c.reload | none => c.reload })

theorem dramNoted_gauges (e : DramErr) : copGauges (dramNoted e s).cop = (s.cop.temps, s.cop.snapshotAt, (e.device, e.line, tb6 s) :: s.cop.dramErrors,
    match e.slot with | some n => if n ∈ s.cop.reload then s.cop.reload else n :: s.cop.reload | none => s.cop.reload) := by
  refine (copGauges_report _ _ _ _ _ _ _ _ _).trans ?_
  cases e.slot <;> rfl

/-- The first error of all is below the 16 lines that fail a device. -/
theorem dramError_first {e : DramErr} (hnone : s.cop.dramErrors = []) : dramError e s = dramNoted e s := by
  have hone : (dramNoted e s).cop.dramErrors = [(e.device, e.line, tb6 s)] := by
    rw [show (dramNoted e s).cop.dramErrors = (copGauges (dramNoted e s).cop).2.2.1 from rfl, dramNoted_gauges, hnone]
  have hfew : ¬ 16 ≤ recentLines (dramNoted e s) e.device := by
    have hdedup : recentLines (dramNoted e s) e.device ≤ _ := (List.dedup_sublist _).length_le
    rw [List.length_map, hone] at hdedup
    have := hdedup.trans (List.length_filter_le _ _)
    simp only [List.length_cons, List.length_nil] at this
    omega
  exact if_neg fun h => hfew h.1

theorem dramNoted_reloads {e : DramErr} {n : Nat} (hn : e.slot = some n) : n ∈ (dramNoted e s).cop.reload := by
  rw [show (dramNoted e s).cop.reload = (copGauges (dramNoted e s).cop).2.2.2 from rfl, dramNoted_gauges, hn]
  dsimp only
  split
  · assumption
  · exact List.mem_cons_self

theorem dramNoted_badLines {e : DramErr} {a : Nat} (ha : e.bar2 = some a) : a / 128 ∈ (dramNoted e s).host.badLines := by
  simp [dramNoted, loseBar2, ha]

theorem dramNoted_tokens {e : DramErr} {x : Token} (hx : x ∈ (dramNoted e s).host.tokens) (hid : e.token = some x.id) : x.status = stInternal := by
  have htokens : x ∈ (loseBar2 e s).host.tokens := by simpa [dramNoted] using hx
  obtain ⟨t, -, rfl⟩ := List.mem_map.1 htokens
  by_cases ht : e.token = some t.id
  · rw [if_pos ht]
  · rw [if_neg ht] at hid
    exact absurd hid ht

/-! ### Retention -/

theorem judgeSpare_keeps (s : State) : (judgeSpare s).tar = s.tar ∧ (judgeSpare s).led = s.led := by
  simp only [judgeSpare]
  split
  · split <;> exact ⟨rfl, rfl⟩
  · split
    · exact ⟨rfl, rfl⟩
    · simp

theorem trimSome_keeps_records (s : State) : (trimSome s).tar = s.tar ∧ (trimSome s).led = s.led := by
  simp only [trimSome]
  split <;> exact ⟨rfl, rfl⟩

theorem retentionExpiry_due (htb2 : tb2Valid s = true) :
    (retentionExpiry s).tar.marks = s.tar.marks.filter (fun m => !passed s (m.due / nsPerS) s.cop.params.retention)
      ∧ (retentionExpiry s).led.entries = expireEntries s := by
  rw [retentionExpiry, if_pos htb2]
  dsimp only
  rw [(judgeSpare_keeps _).1, (judgeSpare_keeps _).2]
  split
  · rw [(trimSome_keeps_records _).1, (trimSome_keeps_records _).2]
    exact ⟨rfl, rfl⟩
  · exact ⟨rfl, rfl⟩

end

end Sys2Proof.Proofs
end

section
/-!
PROOFS. Coppice's timers and faults.
-/

namespace Sys2Proof.Proofs
open Sys2Proof.Machine

/-- Settles O55, an event at a time: each step is one lemma about its handler, and what a sector written for a commit leaves of Coppice
carries the snapshot and the DRAM errors past it. -/
theorem storageTimersAct : Obligations.StorageTimersAct := by
  unfold Obligations.StorageTimersAct
  intro s hrun
  refine ⟨fun hnand hage hring => whileRunning_gives hrun (tailWrite_due hnand hage hring),
    fun hnand hage => ⟨fun c hc hsegs => whileRunning_gives hrun ?_, fun c hc hsegs => whileRunning_gives hrun ?_,
      fun hc => whileRunning_gives hrun ((checkpointDue_aged hnand hage).trans (takeCheckpoint_waits hc))⟩,
    fun die hdie hnand hnone => whileRunning_gives hrun (readyTimeout_first hdie hnand hnone),
    fun die hdie hempty => whileRunning_gives hrun (dieRebuilt_of_done hdie hempty),
    fun e hnone => ?_, fun n => whileRunning_gives hrun rfl, fun hage => ?_, fun htb2 => ?_⟩
  · rw [checkpointDue_aged hnand hage, takeCheckpoint_done hc, if_pos hsegs]
  · rw [checkpointDue_aged hnand hage, takeCheckpoint_done hc, if_neg hsegs]
  · refine ⟨_, whileRunning_gives (f := dramError e) hrun (dramError_first hnone), ?_, fun n hn => ?_, fun a ha => ?_, fun x hx hid => ?_⟩
    · rw [Laws.settle_cop, show (dramNoted e s).cop.dramErrors = (copGauges (dramNoted e s).cop).2.2.1 from rfl, dramNoted_gauges, hnone]
    · rw [Laws.settle_cop]
      exact dramNoted_reloads hn
    · rw [Laws.settle_host_badLines]
      exact dramNoted_badLines ha
    · rw [Laws.settle_host_tokens] at hx
      exact dramNoted_tokens hx hid
  · refine ⟨_, whileRunning_gives (f := healthSnapshot) hrun rfl, ?_⟩
    rw [Laws.settle_cop]
    exact healthSnapshot_due hage
  · refine ⟨_, whileRunning_gives (f := retentionExpiry) hrun rfl, ?_⟩
    rw [Laws.settle_tar, Laws.settle_led]
    exact retentionExpiry_due htb2

end Sys2Proof.Proofs
end

section
/-!
SUPPORT. Yew's records, its window and its region (R317 to R326).
-/

namespace Sys2Proof.Proofs
open Sys2Proof.Machine

section
variable (s : State)

/-- What an append makes of the recorder (R318 to R320, R326). -/
theorem yewAppend_yew (e : YewEvent) (staged : Bool) :
    (yewAppend e staged s).yew =
      { s.yew with
        records := { seq := s.yew.newest + 1, ev := e, staged, chain := yewChain s.yew.chain (yewHead (s.yew.newest + 1) e staged), appended := tb7 s }
          :: s.yew.records
        newest := s.yew.newest + 1
        chain := yewChain s.yew.chain (yewHead (s.yew.newest + 1) e staged)
        irqCount := s.yew.irqCount + 1 } := by
  have hsector : (if s.yew.newest % 64 = 0 then dirtySector 0x08 s else s).yew = s.yew := by
    split <;> rfl
  simp only [yewAppend]
  split <;> simp only [Laws.signal_yew, Laws.onYew_yew, hsector]

variable {s}

/-- An event raised while appends are stopped waits in the staging buffer (R323). -/
theorem yew_staged (code kind source : Nat) (data : Bytes) (hstops : yewStaging s = true) (hroom : s.yew.staged.length < 4096) :
    yew code kind source data s = s.onYew fun y => { y with staged := y.staged ++ [yewEvent code kind source data s] } := by
  simp only [yew, hstops, hroom, if_true]

theorem writeYewCursor_upper (v : Word) :
    writeYewCursor true v s =
      if yewOldest s ≤ (v ++ s.yew.cursorLow : DWord).toNat ∧ (v ++ s.yew.cursorLow : DWord).toNat ≤ s.yew.newest + 1 then
        moveCursor (v ++ s.yew.cursorLow : DWord).toNat s
      else s := by
  simp [writeYewCursor, guarded]

theorem advanceWindow_shown {q : Nat} (hctrl : s.yew.ctrl.getLsbD 0 = true) (hready : s.yew.ready = true) (hq : lastShown s = some q) :
    advanceWindow s = moveCursor (q + 1) s := by
  rw [advanceWindow, if_pos ⟨hctrl, hready⟩, hq]

theorem advanceWindow_stays (h : s.yew.ctrl.getLsbD 0 = false ∨ s.yew.ready = false ∨ lastShown s = none) : advanceWindow s = s := by
  rw [advanceWindow]
  split
  next hboth =>
    obtain ⟨hctrl, hready⟩ := hboth
    rcases h with hoff | hnot | hnone
    · exact absurd hctrl (ne_true_of_eq_false hoff)
    · exact absurd hready (ne_true_of_eq_false hnot)
    · rw [hnone]
  next => rfl

theorem freezeTimeout_due (hfrozen : s.yew.frozen = true) (hsoft : s.yew.hard = false) (hage : s.yew.frozenAt + 60 * nsPerS ≤ tb6 s) :
    freezeTimeout s = unstage s := by
  simp [freezeTimeout, guarded, unfreezeYew, hfrozen, hsoft, hage]

theorem reclaimYew_expired {n : Nat} (hn : n ≤ yewBlock s)
    (hold : withinHold s (s.yew.records.drop (s.yew.records.length - n)) = []) : reclaimYew n s = yewErase n s := by
  simp [reclaimYew, guarded, hn, hold]

theorem reclaimYew_needed {n : Nat} (hn : n ≤ yewBlock s) (hplace : yewPlaces ≤ s.yew.records.length - n) (hgoes : yewStaging s = false) :
    reclaimYew n s = yewErase n s := by
  simp [reclaimYew, guarded, hn, hplace, hgoes]

end

end Sys2Proof.Proofs
end

section
/-!
PROOFS. Yew's records, its window and its region.
-/

namespace Sys2Proof.Proofs
open Sys2Proof.Machine

/-- Settles O56, a clause at a time, each through what its handler does in that case. -/
theorem yewActs : Obligations.YewActs := by
  unfold Obligations.YewActs
  refine ⟨fun s e st => ?_, fun s code kind source data => yew_staged code kind source data,
    fun s v hrun => ⟨fun hlow hhigh => whileRunning_gives hrun ?_, fun hout => whileRunning_gives hrun ?_, whileRunning_gives hrun rfl⟩,
    fun s hrun => ⟨whileRunning_gives hrun rfl,
      fun q hctrl hready hq => whileRunning_gives hrun (advanceWindow_shown (s := emit _ s) hctrl hready hq),
      fun hstays => whileRunning_gives hrun (advanceWindow_stays (s := emit _ s) hstays),
      fun hfrozen hsoft hage => whileRunning_gives hrun (freezeTimeout_due hfrozen hsoft hage),
      fun n hn hold => whileRunning_gives hrun (reclaimYew_expired hn hold),
      fun n hn hplace hgoes => whileRunning_gives hrun (reclaimYew_needed hn hplace hgoes)⟩⟩
  · simp [yewAppend_yew]
  · exact (writeYewCursor_upper v).trans (if_pos ⟨hlow, hhigh⟩)
  · exact (writeYewCursor_upper v).trans (if_neg (by omega))

end Sys2Proof.Proofs
end

section
/-!
SUPPORT. Timed downlink and background work (R25, R307, R340, R341, R416).
-/

namespace Sys2Proof.Proofs
open Sys2Proof.Machine

section
variable {s : State}

theorem downlinkExpiry_due {i : Nat} {x : DlCmd} (hx : dlCmd s i = some x) (hset : x.expiry ≠ 0) (hpast : x.expiry ≤ tb7 s)
    (hholds : holdsToken s = true) : downlinkExpiry i s = dlFinish i 3 0 0 [] s := by
  simp [downlinkExpiry, guarded, hx, hset, hpast, hholds]

theorem multicastRound_sends (c : Nat) (hsend : maySend s = true) :
    multicastRound c s = (s.hr.map Prod.fst).foldl (fun t net => roundOn c net t) s := by
  simp only [multicastRound, guarded, hsend, if_true]

theorem activationInstant_running {c : Nat} {g : Campaign} (hg : campaign s c = some g) (hgoes : g.ended = false) (hsend : maySend s = true) :
    activationInstant c s = (g.slots.filter fun x => x.2.1 == phReady).foldl (fun t x => campReady c x.1 t) s := by
  simp [activationInstant, guarded, hg, hgoes, hsend]

theorem getLsbD_ofNat_two_pow {row : Nat} (hrow : row < 32) (k : Nat) : (BitVec.ofNat 32 (2 ^ row)).getLsbD k = decide (k = row) := by
  rw [BitVec.getLsbD_ofNat, Nat.testBit_two_pow]
  by_cases hk : k = row
  · simp [hk, hrow]
  · simp [hk, Ne.symm hk]

/-- One bit of a register is set or cleared, and no other. -/
theorem getLsbD_setBit (v : Word) {row : Nat} (hrow : row < 32) (b : Bool) (k : Nat) :
    (if b then v ||| BitVec.ofNat 32 (2 ^ row) else v &&& ~~~BitVec.ofNat 32 (2 ^ row)).getLsbD k = if k = row then b else v.getLsbD k := by
  have hwidth : v.getLsbD k = true → k < 32 := BitVec.lt_of_getLsbD
  cases b
  · rw [if_neg Bool.false_ne_true, BitVec.getLsbD_and, BitVec.getLsbD_not, getLsbD_ofNat_two_pow hrow]
    by_cases hk : k = row
    · simp [hk]
    · simpa [hk] using hwidth
  · rw [if_pos rfl, BitVec.getLsbD_or, getLsbD_ofNat_two_pow hrow]
    by_cases hk : k = row <;> simp [hk]

/-- An activity whose lateness changes is noted, and no other (R25). -/
theorem activityLate_late {row : Nat} {late : Bool} (hchange : s.dev.late.getLsbD row = !late) (hrow : row < 32) (k : Nat) :
    (activityLate row late s).dev.late.getLsbD k = if k = row then late else s.dev.late.getLsbD k := by
  have hdiffers : s.dev.late.getLsbD row ≠ late := by
    rw [hchange]
    exact Bool.not_ne_self late
  rw [activityLate, if_neg hdiffers]
  simp only [Laws.report_dev, Laws.onDev_dev]
  exact getLsbD_setBit s.dev.late hrow late k

end

end Sys2Proof.Proofs
end

section
/-!
PROOFS. Timed downlink and background work.
-/

namespace Sys2Proof.Proofs
open Sys2Proof.Machine

/-- Settles O57: each timer's handler under its condition, and one bit of the word of late activities. -/
theorem timedWorkRuns : Obligations.TimedWorkRuns := by
  unfold Obligations.TimedWorkRuns
  refine fun s hrun => ⟨fun i x hx hset hpast hholds => whileRunning_gives hrun (downlinkExpiry_due hx hset hpast hholds),
    fun c hsend => whileRunning_gives hrun (multicastRound_sends c hsend),
    fun c g hg hgoes hsend => whileRunning_gives hrun (activationInstant_running hg hgoes hsend), fun row late hchange hrow => ?_⟩
  refine ⟨_, whileRunning_gives (f := activityLate row late) hrun rfl, ?_, fun k hk => ?_⟩
  · rw [Laws.settle_dev_late, activityLate_late hchange hrow, if_pos rfl]
  · rw [Laws.settle_dev_late, activityLate_late hchange hrow, if_neg hk]

end Sys2Proof.Proofs
end

section
/-!
SUPPORT. Power domains (R345 to R355, R60).
-/

namespace Sys2Proof.Proofs
open Sys2Proof.Machine

section
variable {s : State}

theorem pdom_modPdom_same (d : Nat) (f : Dom → Dom) (s : State) : pdom (modPdom d f s) d = f (pdom s d) :=
  Laws.getD_upd_same _ _ _ _

theorem pdom_modPdom_ne {d k : Nat} (f : Dom → Dom) (s : State) (h : k ≠ d) : pdom (modPdom d f s) k = pdom s k :=
  Laws.getD_upd_ne _ _ _ _ h

theorem pdom_settle (before s : State) (d : Nat) : pdom (settle before s) d = pdom s d := by
  rw [pdom, Laws.settle_pwr, pdom]

theorem pdom_report (yewCode kind source : Nat) (data : Bytes) (noticeCode prio nsource : Nat) (ndata : Bytes) (s : State) (d : Nat) :
    pdom (report yewCode kind source data noticeCode prio nsource ndata s) d = pdom s d := by
  rw [pdom, Laws.report_pwr, pdom]

/-! ### Entry and wake -/

/-- An idle domain's entry that nothing refuses begins (R345, R352). -/
theorem domainEntry_begins {d st : Nat} {l : List Nat} (hd : isDomain d = true) (hidle : domIdle s d = true) (hst : nextState s d = some st)
    (hfree : refusersOf s d st (l.contains 3) = []) : domainEntry d l s = modPdom d (fun x => { x with entering := some st }) s := by
  rw [domainEntry, if_pos ⟨hd, hidle⟩]
  simp only [hst, tryEntry, hfree]

theorem wake_of_settled {d : Nat} (hnone : (pdom s d).entering = none) : wake d s = wakeNow d s := by
  simp only [wake, hnone]

/-- The first wake that fails is noted, and the wake repeated. -/
theorem wakeFault_first {d : Nat} (hd : isDomain d = true) (hsleeps : (pdom s d).state ≠ 0) (hfirst : (pdom s d).wakeFails = 0) :
    (pdom (wakeFault d s) d).wakeFails = 1 := by
  rw [wakeFault, if_pos ⟨hd, hsleeps⟩, if_pos hfirst, pdom_report]
  exact congrArg Dom.wakeFails (pdom_modPdom_same d (fun x => { x with wakeFails := 1 }) s)

/-! ### DVFS -/

/-- The fastest point a quad may run at, by its domain and the thermal hold. -/
def fastestPoint (hold : Bool) (x : Dom) : Nat := max x.dvfsMax (if hold then 2 else 0)

/-- A quad's domain at the end of a window of a load. -/
def dvfsTurned (load : Nat) (hold : Bool) (x : Dom) : Dom :=
  if 20 < load then { x with point := max (x.point - 1) (fastestPoint hold x), low := 0 }
  else if load < 5 then
    if 10 ≤ x.low + 1 then { x with point := max (min (x.point + 1) 3) (fastestPoint hold x), low := 0 } else { x with low := x.low + 1 }
  else { x with low := 0 }

/-- A DVFS window turns each quad once, by its own load. -/
theorem pdom_dvfsWindow (busy : List Nat) {q : Nat} (hq : q < 4) :
    pdom (dvfsWindow busy s) q = dvfsTurned (busy.getD q 0) s.dev.thermalHold (pdom s q) := by
  have hpass := foldl_turns_once (fun t : State => (pdom t q, t.dev.thermalHold)) (fun v => (dvfsTurned (busy.getD q 0) v.2 v.1, v.2))
    (f := dvfsQuad busy) (b := q) (fun t => Prod.ext (pdom_modPdom_same _ _ _) rfl)
    (fun t k hk => Prod.ext (pdom_modPdom_ne _ _ hk.symm) rfl) (List.nodup_range (n := 4)) s
  rw [if_pos (List.mem_range.2 hq)] at hpass
  exact congrArg Prod.fst hpass

theorem dvfsTurned_busy {load : Nat} (h : 20 < load) (hold : Bool) (x : Dom) :
    dvfsTurned load hold x = { x with point := max (x.point - 1) (fastestPoint hold x), low := 0 } := if_pos h

theorem dvfsTurned_between {load : Nat} (hlow : 5 ≤ load) (hhigh : load ≤ 20) (hold : Bool) (x : Dom) :
    dvfsTurned load hold x = { x with low := 0 } := by
  rw [dvfsTurned, if_neg (by omega), if_neg (by omega)]

theorem dvfsTurned_quiet {load : Nat} {x : Dom} (hquiet : load < 5) (hearly : x.low + 1 < 10) (hold : Bool) :
    dvfsTurned load hold x = { x with low := x.low + 1 } := by
  rw [dvfsTurned, if_neg (by omega), if_pos hquiet, if_neg (by omega)]

/-! ### PWR_LIMIT -/

theorem writeLimit_ignored {d : Nat} {v : Word} (h : limitFits d v = false ∨ ((limitAsked s d v).2.1 ≠ 0 ∧ ceilingOk s d (limitAsked s d v).2.1 = false)) :
    writeLimit d v s = s := by
  have hrefused : ¬ limitFits d v = true ∨ ((limitAsked s d v).2.1 ≠ 0 ∧ ¬ ceilingOk s d (limitAsked s d v).2.1 = true) :=
    h.imp ne_true_of_eq_false (And.imp_right ne_true_of_eq_false)
  rw [writeLimit]
  split
  · rfl
  · exact if_pos hrefused

/-- A limit with no ceiling is taken by a domain that had none and is no quad. -/
theorem writeLimit_taken {d : Nat} {v : Word} (hd : isDomain d = true) (hquad : isQuad d = false) (hfits : limitFits d v = true)
    (hopen : (limitAsked s d v).2.1 = 0) (hwas : (pdom s d).ceiling = 0) :
    writeLimit d v s = holdDown d (modPdom d (fun x =>
      { x with limit := BitVec.ofNat 32 ((limitAsked s d v).1 + 16 * (limitAsked s d v).2.1 + 256 * (limitAsked s d v).2.2),
               watch := false }) s) := by
  simp [writeLimit, hd, hquad, hfits, hopen, hwas]

end

end Sys2Proof.Proofs
end

section
/-!
PROOFS. Power domains.
-/

namespace Sys2Proof.Proofs
open Sys2Proof.Machine

/-- Settles O58, an event at a time; a DVFS window turns each quad once, by its own load. -/
theorem powerDomainsTurn : Obligations.PowerDomainsTurn := by
  unfold Obligations.PowerDomainsTurn
  refine fun s hrun => ⟨fun d l st hd hidle hst hfree => ?_, fun d hd hnone => ?_, fun d hd hsleeps hfirst => ?_, fun busy q hq => ?_,
    fun d v _ hset hbad => whileRunning_gives hrun (writeLimit_ignored (Or.inr ⟨hset, hbad⟩)),
    fun d v _ hbad => whileRunning_gives hrun (writeLimit_ignored (Or.inl hbad)),
    fun d v hd hquad hfits hopen hwas => whileRunning_gives hrun (writeLimit_taken hd hquad hfits hopen hwas)⟩
  · exact (Laws.poweredUp_runs _ hrun).trans (by rw [domainEntry_begins hd hidle hst hfree])
  · exact whileRunning_gives hrun (by rw [guarded, if_pos hd, wake_of_settled hnone])
  · refine ⟨_, whileRunning_gives (f := wakeFault d) hrun rfl, ?_⟩
    rw [pdom_settle, wakeFault_first hd hsleeps hfirst]
  · refine ⟨_, whileRunning_gives (f := dvfsWindow busy) hrun rfl, ?_⟩
    rw [pdom_settle, pdom_dvfsWindow busy hq]
    refine ⟨fun hbusy => ?_, fun hlow hhigh => ?_, fun hquiet hearly => ?_⟩
    · rw [dvfsTurned_busy hbusy]
      exact ⟨rfl, rfl⟩
    · rw [dvfsTurned_between hlow hhigh]
      exact ⟨rfl, rfl⟩
    · rw [dvfsTurned_quiet hquiet hearly]
      exact ⟨rfl, rfl⟩

end Sys2Proof.Proofs
end

section
/-!
SUPPORT. Hawthorn's requests, grants and cut-offs (R355, R357, R360 to R364).
-/

namespace Sys2Proof.Proofs
open Sys2Proof.Machine

/-- What a cut-off leaves behind: how many there were, and who is cut off. -/
def hwCuts (s : State) : Word × Word := (s.pwr.cutoffs, s.pwr.disabled)

section
variable (s : State)

theorem hwCuts_refuse (d st code : Nat) : hwCuts (refuse d st s code) = hwCuts s := by
  simp [hwCuts, refuse, modPdom]

theorem hwCuts_holdDown (d : Nat) : hwCuts (holdDown d s) = hwCuts s := by
  simp only [holdDown, tryEntry]
  split
  · split
    · rfl
    · exact foldl_keeps hwCuts (fun t c => hwCuts_refuse t d _ c) _ s
  · rfl

theorem hwCuts_retryHolds : hwCuts (retryHolds s) = hwCuts s := foldl_keeps hwCuts (fun t d => hwCuts_holdDown t d) _ s

theorem hwCuts_arbitrate (r : Nat) : hwCuts (arbitrate r s) = hwCuts s := by
  simp only [arbitrate]
  split
  · rfl
  · split <;> rfl

theorem hwCuts_report (yewCode kind source : Nat) (data : Bytes) (noticeCode prio nsource : Nat) (ndata : Bytes) :
    hwCuts (report yewCode kind source data noticeCode prio nsource ndata s) = hwCuts s := by
  rw [hwCuts, Laws.report_pwr, hwCuts]

variable {s}

/-- A request of a free resource in a domain that runs joins those that wait, and the resource is arbitrated. -/
theorem hwRequest_free {q : HwReq} {r : Nat} {rest : List Nat} (hwho : requester q.who = true) (hwants : wantsOk q.wants = true)
    (hgoes : cutOff s q.who = false) (hplain : q.locked = false) (hr : q.wants = r :: rest) (hfree : Tbl.get s.pwr.owners r = none)
    (hrun : (pdom s (domainOfRes r)).state = 0) (hstays : (pdom s (domainOfRes r)).entering = none) :
    hwRequest q s = arbitrate r (s.onPwr fun p =>
      { p with queue := p.queue ++ [{ who := q.who, wants := q.wants, age := BitVec.ofNat 32 (memCycle s), length := q.length, locked := false }] }) := by
  have hfind : (q.wants.find? fun r => (Tbl.get s.pwr.owners r).isNone) = some r := by
    rw [hr, List.find?_cons_of_pos]
    rw [hfree, Option.isNone_none]
  have hhead : q.wants.head?.getD 0 = r := by rw [hr, List.head?_cons, Option.getD_some]
  simp [hwRequest, hwho, hwants, hgoes, hplain, hfind, hhead, hrun, hstays]

theorem hwRelease_owned {r : Nat} {g : Grant} (hg : Tbl.get s.pwr.owners r = some g) :
    hwRelease r s = retryHolds (arbitrate r (endGrant r s)) := by
  rw [hwRelease, hg, Option.isSome_some, if_pos rfl]

/-- A holder over its bound is counted among the cut-offs and disabled (R364). -/
theorem hwCuts_cutoff {r : Nat} {g : Grant} (hg : Tbl.get s.pwr.owners r = some g) (hover : overBound s g = true) :
    hwCuts (cutoff r s) = (sat32 s.pwr.cutoffs 1, s.pwr.disabled ||| BitVec.ofNat 32 (2 ^ g.who)) := by
  rw [cutoff, hg]
  dsimp only
  rw [if_neg (not_not_intro hover), hwCuts_retryHolds, hwCuts_arbitrate]
  split
  · rw [hwCuts_report]
    split
    · exact hwCuts_report _ _ _ _ _ _ _ _ _
    · exact hwCuts_report _ _ _ _ _ _ _ _ _
  · exact hwCuts_report _ _ _ _ _ _ _ _ _

theorem cutOff_readmit {who : Nat} (hcut : cutOff s who = true) (hlive : who ∉ s.pwr.dead) (hdue : readmitDue s who = true) (hwho : who < 32) :
    cutOff (readmit who s) who = false := by
  rw [readmit, if_pos ⟨hcut, hlive, hdue⟩, cutOff, Laws.yew_pwr, Laws.onPwr_pwr]
  exact (getLsbD_setBit s.pwr.disabled hwho false who).trans (if_pos rfl)

theorem cutOff_settle (before : State) (who : Nat) : cutOff (settle before s) who = cutOff s who := by
  rw [cutOff, Laws.settle_pwr, cutOff]

end

end Sys2Proof.Proofs
end

section
/-!
PROOFS. Hawthorn arbitrates.
-/

namespace Sys2Proof.Proofs
open Sys2Proof.Machine

/-- Settles O59, an event at a time; neither the next grant nor the domains that try again touch who is cut off. -/
theorem hawthornArbitrates : Obligations.HawthornArbitrates := by
  unfold Obligations.HawthornArbitrates
  refine fun s hrun => ⟨fun q r rest hwho hwants hgoes hplain hr hfree hstate hstays => (Laws.poweredUp_runs _ hrun).trans ?_,
    fun r g hg => (Laws.poweredUp_runs _ hrun).trans ?_, fun r g hg hwho hover => ⟨_, Laws.poweredUp_runs (cutoff r) hrun, ?_⟩,
    fun who hcut hwho hlive hdue => ⟨_, Laws.poweredUp_runs (readmit who) hrun, ?_⟩⟩
  · rw [hwRequest_free hwho hwants hgoes hplain hr hfree hstate hstays]
  · rw [hwRelease_owned hg]
  · obtain ⟨hcount, hdisabled⟩ := Prod.mk.inj (hwCuts_cutoff hg hover)
    refine ⟨(congrArg Power.cutoffs (Laws.settle_pwr _ _)).trans hcount, ?_⟩
    rw [cutOff_settle, cutOff, hdisabled]
    exact (getLsbD_setBit s.pwr.disabled hwho true g.who).trans (if_pos rfl)
  · rw [cutOff_settle, cutOff_readmit hcut hlive hdue hwho]

end Sys2Proof.Proofs
end

section
/-!
SUPPORT. Laurel's updates, frames and strip (R366 to R373).
-/

namespace Sys2Proof.Proofs
open Sys2Proof.Machine

section
variable {s : State}

theorem laurelUpdate_ignored {v : Word} (h : v.getLsbD 0 = false ∨ lauEnabled s = false) : laurelUpdate v s = s := by
  have hnot : (¬ v.getLsbD 0 || !lauEnabled s) = true := by
    rcases h with hstart | hoff
    · rw [hstart]
      rfl
    · rw [hoff, Bool.not_false, Bool.or_true]
  exact if_pos hnot

/-- An UPDATE that arrives while one runs waits, merged with what waits already (R370). -/
theorem laurelUpdate_waits {v : Word} {ds : List Drive} (hstart : v.getLsbD 0 = true) (hon : lauEnabled s = true) (hds : s.lau.running = some ds) :
    laurelUpdate v s = s.onLau fun l => { l with refused := false, pending := some (v.getLsbD 1 || l.pending.getD false) } := by
  simp only [laurelUpdate, hstart, hon, hds, not_true_eq_false, decide_false, Bool.not_true, Bool.or_self, Bool.false_eq_true,
    Option.isSome_some, Bool.true_or, if_true, if_false, State.onLau]

/-- A pump that has been started is not started again. -/
theorem startPump_started (h : s.lau.pumpAt.isSome = true) : startPump s = s := by
  rw [startPump, if_neg]
  rintro ⟨-, hnone⟩
  rw [hnone] at h
  exact Bool.false_ne_true h

theorem laurelUpdate_kept {v : Word} (hstart : v.getLsbD 0 = true) (hon : lauEnabled s = true) (hidle : s.lau.running = none)
    (hdisplay : displayRuns s = true) (hpump : s.lau.pumpAt.isSome = true) :
    laurelUpdate v s = s.onLau fun l => { l with refused := false, requested := some (v.getLsbD 1 || l.requested.getD false) } := by
  simp only [laurelUpdate, hstart, hon, hidle, hdisplay, not_true_eq_false, decide_false, Bool.not_true, Bool.or_self, Bool.false_eq_true,
    Option.isSome_none, if_false]
  exact startPump_started hpump

/-- A frame of an update with waveforms left advances them (R368, R370). -/
theorem displayFrame_advances {ds : List Drive} (hrun : s.dev.phase = .running) (hds : s.lau.running = some ds)
    (hleft : ((nextFrame ds).all fun d => d.codes == []) = false) :
    displayFrame s = (ds.foldl (fun t d => chargeFrame d t) s).onLau fun l => { l with running := some (nextFrame ds) } := by
  simp only [displayFrame, hds, hleft, Bool.false_eq_true, if_false]
  exact if_neg (not_not_intro hrun)

/-- A pump not ready 20 ms after its start refuses the update (R369). -/
theorem pumpTimeout_lau {t : Nat} (hpump : s.lau.pumpAt = some t) (hlow : s.lau.pumpOk = false) (hage : t + 20 * nsMs ≤ tb6 s) :
    (pumpTimeout s).lau = { s.lau with
      refused := true, reason := 4, requested := none, pending := none, recoverMask := interruptedMask s, pumpAt := none } := by
  rw [pumpTimeout, hpump]
  dsimp only
  rw [if_pos ⟨ne_true_of_eq_false hlow, hage⟩, Laws.report_lau]
  rfl

end

end Sys2Proof.Proofs
end

section
/-!
PROOFS. Laurel acts.
-/

namespace Sys2Proof.Proofs
open Sys2Proof.Machine

/-- Settles O60, an event at a time, each through what its handler does in that case. -/
theorem laurelActs : Obligations.LaurelActs := by
  unfold Obligations.LaurelActs
  refine fun s hrun => ⟨fun v hoff => whileRunning_gives hrun (laurelUpdate_ignored hoff),
    fun v ds hstart hon hds => whileRunning_gives hrun (laurelUpdate_waits hstart hon hds),
    fun v hstart hon hidle hdisplay hpump => whileRunning_gives hrun (laurelUpdate_kept hstart hon hidle hdisplay hpump),
    fun ds hds hleft => (Laws.poweredUp_runs _ hrun).trans ?_,
    fun t hpump hlow hage => ⟨_, whileRunning_gives (f := pumpTimeout) hrun rfl, ?_⟩,
    fun hactive => ⟨(Laws.whileReachable_runs _ hrun).trans ?_, (Laws.whileReachable_runs _ hrun).trans ?_⟩⟩
  · rw [displayFrame_advances hrun hds hleft]
  · rw [Laws.settle_lau, pumpTimeout_lau hpump hlow hage]
    exact ⟨rfl, rfl, rfl, rfl, rfl⟩
  · rw [stripRefresh, guarded, if_pos hactive]
  · rw [stripPolarity, guarded, if_pos hactive]

end Sys2Proof.Proofs
end

section
/-!
PROOFS. The registers after reset.
-/

namespace Sys2Proof.Proofs
open Sys2Proof.Machine

/-- Settles O7: reset fills no table, so every register reads the value its record starts with. -/
theorem resetRegisters : Obligations.ResetRegisters := by
  unfold Obligations.ResetRegisters
  refine ⟨by decide, by decide, by decide, rfl, fun _ => rfl, rfl, rfl, rfl, fun _ => ⟨rfl, rfl⟩, rfl, rfl, rfl, rfl, fun b => ?_,
    fun _ => ⟨rfl, rfl⟩, rfl, rfl, rfl, rfl, rfl⟩
  cases b <;> exact ⟨rfl, rfl⟩

end Sys2Proof.Proofs
end
